-- ==== Sys2Proof/Word.lean ====
section
/-! DEFINITION. The word types of the PFX-6541 (00_scope.md R2, R3, R5) and their plainest arithmetic. -/

namespace Sys2Proof

/-- 32 bits; an unqualified "word" of the spec (R5). -/
abbrev Word := BitVec 32

/-- 8 bits (R5). -/
abbrev Byte := BitVec 8

/-- 64 bits (R5). -/
abbrev DWord := BitVec 64

end Sys2Proof
end

