-- ==== Sys2Proof/Machine/Bits.lean ====
section
/-! DEFINITION. Bit fields, sign extension and byte order (00_scope.md R2, R3). -/

namespace Sys2Proof.Machine

/-- The field of `width` bits of `w` that starts at bit `lo`, as a number (R2: bit 0 is least significant). -/
def bits (w : Word) (lo width : Nat) : Nat := (w.toNat >>> lo) % 2 ^ width

/-- `w` with the field of `width` bits at `lo` replaced by `v` (taken modulo the field's size). -/
def setBits (w : Word) (lo width v : Nat) : Word :=
  let m : Nat := (2 ^ width - 1) <<< lo
  (w &&& ~~~(BitVec.ofNat 32 m)) ||| (BitVec.ofNat 32 ((v % 2 ^ width) <<< lo))

/-- Bit `n` of a word. -/
def bit (w : Word) (n : Nat) : Bool := w.getLsbD n

/-- The signed reading of the low `n` bits of `v`. -/
def sext (n v : Nat) : Int :=
  let v := v % 2 ^ n
  if 2 ^ (n - 1) ≤ v then (v : Int) - 2 ^ n else v

/-- An integer as a word, modulo 2^32. -/
def wordOfInt (v : Int) : Word := BitVec.ofInt 32 v

/-- The bytes of a number, least significant first, `n` of them (R3: little-endian). -/
def bytesLE : Nat → Nat → List Byte
  | 0, _ => []
  | n + 1, v => BitVec.ofNat 8 v :: bytesLE n (v / 256)

/-- The number that little-endian bytes spell (R3). -/
def numLE : List Byte → Nat
  | [] => 0
  | b :: bs => b.toNat + 256 * numLE bs

/-- A Bool as a number. -/
def b2n (b : Bool) : Nat := if b then 1 else 0

/-- `v` capped at `m` (a saturating counter's next value). -/
def satAdd (v d m : Nat) : Nat := Nat.min m (v + d)

/-- The numbers `lo`, `lo + 1`, …, `n` of them. -/
def span (lo n : Nat) : List Nat := (List.range n).map (lo + ·)

/-- The lowest index below `n` at which `p` holds. -/
def lowest (p : Nat → Bool) (n : Nat) : Option Nat := (List.range n).find? p

/-- `f` applied once for each number below `n`, in ascending order. -/
def forN {α : Type} (n : Nat) (f : Nat → α → α) (a : α) : α :=
  (List.range n).foldl (fun a i => f i a) a

end Sys2Proof.Machine
end

