-- ==== Sys2Proof/Syntax.lean ====
section
/-! DEFINITION. The commands of the PFX-6541 block model: one constructor of `Instr` for each row of
spec/opcode_table.json. A sequencer instruction carries the sequencer that issues it, its prefixes and its encoding
fields (06_instruction_encoding.md); a register command carries its requester and the written word; an event carries
the data that come from outside the device. -/

namespace Sys2Proof

/-- The requesters of a register access (00_scope.md R13). -/
inductive Requester where
  | seq (h : Fin 4) | host | remote | dma (c : Fin 48) | lodge
  deriving DecidableEq, Repr

/-- Prefix bytes (R146). -/
inductive Prefix where
  | rep | repa | narrow | atom
  | wm (mask : Byte)
  | reserved (b : Byte)
  deriving DecidableEq, Repr

/-- What the decoder found behind the prefixes (R155): a defined opcode, an undefined one that takes one byte (page 0) or
two (behind an escape), or no end of the instruction within 16 bytes. The last two stand in a NOP. -/
inductive Opc where
  | defined
  | undef (escaped : Bool)
  | over
  deriving DecidableEq, Repr

/-- What every sequencer instruction carries: the issuing sequencer, its prefixes in order, whether the encoding has a
nonzero reserved bit or a reserved value (check 7 of R155), what its opcode is (check 5), and, for a run that the
environment stops part-way, the number of micro-operations (or REP iterations of a scalar instruction) after which it
stands still. -/
structure Issue where
  h : Fin 4
  prefixes : List Prefix := []
  resv : Bool := false
  opc : Opc := .defined
  stop : Option Nat := none
  deriving DecidableEq, Repr

/-- The memory operand of formats M and P3M (R151, R152); `reserved` is MODE 0b00. In `indexed`, index 15 is no index
and `dsize` counts 0, 8, 16 or 32 displacement bits. -/
inductive MemOp where
  | reserved
  | postInc (b : Fin 16)
  | preDec (b : Fin 16)
  | indexed (b x : Fin 16) (dsize : Fin 4) (disp : Word)
  deriving DecidableEq, Repr

/-- The stepping modes of array and lane instructions (R68, R163). -/
inductive StepMode where
  | register | postInc | preDec
  | indexed (x : Fin 16) (scale : Fin 4)
  deriving DecidableEq, Repr

/-- The operands of a page 1 instruction: stepping mode and array operand word (R164). -/
structure P1 where
  mode : StepMode
  word : Word
  deriving DecidableEq, Repr

/-- The operands of a page 2 instruction: stepping mode and lane operand field (R169). -/
structure P2 where
  mode : StepMode
  fld : BitVec 16
  deriving DecidableEq, Repr

/-- Directions of ASHF (R84). -/
inductive ShiftDir where
  | e | w | s | n
  deriving DecidableEq, Repr


/-- A level of a pin, and for how many ticks it has held. -/
structure HeldLevel where
  level : Bool
  ticks : Nat
  deriving DecidableEq, Repr

/-- One word time of a receiver group: the word on each physical lane (R268). -/
abbrev LaneWords := Vector (BitVec 16) 8

/-- Where a NOP runs: on a hall sequencer (R185) or in a porch channel (R315). -/
inductive NopSite where
  | seq (iss : Issue)
  | porch (n : Fin 512)
  deriving DecidableEq, Repr

/-- A Tyashlink frame header (R405). -/
structure LinkHdr where
  dst : BitVec 10 := 0
  src : BitVec 10 := 0
  rt : Bool := false
  rhops : BitVec 4 := 0
  route : BitVec 24 := 0
  hops : BitVec 4 := 0
  deriving DecidableEq, Repr

/-- A 66-bit block of a port (R404): a data block, a control block with its type and bytes 1–7, or one with an invalid sync
header. -/
inductive Block where
  | data (w : BitVec 64)
  | ctl (type : Byte) (b : BitVec 56)
  | bad
  deriving DecidableEq, Repr

/-- A frame as it arrives at a port (R404, R405, R408): its header, what its EOF block says, and LEN − 1 and ADDR where it is a
response or an ATTEST; the rest of its payload are the command's operands. `seen`: the blocks from SOF to EOF, without the
EVENT and ALIGN slots between them, that arrived in place of those that all this spells, after an error or from a device that
sends a reserved value. -/
structure FrameIn where
  port : Fin 6
  hdr : LinkHdr := {}
  seq : Byte := 0
  ack : Byte := 0
  ackv : Bool := false
  nak : Bool := false
  len : Fin 256 := 0
  addr : Word := 0
  seen : Option (List Block) := none
  deriving DecidableEq, Repr

/-- What a receiving lane has seen when a block arrives (R402): its valid sync headers in a row, and, where both lanes have shown
ALIGN blocks, the slots between those of the two lanes. -/
structure LaneRun where
  headers : Nat := 0
  skew : Option Nat := none
  deriving DecidableEq, Repr

/-- An EVENT slot as it arrives (R407): bytes 1–7 of the EVT block on lane 0 and the data block on lane 1. -/
structure EventIn where
  port : Fin 6
  evt : BitVec 56
  data : BitVec 64
  deriving DecidableEq, Repr

/-- A PCI Express Configuration Request (R438, R439): a read of a word of the 4 KiB configuration space, or a write of one
under byte enables. -/
inductive CfgReq where
  | read (word : Fin 1024)
  | write (word : Fin 1024) (be : BitVec 4) (v : Word)
  deriving DecidableEq, Repr

/-- How a completion ends its request (R443): Successful Completion, Unsupported Request, Completer Abort, or poisoned with the
EP bit. -/
inductive CplStatus where
  | ok | unsupported | abort | poisoned
  deriving DecidableEq, Repr


/-- What cuts a March window short (R258): nothing, a sequencer's access to it, or a change of its bank to RETAIN or OFF. -/
inductive PlanCut where
  | none | sequencer | power
  deriving DecidableEq, Repr

/-- The commands. -/
inductive Instr where
  /-- REGISTER_WRITE (R9). -/
  | registerWrite (r : Requester) (off : Nat) (v : Word)
  /-- ADD (R177). -/
  | add (iss : Issue) (d b : Fin 16)
  /-- SUB (R177). -/
  | sub (iss : Issue) (d b : Fin 16)
  /-- AND (R177). -/
  | and (iss : Issue) (d b : Fin 16)
  /-- OR (R177). -/
  | or (iss : Issue) (d b : Fin 16)
  /-- XOR (R177). -/
  | xor (iss : Issue) (d b : Fin 16)
  /-- CMP (R177). -/
  | cmp (iss : Issue) (d b : Fin 16)
  /-- MOV (R177). -/
  | mov (iss : Issue) (d b : Fin 16)
  /-- SHL (R179). -/
  | shl (iss : Issue) (d b : Fin 16)
  /-- SHR (R179). -/
  | shr (iss : Issue) (d b : Fin 16)
  /-- SAR (R179). -/
  | sar (iss : Issue) (d b : Fin 16)
  /-- ROR (R179). -/
  | ror (iss : Issue) (d b : Fin 16)
  /-- MUL (R177). -/
  | mul (iss : Issue) (d b : Fin 16)
  /-- MULHU (R177). -/
  | mulhu (iss : Issue) (d b : Fin 16)
  /-- MULHS (R177). -/
  | mulhs (iss : Issue) (d b : Fin 16)
  /-- DIVU (R180). -/
  | divu (iss : Issue) (d b : Fin 16)
  /-- DIVS (R180). -/
  | divs (iss : Issue) (d b : Fin 16)
  /-- REMU (R180). -/
  | remu (iss : Issue) (d b : Fin 16)
  /-- REMS (R180). -/
  | rems (iss : Issue) (d b : Fin 16)
  /-- ADDI (R181). -/
  | addi (iss : Issue) (d : Fin 16) (sz : Fin 4) (imm : Word)
  /-- SUBI (R181). -/
  | subi (iss : Issue) (d : Fin 16) (sz : Fin 4) (imm : Word)
  /-- ANDI (R181). -/
  | andi (iss : Issue) (d : Fin 16) (sz : Fin 4) (imm : Word)
  /-- ORI (R181). -/
  | ori (iss : Issue) (d : Fin 16) (sz : Fin 4) (imm : Word)
  /-- XORI (R181). -/
  | xori (iss : Issue) (d : Fin 16) (sz : Fin 4) (imm : Word)
  /-- CMPI (R181). -/
  | cmpi (iss : Issue) (d : Fin 16) (sz : Fin 4) (imm : Word)
  /-- MOVI (R181). -/
  | movi (iss : Issue) (d : Fin 16) (sz : Fin 4) (imm : Word)
  /-- SHLI (R181). -/
  | shli (iss : Issue) (d : Fin 16) (sz : Fin 4) (imm : Word)
  /-- SHRI (R181). -/
  | shri (iss : Issue) (d : Fin 16) (sz : Fin 4) (imm : Word)
  /-- SARI (R181). -/
  | sari (iss : Issue) (d : Fin 16) (sz : Fin 4) (imm : Word)
  /-- RORI (R181). -/
  | rori (iss : Issue) (d : Fin 16) (sz : Fin 4) (imm : Word)
  /-- MULI (R181). -/
  | muli (iss : Issue) (d : Fin 16) (sz : Fin 4) (imm : Word)
  /-- LD (R182). -/
  | ld (iss : Issue) (d : Fin 16) (sz : Fin 4) (m : MemOp)
  /-- ST (R183). -/
  | st (iss : Issue) (d : Fin 16) (sz : Fin 4) (m : MemOp)
  /-- BUFFERED_WRITE_PERFORM (R183). -/
  | bufferedWritePerform (h : Fin 4)
  /-- BCC (R185). -/
  | bcc (iss : Issue) (long : Bool) (disp : Word) (cond : Fin 16)
  /-- CALL (R185). -/
  | call (iss : Issue) (disp : Word)
  /-- JMP (R185). -/
  | jmp (iss : Issue) (b : Fin 16)
  /-- CALLR (R185). -/
  | callr (iss : Issue) (b : Fin 16)
  /-- RET (R185). -/
  | ret (iss : Issue)
  /-- RETI (R130). -/
  | reti (iss : Issue)
  /-- SC (R186). -/
  | sc (iss : Issue) (imm : Byte)
  /-- NOP (R185). -/
  | nop (site : NopSite)
  /-- MFS (R119). -/
  | mfs (iss : Issue) (d n : Fin 16)
  /-- MTS (R120). -/
  | mts (iss : Issue) (n b : Fin 16)
  /-- PSET (R187). -/
  | pset (iss : Issue) (k : Fin 8) (base : BitVec 12) (stride : Byte)
  /-- PADDI (R187). -/
  | paddi (iss : Issue) (k : Fin 8) (imm : BitVec 16)
  /-- PADD (R187). -/
  | padd (iss : Issue) (k : Fin 8) (b : Fin 16)
  /-- MFP (R187). -/
  | mfp (iss : Issue) (d : Fin 16) (k : Fin 8)
  /-- MTP (R187). -/
  | mtp (iss : Issue) (k : Fin 8) (b : Fin 16)
  /-- INTERRUPT_ENTRY (R128). -/
  | interruptEntry (h : Fin 4)
  /-- MICRO_TRAP (R135). -/
  | microTrap (h : Fin 4)
  /-- WATCHDOG_ENTRY (R128). -/
  | watchdogEntry (h : Fin 4)
  /-- TRACE_ENTRY (R133). -/
  | traceEntry (h : Fin 4)
  /-- ATOM_LIMIT (R139). -/
  | atomLimit (h : Fin 4)
  /-- AADD (R76). -/
  | aadd (iss : Issue) (a : P1)
  /-- AADDI (R76). -/
  | aaddi (iss : Issue) (a : P1)
  /-- ASUB (R76). -/
  | asub (iss : Issue) (a : P1)
  /-- ASUBI (R76). -/
  | asubi (iss : Issue) (a : P1)
  /-- AMUL (R79). -/
  | amul (iss : Issue) (a : P1)
  /-- ACMP (R81). -/
  | acmp (iss : Issue) (a : P1)
  /-- ACMPI (R81). -/
  | acmpi (iss : Issue) (a : P1)
  /-- ASEL (R82). -/
  | asel (iss : Issue) (a : P1)
  /-- ASET (R76). -/
  | aset (iss : Issue) (a : P1)
  /-- ALOG (R76). -/
  | alog (iss : Issue) (tt : Fin 16) (a : P1)
  /-- ABIT (R83). -/
  | abit (iss : Issue) (tt : Fin 16) (a : P1)
  /-- ASHF (R84). -/
  | ashf (iss : Issue) (dir : ShiftDir) (a : P1)
  /-- ACNT (R87). -/
  | acnt (iss : Issue) (a : P1)
  /-- ALOC (R87). -/
  | aloc (iss : Issue) (a : P1)
  /-- CHIMNEY_RESULT (R48). -/
  | chimneyResult (h : Fin 4)
  /-- LADD (R101). -/
  | ladd (iss : Issue) (half : Bool) (a : P2)
  /-- LSUB (R101). -/
  | lsub (iss : Issue) (half : Bool) (a : P2)
  /-- LMUL (R102). -/
  | lmul (iss : Issue) (half : Bool) (a : P2)
  /-- LMULF (R101). -/
  | lmulf (iss : Issue) (signed half : Bool) (a : P2)
  /-- LMIN (R101). -/
  | lmin (iss : Issue) (signed half : Bool) (a : P2)
  /-- LMAX (R101). -/
  | lmax (iss : Issue) (signed half : Bool) (a : P2)
  /-- LFADD (R103). -/
  | lfadd (iss : Issue) (a : P2)
  /-- LFSUB (R103). -/
  | lfsub (iss : Issue) (a : P2)
  /-- LFMUL (R103). -/
  | lfmul (iss : Issue) (a : P2)
  /-- LFMA (R103). -/
  | lfma (iss : Issue) (a : P2)
  /-- LFMIN (R114). -/
  | lfmin (iss : Issue) (a : P2)
  /-- LFMAX (R114). -/
  | lfmax (iss : Issue) (a : P2)
  /-- LFCMP (R113). -/
  | lfcmp (iss : Issue) (cc : Fin 8) (a : P2)
  /-- LFRCP (R111). -/
  | lfrcp (iss : Issue) (a : P2)
  /-- LFCVT_FI (R112). -/
  | lfcvtFi (iss : Issue) (a : P2)
  /-- LFCVT_IF (R112). -/
  | lfcvtIf (iss : Issue) (a : P2)
  /-- LANE_STORE_STAGE (R95). -/
  | laneStoreStage (h : Fin 4)
  /-- FADD (R192). -/
  | fadd (iss : Issue) (d a b : Fin 16)
  /-- FSUB (R192). -/
  | fsub (iss : Issue) (d a b : Fin 16)
  /-- FMUL (R192). -/
  | fmul (iss : Issue) (d a b : Fin 16)
  /-- FMA (R192). -/
  | fma (iss : Issue) (d a b c : Fin 16)
  /-- FMIN (R192). -/
  | fmin (iss : Issue) (d a b : Fin 16)
  /-- FMAX (R192). -/
  | fmax (iss : Issue) (d a b : Fin 16)
  /-- FRCP (R111). -/
  | frcp (iss : Issue) (d a : Fin 16)
  /-- FCVT_FI (R112). -/
  | fcvtFi (iss : Issue) (d a : Fin 16)
  /-- FCVT_IF (R112). -/
  | fcvtIf (iss : Issue) (d a : Fin 16)
  /-- FMOV (R194). -/
  | fmov (iss : Issue) (d a : Fin 16)
  /-- FNEG (R194). -/
  | fneg (iss : Issue) (d a : Fin 16)
  /-- FABS (R194). -/
  | fabs (iss : Issue) (d a : Fin 16)
  /-- FMVGF (R194). -/
  | fmvgf (iss : Issue) (d a : Fin 16)
  /-- FMVFG (R194). -/
  | fmvfg (iss : Issue) (d a : Fin 16)
  /-- FCMP (R192). -/
  | fcmp (iss : Issue) (cc : Fin 8) (d a b : Fin 16)
  /-- FLD (R195). -/
  | fld (iss : Issue) (d : Fin 16) (sz : Fin 4) (m : MemOp)
  /-- FST (R195). -/
  | fst (iss : Issue) (d : Fin 16) (sz : Fin 4) (m : MemOp)
  /-- WAITEV (R200). -/
  | waitev (iss : Issue) (d a b : Fin 16)
  /-- WAITEV_HIT (R200). -/
  | waitevHit (h : Fin 4)
  /-- WAITEV_TIMEOUT (R200). -/
  | waitevTimeout (h : Fin 4)
  /-- SETEV (R202). -/
  | setev (iss : Issue) (a : Fin 16)
  /-- EMITEV (R203). -/
  | emitev (iss : Issue) (a b : Fin 16)
  /-- LARM (R204). -/
  | larm (iss : Issue) (a b c : Fin 16)
  /-- LSTOP (R205). -/
  | lstop (iss : Issue) (a : Fin 16)
  /-- TICK (R206). -/
  | tick (iss : Issue) (d a : Fin 16)
  /-- WGIVE (R207). -/
  | wgive (iss : Issue) (a b : Fin 16)
  /-- MBR (R208). -/
  | mbr (iss : Issue)
  /-- MBW (R208). -/
  | mbw (iss : Issue)
  /-- MBF (R208). -/
  | mbf (iss : Issue)
  /-- MBA (R208). -/
  | mba (iss : Issue)
  /-- SYS_SEQ_EVL (R198). -/
  | sysSeqEvl (r : Requester) (h : Fin 4) (v : Word)
  /-- SYS_SEQ_EVC (R199). -/
  | sysSeqEvc (r : Requester) (h : Fin 4) (v : Word)
  /-- ATOMCLR (R144). -/
  | atomclr (r : Requester) (h : Fin 4) (v : Word)
  /-- ARRAY_WOWN_WRITE (R26). -/
  | arrayWownWrite (r : Requester) (v : Word)
  /-- ARRAY_BOUND_WRITE (R53). -/
  | arrayBoundWrite (r : Requester) (v : Word)
  /-- ARRAY_TOPO_WRITE (R53). -/
  | arrayTopoWrite (r : Requester) (v : Word)
  /-- ARRAY_WRITE_TAKES_EFFECT (R55). -/
  | arrayWriteTakesEffect (h : Fin 4)
  /-- PERR_VALID_CLEAR (R51). -/
  | perrValidClear (r : Requester) (w : Fin 8) (v : Word)
  /-- HPERR_CLEAR (R51). -/
  | hperrClear (r : Requester) (v : Word)
  /-- CLRCNT (R62). -/
  | clrcnt (r : Requester) (v : Word)
  /-- COLCNT_CLR (R64). -/
  | colcntClr (r : Requester) (w : Fin 8) (v : Word)
  /-- WING_CLEAR (R31). -/
  | wingClear (w : Fin 8)
  /-- MC_LOAD_GO (R217). -/
  | mcLoadGo (r : Requester) (v : Word)
  /-- MC_LOAD_END (R217). -/
  | mcLoadEnd
  /-- ILV_CHANGE (R234). -/
  | ilvChange
  /-- BANK_POWER_REQUEST (R240). -/
  | bankPowerRequest (r : Requester) (half : Fin 2) (v : Word)
  /-- BANK_POWER_DOWN (R240). -/
  | bankPowerDown (b : Fin 32)
  /-- BANK_WAKE_END (R241). -/
  | bankWakeEnd (b : Fin 32)
  /-- STARVATION (R238). -/
  | starvation (cls : Fin 6) (b : Fin 32)
  /-- CELLAR_ECC_CLR (R263). -/
  | cellarEccClr (r : Requester) (v : Word)
  /-- CLRHIGH (R264). -/
  | clrhigh (r : Requester) (v : Word)
  /-- DMA_CLAIM (R249). -/
  | dmaClaim (r : Requester) (c : Fin 48) (v : Word)
  /-- DMA_START (R253). -/
  | dmaStart (r : Requester) (c : Fin 48) (v : Word)
  /-- DMA_ABORT (R253). -/
  | dmaAbort (r : Requester) (c : Fin 48) (v : Word)
  /-- DMA_DESCRIPTOR_COMPLETE (R252). -/
  | dmaDescriptorComplete (c : Fin 48) (lost : List (BitVec 16))
  /-- DMA_TIMEOUT (R254). -/
  | dmaTimeout (c : Fin 48)
  /-- PLANISHER_WINDOW (R257). -/
  | planisherWindow (cut : PlanCut) (fail : Option (Nat × Nat))
  /-- TRAINGO (R270). -/
  | traingo (r : Requester) (g : Fin 8) (v : Word)
  /-- TRAINING_END (R270): for each physical lane the sampling phases of the bit stage at which its 256 words had no error and,
  for each count of slips of the word boundary from none on, the word then seen 16 times in succession, if there is one. -/
  | trainingEnd (g : Fin 8) (lock : Bool) (clean : Vector (BitVec 64) 8) (seen : Vector (List (Option (BitVec 16))) 8)
  /-- LOSS_OF_LOCK (R272). -/
  | lossOfLock (g : Fin 8) (words : List LaneWords)
  /-- SOL_PREAMBLE (R277): word times, and the one that completes the preamble. -/
  | solPreamble (g : Fin 8) (words : List LaneWords) (last : LaneWords)
  /-- EOL_PREAMBLE (R274). -/
  | eolPreamble (g : Fin 8) (words : List LaneWords)
  /-- LINE_START_MARK (R276). -/
  | lineStartMark (r : Requester) (w : Fin 8) (v : Word)
  /-- LINE_NEXT_WRITE (R278). -/
  | lineNextWrite (r : Requester) (w : Fin 8) (v : Word)
  /-- HAND_OVER (R280). -/
  | handOver (w : Fin 8) (collide : BitVec 16)
  /-- LINE_STATUS_WRITE (R286). -/
  | lineStatusWrite (w : Fin 8)
  /-- W_STAT_CLR (R299). -/
  | wStatClr (r : Requester) (w : Fin 8) (v : Word)
  /-- INLET_CLAIM (R295). -/
  | inletClaim (r : Requester) (w : Fin 8) (v : Word)
  /-- OUTLET_CLAIM (R295). -/
  | outletClaim (r : Requester) (w : Fin 8) (v : Word)
  /-- OUTLET_START (R288). -/
  | outletStart (r : Requester) (v : Word)
  /-- OUTLET_ABORT (R294). -/
  | outletAbort (r : Requester) (v : Word)
  /-- OUTLET_DONE (R294). -/
  | outletDone (w : Fin 8)
  /-- RING_RPTR_WRITE (R291). -/
  | ringRptrWrite (r : Requester) (i : Fin 8) (v : Word)
  /-- RING_STAT_CLR (R300). -/
  | ringStatClr (r : Requester) (i : Fin 8) (v : Word)
  /-- HEAD_PRESENCE_CHANGE (R529): what stands behind the synchroniser of HEADg_PRESENT_N. -/
  | headPresenceChange (g : Fin 8) (present : HeldLevel)
  /-- BR (R315). -/
  | br (n : Fin 512) (pads : BitVec 384)
  /-- BRR (R315). -/
  | brr (n : Fin 512)
  /-- WAIT (R320). -/
  | wait (n : Fin 512) (pads : BitVec 384)
  /-- WAIT_TIMEOUT (R320). -/
  | waitTimeout (n : Fin 512) (pads : BitVec 384)
  /-- SHO (R315). -/
  | sho (n : Fin 512)
  /-- SHI (R315). -/
  | shi (n : Fin 512) (pads : BitVec 384)
  /-- SHX (R315). -/
  | shx (n : Fin 512) (pads : BitVec 384)
  /-- PULL (R315). -/
  | pull (n : Fin 512)
  /-- PUSH (R315). -/
  | push (n : Fin 512)
  /-- ALU (R315). -/
  | alu (n : Fin 512) (pads : BitVec 384)
  /-- LDI (R315). -/
  | ldi (n : Fin 512)
  /-- SIG (R315). -/
  | sig (n : Fin 512)
  /-- GATE (R315). -/
  | gate (n : Fin 512)
  /-- HALT (R315). -/
  | halt (n : Fin 512)
  /-- PORCH_CHANNEL_CLAIM (R329). -/
  | porchChannelClaim (r : Requester) (n : Fin 512) (v : Word)
  /-- PORCH_ENGINE_CLAIM (R329). -/
  | porchEngineClaim (r : Requester) (e : Fin 64) (v : Word)
  /-- PORCH_ENABLE (R307). -/
  | porchEnable (r : Requester) (n : Fin 512) (v : Word)
  /-- PORCH_DISABLE (R325). -/
  | porchDisable (r : Requester) (n : Fin 512) (v : Word)
  /-- RESTART (R325). -/
  | restart (r : Requester) (n : Fin 512) (v : Word)
  /-- PORCH_SYNC (R326). -/
  | porchSync (r : Requester) (v : Word)
  /-- PORCH_TXF (R330). -/
  | porchTxf (r : Requester) (n : Fin 512) (v : Word)
  /-- PORCH_RXF (R330). -/
  | porchRxf (r : Requester) (n : Fin 512)
  /-- PORCH_INJECT (R323). -/
  | porchInject (r : Requester) (n : Fin 512) (v : Word)
  /-- INJECTION_EXECUTE (R323). -/
  | injectionExecute (n : Fin 512) (pads : BitVec 384)
  /-- PORCH_EVT (R336). -/
  | porchEvt (r : Requester) (n : Fin 512) (v : Word)
  /-- FLUSH (R336). -/
  | flush (r : Requester) (n : Fin 512) (v : Word)
  /-- CH_EXEC_PC_WRITE (R335). -/
  | chExecPcWrite (r : Requester) (n : Fin 512) (v : Word)
  /-- ANNEX_PORT_CLAIM (R349). -/
  | annexPortClaim (r : Requester) (v : Word)
  /-- OPEN (R351). -/
  | annexOpen
  /-- FRAME_CLEAR_END (R351). -/
  | frameClearEnd
  /-- WRITE (R352). -/
  | annexWrite
  /-- READ (R351): the FCLK edges between the reading of one word and of the next (R352). -/
  | annexRead (edges : Nat)
  /-- COMMIT (R355). -/
  | commit
  /-- ABORT (R351). -/
  | annexAbort
  /-- CAPTURE (R358): the FCLK edges before the one at which it copies. -/
  | annexCapture (edges : Nat)
  /-- ANNEX_NOP (R351). -/
  | annexNop
  /-- CFG_RDATA_READ (R351). -/
  | cfgRdataRead (r : Requester)
  /-- RESYNC (R363). -/
  | resync (r : Requester) (v : Word)
  /-- ANNEX_IMAGE_LOAD (R360). -/
  | annexImageLoad (r : Requester) (v : Word)
  /-- ANNEX_IMAGE_LOAD_END (R360). -/
  | annexImageLoadEnd
  /-- ANNEX_WINDOW_REQUEST (R346). -/
  | annexWindowRequest
  /-- ANNEX_WINDOW_ANSWER (R347). -/
  | annexWindowAnswer (g : Fin 32) (data : BitVec 64) (late irq : Bool)
  /-- ANNEX_WINDOW_TIMEOUT (R347). -/
  | annexWindowTimeout (g : Fin 32)
  /-- WSTAT_CLR (R364). -/
  | wstatClr (r : Requester) (v : Word)
  /-- STEP (R370). -/
  | step (r : Requester) (v : Word)
  /-- SYNC_TIMEOUT (R371). -/
  | syncTimeout
  /-- COUNT_LOW_READ (R368). -/
  | countLowRead (r : Requester) (pair : Fin 11)
  /-- ARM (R374). -/
  | arm (r : Requester) (i : Fin 256) (v : Word)
  /-- DISARM (R398). -/
  | disarm (r : Requester) (i : Fin 256) (v : Word)
  /-- LAUNCH_FIRE (R373). -/
  | launchFire (i : Fin 256)
  /-- PULSE_END (R379). -/
  | pulseEnd (k : Fin 16)
  /-- MANTEL_CLAIM_WRITE (R381). -/
  | mantelClaimWrite (r : Requester) (res : Fin 284) (v : Word)
  /-- GSTOP (R384). -/
  | gstop (r : Requester) (v : Word)
  /-- ENCODER_EDGE (R387). -/
  | encoderEdge (e : Fin 4) (a b : List Bool)
  /-- ENCODER_Z (R388). -/
  | encoderZ (e : Fin 4) (samples : List Bool)
  /-- SMOOTHED_LINE_EVENT (R390): whether a correction with a fraction is rounded up. -/
  | smoothedLineEvent (e : Fin 4) (up : Bool)
  /-- LINE_CLOCK_STALL (R390). -/
  | lineClockStall (e : Fin 4)
  /-- PORT_ENABLE (R401). -/
  | portEnable (r : Requester) (k : Fin 6) (v : Word)
  /-- TRAINING_RETRY (R402). -/
  | trainingRetry (k : Fin 6)
  /-- PORT_DOWN (R403). -/
  | portDown (k : Fin 6)
  /-- RETRAIN (R403). -/
  | retrain (r : Requester) (k : Fin 6) (v : Word)
  /-- HELLO (R406). -/
  | hello (f : FrameIn) (peer : BitVec 3) (id : BitVec 10) (idv join : Bool)
  /-- DLYREQ (R421). -/
  | dlyreq (f : FrameIn)
  /-- DLYRSP (R421): the turnaround, and the fraction of a tick at which its SOF arrives. -/
  | dlyrsp (f : FrameIn) (turn : Word) (own : Fin 16)
  /-- DLYGO (R421). -/
  | dlygo (r : Requester) (k : Fin 6) (v : Word)
  /-- SYNC_FRAME (R422): the count it carries, and the fraction of a tick at which its SOF arrives. -/
  | syncFrame (f : FrameIn) (count : BitVec 64) (frac : BitVec 4) (own : Fin 16)
  /-- SYNC_SEND (R422). -/
  | syncSend
  /-- NAK (R409): an IDLE block, bytes 1–7, that carries one; one in a frame comes with the frame. -/
  | nak (k : Fin 6) (b : BitVec 56)
  /-- REPLAY_TIMEOUT (R409). -/
  | replayTimeout (k : Fin 6)
  /-- BULK_READ (R415); `len` is LEN − 1. -/
  | bulkRead (f : FrameIn) (tag : BitVec 12) (len : Fin 256) (addr : Word)
  /-- BULK_WRITE (R415): its data as a little-endian number, and the Landing words that a sequencer writes in the same ACLK
  (R247). -/
  | bulkWrite (f : FrameIn) (tag : BitVec 12) (len : Fin 256) (addr : Word) (data : Nat) (lost : List (BitVec 16))
  /-- RDRSP (R416). -/
  | rdrsp (f : FrameIn) (tag : BitVec 12) (status : BitVec 4) (data : Nat)
  /-- WRRSP (R416). -/
  | wrrsp (f : FrameIn) (tag : BitVec 12) (status : BitVec 4)
  /-- ATTEST (R518). -/
  | attest (f : FrameIn) (tag : BitVec 12) (req : BitVec 512)
  /-- ATTRSP (R519): a part of a quote and its offset. -/
  | attrsp (f : FrameIn) (tag : BitVec 12) (status : BitVec 4) (off : Word) (data : Nat)
  /-- BULK_TIMEOUT (R416). -/
  | bulkTimeout (tag : BitVec 12)
  /-- NOT_READY_REISSUE (R416). -/
  | notReadyReissue (tag : BitVec 12)
  /-- MANAGEMENT_ACCESS (R417). -/
  | managementAccess (r : Requester) (v : Word)
  /-- USER_EVENT (R419). -/
  | userEvent (ev : EventIn)
  /-- DISTRESS (R419). -/
  | distress (ev : EventIn)
  /-- SCHIM_UP (R424). -/
  | schimUp (ev : EventIn)
  /-- SCHIM_DOWN (R424). -/
  | schimDown (ev : EventIn)
  /-- SCHIM_IN (R424). -/
  | schimIn (r : Requester) (v : Word)
  /-- SCHIM_TIMEOUT (R425). -/
  | schimTimeout
  /-- EVENT_QUEUE_POP (R434). -/
  | eventQueuePop (r : Requester)
  /-- EVSTAT_CLR (R434). -/
  | evstatClr (r : Requester) (v : Word)
  /-- SEAM_ENGINE_CLAIM (R426). -/
  | seamEngineClaim (r : Requester) (v : Word)
  /-- REMOTE_WINDOW_CLAIM (R414). -/
  | remoteWindowClaim (r : Requester) (m : Fin 16) (v : Word)
  /-- SEAM_EXCHANGE (R426). -/
  | seamExchange (r : Requester) (v : Word)
  /-- SEAM_FRAME (R427): the first plane, the side, the planes' halo bits, and the planes whose write meets a micro-operation
  (R34). -/
  | seamFrame (f : FrameIn) (plane : BitVec 12) (east : Bool) (planes : List (BitVec 64)) (collide : BitVec 32)
  /-- P_ERR_CLR (R436). -/
  | pErrClr (r : Requester) (k : Fin 6) (v : Word)
  /-- PCIE_CONFIG_REQUEST (R438). -/
  | pcieConfigRequest (q : CfgReq) (early : Bool)
  /-- HOT_RESET (R438). -/
  | hotReset
  /-- PCIE_INBOUND_READ (R441). -/
  | pcieInboundRead (bar : Fin 3) (off size : Nat)
  /-- PCIE_INBOUND_WRITE (R441). -/
  | pcieInboundWrite (bar : Fin 3) (off : Nat) (data : List Byte) (lost : List (BitVec 16))
  /-- PCIE_COMPLETION (R443). -/
  | pcieCompletion (tag : BitVec 12) (st : CplStatus) (data : List Byte)
  /-- PCIE_OUTBOUND_TIMEOUT (R443). -/
  | pcieOutboundTimeout (tag : BitVec 12)
  /-- HDB_SET (R449). -/
  | hdbSet (r : Requester) (v : Word)
  /-- TAKE (R449). -/
  | take (r : Requester) (v : Word)
  /-- PCIE_ATTCTL_GO (R447). -/
  | pcieAttctlGo (r : Requester) (v : Word)
  /-- CLAIM (R454). -/
  | claim (r : Requester) (h : Fin 4)
  /-- COMPLETE (R455). -/
  | complete (r : Requester) (h : Fin 4) (v : Word)
  /-- LODGE_CMD (R460). -/
  | lodgeCmd (r : Requester) (v : Word)
  /-- POWER_FAILING (R460): HOLDUP_N has been low for HFILT LCLK. -/
  | powerFailing
  /-- HEARTH_PLL_LOST (R479). -/
  | hearthPllLost
  /-- HEARTH_PLL_RELOCK (R479). -/
  | hearthPllRelock
  /-- THERMAL_TRIP (R470). -/
  | thermalTrip (t : BitVec 10)
  /-- THERMAL_WARN (R470). -/
  | thermalWarn (t : BitVec 10)
  /-- FAULT_RECORD (R464). -/
  | faultRecord
  /-- RELEASE (R463). -/
  | release (r : Requester) (v : Word)
  /-- FREL (R463). -/
  | frel (r : Requester) (v : Word)
  /-- WATCHDOG_KICK (R468). -/
  | watchdogKick (r : Requester) (h : Fin 4) (v : Word)
  /-- WATCHDOG_WARN (R468). -/
  | watchdogWarn (h : Fin 4)
  /-- WATCHDOG_EXPIRE (R468). -/
  | watchdogExpire (h : Fin 4)
  /-- SSC_APPLY (R482). -/
  | sscApply
  /-- IDLE_REQUEST (R484). -/
  | idleRequest (r : Requester) (v : Word)
  /-- IDLE_ENTER (R484). -/
  | idleEnter
  /-- DEEP_ENTER (R485). -/
  | deepEnter (r : Requester) (v : Word)
  /-- DEEP_WAKE (R486). -/
  | deepWake
  /-- WING_POWER_WRITE (R488). -/
  | wingPowerWrite (r : Requester) (v : Word)
  /-- COLD_POWER_UP (R490). -/
  | coldPowerUp (sel : BitVec 3)
  /-- WARM_RESET (R492). -/
  | warmReset (pin : Bool)
  /-- RESET_RELEASE (R492). -/
  | resetRelease (sel : BitVec 3)
  /-- BOOT_PUSH (R500). -/
  | bootPush (r : Requester) (v : Word)
  /-- SYS_SEQREL (R509). -/
  | sysSeqrel (r : Requester) (v : Word)
  /-- ADVANCE (R514). -/
  | advance (r : Requester) (v : Word)
  /-- REVOKE (R514). -/
  | revoke (r : Requester) (v : Word)
  /-- PROGRAM (R514). -/
  | program (r : Requester) (v : Word)
  /-- OTP_DONE (R514). -/
  | otpDone (ok : Bool)
  /-- EXTEND (R515). -/
  | extend (r : Requester) (v : Word)
  /-- ATT_CTL_GO (R518). -/
  | attCtlGo (r : Requester) (v : Word)
  /-- QUOTE_DONE (R517). -/
  | quoteDone
  /-- ATTEST_TIMEOUT (R519). -/
  | attestTimeout (tag : BitVec 12)
  /-- BSPI_TRANSACTION (R521). -/
  | bspiTransaction (r : Requester) (v : Word)
  /-- BSPI_DONE (R521). -/
  | bspiDone (data : List Byte)
  /-- PIN_CLAIM (R548). -/
  | pinClaim (r : Requester) (i : Fin 384) (v : Word)
  /-- PIN_CTL_WRITE (R550). -/
  | pinCtlWrite (r : Requester) (i : Fin 384) (v : Word)
  /-- BANK_SUPPLY_CHANGE (R552). -/
  | bankSupplyChange (b : Fin 12) (level : Fin 4)
  /-- POR_N_LOW (R491). -/
  | porNLow
  /-- HOLDUP_N_HIGH (R474). -/
  | holdupNHigh
  /-- IDLE_BLOCK (R404, R410): bytes 1–7, and what lane `lane` has now seen of training (R402). -/
  | idleBlock (k : Fin 6) (lane : Fin 2) (run : LaneRun) (b : BitVec 56)
  /-- SEAM_EXCHANGE_DONE (R426). -/
  | seamExchangeDone
  /-- EXTENSION_END (R510). -/
  | extensionEnd
  /-- PCIE_LINK_STATE_CHANGE (R449): the rate, Gen1 to Gen4 (none: the link is down), and the width, ×1, ×2 or ×4, whether the
  data link is up, and whether the link is in L1. -/
  | pcieLinkStateChange (rate : Option (Fin 4)) (width : Fin 3) (up l1 : Bool)
  /-- DWELL_OPPORTUNITY (R311). -/
  | dwellOpportunity (n : Fin 512)
  deriving DecidableEq, Repr

end Sys2Proof
end

