-- ==== Sys2Proof/Decode.lean ====
section
/-! DEFINITION. The commands that words spell: no row of spec/opcode_table.json gives bits, so there is none (log entry 5).
Behind that, the decoder of a hall sequencer: which command the bytes of an instruction spell (06_instruction_encoding.md
R145 to R172). -/

namespace Sys2Proof

/-- The command that a word of the opcode table spells: no row gives bits. -/
def decodeTableWord (_nbits _w : Nat) : Option Instr := none

namespace Decode

open Sys2Proof.Machine

/-! ### Parts of an instruction (R145 to R156) -/

/-- The next `n` bytes as a little-endian number, and the bytes behind them; none when they are not there. -/
def take (n : Nat) (bs : List Byte) : Option (Nat × List Byte) :=
  if n ≤ bs.length then some (numLE (bs.take n), bs.drop n) else none

/-- A field of a byte. -/
def fld (b : Byte) (lo width : Nat) : Nat := b.toNat / 2 ^ lo % 2 ^ width

/-- A register number in a field. -/
def reg (v lo : Nat) : Fin 16 := Fin.ofNat 16 (v / 2 ^ lo)

/-- A prefix byte other than WM (R146). -/
def prefixOf (b : Byte) : Prefix :=
  match b.toNat with
  | 0xB1 => .rep
  | 0xB2 => .repa
  | 0xB3 => .narrow
  | 0xB4 => .atom
  | _ => .reserved b

/-- The prefixes in front of an opcode, and the bytes behind them (R146). -/
def splitPrefixes : List Byte → List Prefix × List Byte
  | [] => ([], [])
  | [b] => if b = 0xB8 then ([.wm 0], []) else if fld b 4 4 = 0xB then ([prefixOf b], []) else ([], [b])
  | b :: m :: rest =>
    if b = 0xB8 then
      let t := splitPrefixes rest
      (.wm m :: t.1, t.2)
    else if fld b 4 4 = 0xB then
      let t := splitPrefixes (m :: rest)
      (prefixOf b :: t.1, t.2)
    else ([], b :: m :: rest)

/-- The issue with a reserved bit or value found in it (check 7 of R155). -/
def flagged (iss : Issue) (bad : Bool) : Issue := { iss with resv := iss.resv || bad }

/-- An undefined opcode, on page 0 or behind an escape (check 5 of R155). -/
def undefined (iss : Issue) (escaped : Bool) : Instr := .nop (.seq { iss with opc := .undef escaped })

/-- Format R (R149, R158): Gb in REG; MODE is 0b00, and SZ too unless the row is a group, where it is handed on. -/
def formR (iss : Issue) (group : Bool) (bs : List Byte) (k : Issue → Fin 16 → Nat → Instr) : Option Instr :=
  bs.head?.map fun f =>
    k (flagged iss (fld f 6 2 ≠ 0 || (!group && fld f 0 2 ≠ 0))) (reg f.toNat 2) (fld f 0 2)

/-- Format RS (R161): a register in REG of the form byte, and the immediate byte. -/
def formRS (iss : Issue) (bs : List Byte) (k : Issue → Fin 16 → Byte → Instr) : Option Instr :=
  match bs with
  | f :: i :: _ => some (k (flagged iss (fld f 6 2 ≠ 0 || fld f 0 2 ≠ 0)) (reg f.toNat 2) i)
  | _ => none

/-- A pointer number in REG of the form byte (R161: PSET, PADDI), and an immediate of `n` bytes. -/
def formPtr (iss : Issue) (n : Nat) (bs : List Byte) (k : Issue → Fin 8 → Nat → Instr) : Option Instr :=
  match bs with
  | [] => none
  | f :: rest => (take n rest).map fun t =>
      k (flagged iss (fld f 6 2 ≠ 0 || fld f 0 2 ≠ 0 || fld f 5 1 ≠ 0)) (Fin.ofNat 8 (fld f 2 3)) t.1

/-- Bytes that a two-bit size calls for: a displacement by DSIZE (R151), an immediate by SZ (R159). -/
def dispSize (n : Nat) : Nat := match n with | 0 => 0 | 1 => 1 | 2 => 2 | _ => 4
def immSize (n : Nat) : Nat := match n with | 0 => 1 | 1 => 2 | 2 => 4 | _ => 0

/-- A memory operand with its SZ, and whether a reserved bit of the index byte is set (R149 to R152). -/
def memOperand (bs : List Byte) : Option (MemOp × Fin 4 × Bool) :=
  match bs with
  | [] => none
  | f :: rest =>
    let b := reg f.toNat 2
    let sz := Fin.ofNat 4 f.toNat
    match fld f 6 2 with
    | 0 => some (.reserved, sz, false)
    | 1 => some (.postInc b, sz, false)
    | 2 => some (.preDec b, sz, false)
    | _ =>
      match rest with
      | [] => none
      | x :: rest => (take (dispSize (fld x 2 2)) rest).map fun t =>
          (.indexed b (reg x.toNat 4) (Fin.ofNat 4 (fld x 2 2)) (BitVec.ofNat 32 t.1), sz, fld x 0 2 ≠ 0)

/-- Formats M and P3M (R156). -/
def formM (iss : Issue) (bs : List Byte) (k : Issue → Fin 4 → MemOp → Instr) : Option Instr :=
  (memOperand bs).map fun (m, sz, bad) => k (flagged iss bad) sz m

/-- A 16-bit operand field with subfields D, A, B, C (R169, R171, R172); `used` tells which of them the instruction has,
and the others are reserved. -/
def formField (iss : Issue) (used : Nat) (bs : List Byte) (k : Issue → Fin 16 → Fin 16 → Fin 16 → Fin 16 → Instr) :
    Option Instr :=
  (take 2 bs).map fun (v, _) =>
    let bad := (List.range 4).any fun i => used / 2 ^ i % 2 = 0 && v / 16 ^ i % 16 ≠ 0
    k (flagged iss bad) (reg v 0) (reg v 4) (reg v 8) (reg v 12)

/-! ### Page 0 (R157 to R161) -/

/-- The immediate group (R159): REG names the operation. -/
def immGroup (iss : Issue) (d : Fin 16) (bs : List Byte) : Option Instr :=
  match bs with
  | [] => none
  | f :: rest =>
    let sz := Fin.ofNat 4 f.toNat
    (take (immSize sz.val) rest).map fun (v, _) =>
      let iss := flagged iss (fld f 6 2 ≠ 0)
      let i := BitVec.ofNat 32 v
      match fld f 2 4 with
      | 0 => .addi iss d sz i
      | 1 => .subi iss d sz i
      | 2 => .andi iss d sz i
      | 3 => .ori iss d sz i
      | 4 => .xori iss d sz i
      | 5 => .cmpi iss d sz i
      | 6 => .movi iss d sz i
      | 7 => .shli iss d sz i
      | 8 => .shri iss d sz i
      | 9 => .sari iss d sz i
      | 10 => .rori iss d sz i
      | 11 => .muli iss d sz i
      | _ => .addi (flagged iss true) d sz i

/-- A branch: a displacement of `n` bytes and the condition byte (R154, R160). -/
def branch (iss : Issue) (n : Nat) (bs : List Byte) : Option Instr :=
  (take (n + 1) bs).map fun (v, _) =>
    let c := v / 256 ^ n
    .bcc (flagged iss (c / 16 ≠ 0)) (n = 4) (BitVec.ofNat 32 (v % 256 ^ n)) (Fin.ofNat 16 c)

/-- The rows of page 0 with a register in the opcode (R157, R158). -/
def page0Row (iss : Issue) (row : Nat) (d : Fin 16) (bs : List Byte) : Option Instr :=
  match row with
  | 0x0 => formR iss false bs fun i b _ => .add i d b
  | 0x1 => formR iss false bs fun i b _ => .sub i d b
  | 0x2 => formR iss false bs fun i b _ => .and i d b
  | 0x3 => formR iss false bs fun i b _ => .or i d b
  | 0x4 => formR iss false bs fun i b _ => .xor i d b
  | 0x5 => formR iss false bs fun i b _ => .cmp i d b
  | 0x6 => formR iss false bs fun i b _ => .mov i d b
  | 0x7 => formR iss true bs fun i b sz =>
      match sz with | 0 => .shl i d b | 1 => .shr i d b | 2 => .sar i d b | _ => .ror i d b
  | 0x8 => immGroup iss d bs
  | 0x9 => formM iss bs fun i sz m => .ld i d sz m
  | 0xA => formM iss bs fun i sz m => .st i d sz m
  | 0xC => formR iss true bs fun i b sz =>
      match sz with | 0 => .mul i d b | 1 => .mulhu i d b | 2 => .mulhs i d b | _ => .mul (flagged i true) d b
  | 0xD => formR iss true bs fun i b sz =>
      match sz with | 0 => .divu i d b | 1 => .divs i d b | 2 => .remu i d b | _ => .rems i d b
  | _ => some (undefined iss false)

/-- The opcodes of page 0 (R157). -/
def page0 (iss : Issue) (op : Byte) (bs : List Byte) : Option Instr :=
  match op.toNat with
  | 0xE4 => branch iss 1 bs
  | 0xE5 => branch iss 4 bs
  | 0xE6 => (take 4 bs).map fun t => .call iss (BitVec.ofNat 32 t.1)
  | 0xE7 => formR iss false bs fun i b _ => .jmp i b
  | 0xE8 => formR iss false bs fun i b _ => .callr i b
  | 0xE9 => some (.ret iss)
  | 0xEA => some (.reti iss)
  | 0xEB => (take 1 bs).map fun t => .sc iss (BitVec.ofNat 8 t.1)
  | 0xEC => some (.nop (.seq iss))
  | 0xED => formRS iss bs fun i d v => .mfs (flagged i (fld v 4 4 ≠ 0)) d (reg v.toNat 0)
  | 0xEE => formRS iss bs fun i b v => .mts (flagged i (fld v 4 4 ≠ 0)) (reg v.toNat 0) b
  | 0xF0 => formPtr iss 4 bs fun i k v =>
      .pset (flagged i (v / 2 ^ 12 % 16 ≠ 0 || v / 2 ^ 24 ≠ 0)) k (BitVec.ofNat 12 v) (BitVec.ofNat 8 (v / 2 ^ 16))
  | 0xF1 => formPtr iss 2 bs fun i k v => .paddi i k (BitVec.ofNat 16 v)
  | 0xF2 => formRS iss bs fun i b v => .padd (flagged i (fld v 3 5 ≠ 0)) (Fin.ofNat 8 (fld v 0 3)) b
  | 0xF3 => formRS iss bs fun i d v => .mfp (flagged i (fld v 3 5 ≠ 0)) d (Fin.ofNat 8 (fld v 0 3))
  | 0xF4 => formRS iss bs fun i b v => .mtp (flagged i (fld v 3 5 ≠ 0)) (Fin.ofNat 8 (fld v 0 3)) b
  | _ => if 0xE0 ≤ op.toNat then some (undefined iss false) else page0Row iss (op.toNat / 16) (reg op.toNat 0) bs

/-! ### Pages 1 and 2 (R162 to R169) -/

/-- The stepping mode of a form byte, and whether one of its fields that must be 0 is not (R163). -/
def stepMode (f : Byte) : StepMode × Bool :=
  let zero := f.toNat % 64 ≠ 0
  match fld f 6 2 with
  | 0 => (.register, zero)
  | 1 => (.postInc, zero)
  | 2 => (.preDec, zero)
  | _ => (.indexed (reg f.toNat 2) (Fin.ofNat 4 f.toNat), false)

/-- The form byte and an operand field of `n` bytes. -/
def stepForm (iss : Issue) (n : Nat) (bs : List Byte) (k : Issue → StepMode → Nat → Instr) : Option Instr :=
  match bs with
  | [] => none
  | f :: rest => (take n rest).map fun t => k (flagged iss (stepMode f).2) (stepMode f).1 t.1

/-- Page 1 (R162). -/
def page1Instr (op : Nat) : Option (Issue → P1 → Instr) :=
  match op with
  | 0x00 => some .aadd
  | 0x01 => some .aaddi
  | 0x02 => some .asub
  | 0x03 => some .asubi
  | 0x04 => some .amul
  | 0x05 => some .acmp
  | 0x06 => some .acmpi
  | 0x07 => some .asel
  | 0x08 => some .aset
  | 0x09 => some .acnt
  | 0x0A => some .aloc
  | 0x10 => some fun i a => .ashf i .e a
  | 0x11 => some fun i a => .ashf i .w a
  | 0x12 => some fun i a => .ashf i .s a
  | 0x13 => some fun i a => .ashf i .n a
  | _ =>
    if op / 16 = 2 then some fun i a => .abit i (Fin.ofNat 16 op) a
    else if op / 16 = 3 then some fun i a => .alog i (Fin.ofNat 16 op) a
    else none

/-- Page 2 (R168). -/
def page2Instr (op : Nat) : Option (Issue → P2 → Instr) :=
  if op < 0x20 then
    let half : Bool := op / 16 = 1
    match op % 16 with
    | 0 => some fun i a => .ladd i half a
    | 1 => some fun i a => .lsub i half a
    | 2 => some fun i a => .lmul i half a
    | 3 => some fun i a => .lmulf i false half a
    | 4 => some fun i a => .lmulf i true half a
    | 5 => some fun i a => .lmin i false half a
    | 6 => some fun i a => .lmin i true half a
    | 7 => some fun i a => .lmax i false half a
    | 8 => some fun i a => .lmax i true half a
    | _ => none
  else match op with
    | 0x20 => some .lfadd
    | 0x21 => some .lfsub
    | 0x22 => some .lfmul
    | 0x23 => some .lfma
    | 0x24 => some .lfmin
    | 0x25 => some .lfmax
    | 0x26 => some .lfrcp
    | 0x27 => some .lfcvtFi
    | 0x28 => some .lfcvtIf
    | _ => if op / 8 = 6 then some fun i a => .lfcmp i (Fin.ofNat 8 op) a else none

def page1 (iss : Issue) (op : Byte) (bs : List Byte) : Option Instr :=
  match page1Instr op.toNat with
  | some f => stepForm iss 4 bs fun i m v => f i { mode := m, word := BitVec.ofNat 32 v }
  | none => some (undefined iss true)

def page2 (iss : Issue) (op : Byte) (bs : List Byte) : Option Instr :=
  match page2Instr op.toNat with
  | some f => stepForm iss 2 bs fun i m v => f i { mode := m, fld := BitVec.ofNat 16 v }
  | none => some (undefined iss true)

/-! ### Pages 3 and 4 (R170 to R172) -/

/-- Page 3 (R170): `used` is 1 for D, 2 for A, 4 for B and 8 for C. -/
def page3 (iss : Issue) (op : Byte) (bs : List Byte) : Option Instr :=
  match op.toNat with
  | 0x00 => formField iss 7 bs fun i d a b _ => .fadd i d a b
  | 0x01 => formField iss 7 bs fun i d a b _ => .fsub i d a b
  | 0x02 => formField iss 7 bs fun i d a b _ => .fmul i d a b
  | 0x03 => formField iss 15 bs fun i d a b c => .fma i d a b c
  | 0x04 => formField iss 7 bs fun i d a b _ => .fmin i d a b
  | 0x05 => formField iss 7 bs fun i d a b _ => .fmax i d a b
  | 0x06 => formField iss 3 bs fun i d a _ _ => .frcp i d a
  | 0x07 => formField iss 3 bs fun i d a _ _ => .fcvtFi i d a
  | 0x08 => formField iss 3 bs fun i d a _ _ => .fcvtIf i d a
  | 0x09 => formField iss 3 bs fun i d a _ _ => .fmov i d a
  | 0x0A => formField iss 3 bs fun i d a _ _ => .fneg i d a
  | 0x0B => formField iss 3 bs fun i d a _ _ => .fabs i d a
  | 0x0C => formField iss 3 bs fun i d a _ _ => .fmvgf i d a
  | 0x0D => formField iss 3 bs fun i d a _ _ => .fmvfg i d a
  | n =>
    if n / 8 = 2 then formField iss 7 bs fun i d a b _ => .fcmp i (Fin.ofNat 8 n) d a b
    else if n / 16 = 8 then formM iss bs fun i sz m => .fld i (Fin.ofNat 16 n) sz m
    else if n / 16 = 9 then formM iss bs fun i sz m => .fst i (Fin.ofNat 16 n) sz m
    else some (undefined iss true)

/-- Page 4 (R172). -/
def page4 (iss : Issue) (op : Byte) (bs : List Byte) : Option Instr :=
  match op.toNat with
  | 0x00 => formField iss 7 bs fun i d a b _ => .waitev i d a b
  | 0x01 => formField iss 2 bs fun i _ a _ _ => .setev i a
  | 0x02 => formField iss 6 bs fun i _ a b _ => .emitev i a b
  | 0x03 => formField iss 14 bs fun i _ a b c => .larm i a b c
  | 0x04 => formField iss 2 bs fun i _ a _ _ => .lstop i a
  | 0x05 => formField iss 3 bs fun i d a _ _ => .tick i d a
  | 0x06 => formField iss 6 bs fun i _ a b _ => .wgive i a b
  | 0x08 => some (.mbr iss)
  | 0x09 => some (.mbw iss)
  | 0x0A => some (.mbf iss)
  | 0x0B => some (.mba iss)
  | _ => some (undefined iss true)

/-! ### The whole instruction (R148, R155) -/

/-- Opcode and what follows it; none when the bytes do not suffice. -/
def body (iss : Issue) (bs : List Byte) : Option Instr :=
  match bs with
  | [] => none
  | op :: rest =>
    if fld op 2 6 = 0x38 then
      match rest with
      | [] => none
      | op2 :: rest =>
        match fld op 0 2 with
        | 0 => page1 iss op2 rest
        | 1 => page2 iss op2 rest
        | 2 => page3 iss op2 rest
        | _ => page4 iss op2 rest
    else page0 iss op rest

/-- The instruction that sequencer h decodes from the 16 bytes at its pc: where a 17th would be needed, it is one that is too
long (R155). -/
def instr (h : Fin 4) (bs : List Byte) : Instr :=
  let t := splitPrefixes bs
  (body { h, prefixes := t.1 } t.2).getD (.nop (.seq { h, prefixes := t.1, opc := .over }))

end Decode

end Sys2Proof
end

