-- ==== Sys2Proof/Config.lean ====
section
/-! DEFINITION. What one part fixes and the spec does not publish, and the free values: constants without a body, so
that a statement about them holds for every value. -/

namespace Sys2Proof

/-- Free words, indexed by a counter of the state: results the spec calls not defined (log entry 2). -/
opaque Config.freeWord : Nat → Word

/-- Free planes: contents of array planes the spec calls not defined (R231; log entry 2). -/
opaque Config.freePlane : Nat → BitVec 8192

/-- The silicon revision, SYS_ID.REV and PCIE_ID.REV (R449, R569; log entry 6). -/
opaque Config.siliconRev : BitVec 8

/-- Opnas's assigned PCI Express Vendor ID, PCIE_ID.VID (R439, R449; log entry 6). -/
opaque Config.vendorId : BitVec 16

/-- The porch program by which the boot ROM reads head cards, and the fields that its set-up of channel 504 + h writes in CH_CTL
from SGRP upwards, in CH_PINS from INOFF upwards and in CH_EXEC (11_porch_engines.md, log entry 44). -/
opaque Config.cardProgram : Nat → BitVec 24
opaque Config.cardChannel : Nat → BitVec 18 × BitVec 10 × BitVec 16

/-- Bytes of the boot ROM (R126, log entry 8). -/
opaque Config.romByte : Nat → Byte

/-- Micro-PC of micro-operation `offset` of a routine (R229, log entry 11); the arguments are the contents of the control
store, a number naming the instruction, and the offset. -/
opaque Config.upc : BitVec 524288 → Nat → Nat → BitVec 12

/-- Routine identifier that the loaded microcode assigns to an instruction (R229, log entry 11). -/
opaque Config.routineId : BitVec 524288 → Nat → BitVec 16

/-- Microcode working state of a suspended routine, MCPRIV (R229, log entry 11). -/
opaque Config.mcPriv : BitVec 524288 → Nat → Nat → BitVec 128

/-- Micro-PC and working state after some micro-operations from a changed frame (R231, log entry 87); the arguments are the
contents of the control store, the frame's ROUTINE, UPC and MCPRIV, and how many micro-operations have been issued. -/
opaque Config.upcFrom : BitVec 524288 → BitVec 16 → BitVec 12 → BitVec 128 → Nat → BitVec 12
opaque Config.mcPrivFrom : BitVec 524288 → BitVec 16 → BitVec 12 → BitVec 128 → Nat → BitVec 128

/-- Stepping width of an operand slot that firmware has marked USED where the instruction has no such operand (R231, log entry
87): an instruction's code and the slot's place. -/
opaque Config.slotWidth : Nat → Nat → BitVec 7

/-- SHA3-512 of a string of bytes (log entry 12). -/
opaque Config.sha3 : List Byte → BitVec 512

/-- ML-DSA-87: does the signature verify over the digest under the public key (log entry 12). -/
opaque Config.mldsaVerify : List Byte → BitVec 512 → List Byte → Bool

/-- AES-256-GCM: does the tag fit key, nonce, additional data and ciphertext (log entry 12). -/
opaque Config.gcmTagOk : BitVec 256 → List Byte → List Byte → List Byte → List Byte → Bool

/-- The 65,536 bytes that AES-256-GCM decrypts from key, nonce, additional data and ciphertext, the first lowest: the words
of a control store (R214, log entry 12). -/
opaque Config.gcmPlain : BitVec 256 → List Byte → List Byte → List Byte → BitVec 524288

/-- ML-DSA-87 signature, 4,627 bytes: the hedged variant, so a fresh number is an argument beside the seed and the digest
(log entry 12). -/
opaque Config.mldsaSign : Nat → BitVec 256 → BitVec 512 → BitVec 37016

/-- The identity public key, 2,592 bytes, of a seed (log entry 12). -/
opaque Config.idPublicKey : BitVec 256 → BitVec 20736

/-- A request at a region's window interface (R346): the offset within the window, the byte enables, counted from the 8-aligned
address below it, and the data of a write. -/
structure FabricReq where
  offset : Nat
  be : BitVec 8
  data : Option Nat
  deriving DecidableEq, Repr, Inhabited

/-- What the logic of a LIVE Annex region sees at an FCLK edge (R338 to R346): its logic frames, its flip-flops, its twelve
pins, the column lines and global nets, the spans of its own row and of the four rows on either side, from the lowest, since a
span reaches at most 4 clusters (R342; none beyond the last row), the words that the ports of its two block RAMs read last, port
A and B of the first, then of the second, and the oldest request at its window. -/
structure FabricIn where
  frames : List (Nat × BitVec 1024)
  ff : BitVec 2048
  pins : BitVec 12
  cols : BitVec 2048
  gns : BitVec 16
  spans : List (Option Nat)
  read : List (BitVec 36)
  win : Option FabricReq
  deriving Inhabited

/-- What a block RAM port is asked for in one FCLK (R341). -/
structure RamOp where
  en : Bool := false
  we : Bool := false
  addr : BitVec 12 := 0
  data : BitVec 36 := 0
  deriving DecidableEq, Repr, Inhabited

/-- What the logic of a region makes of it: its flip-flops, the levels and enables at its pins, what its drivers put on the
column lines and then on the global nets, its spans into the rows within their reach, and, for each of its block RAMs, the arrangement (0 to
2, in the order of R341) with the requests of ports A and B. -/
structure FabricOut where
  ff : BitVec 2048
  out : BitVec 12
  oe : BitVec 12
  drv : BitVec 2064
  span : Nat
  ramX : Fin 3 × RamOp × RamOp
  ramY : Fin 3 × RamOp × RamOp
  deriving Inhabited

/-- The logic that a region's logic frames configure, at one FCLK edge: the bit positions of LUT contents and routing switches
are not published (log entry 103). -/
opaque Config.fabric : FabricIn → FabricOut

/-- How a smoothed line-clock generator's estimate of the mean edge spacing follows a new spacing, in 1/65,536 tick: the old
estimate and the new spacing (R390, log entry 33). -/
opaque Config.edgeMean : Nat → Nat → Nat

/-- Byte of the boot flash at an address, as its n-th read finds it (R507, log entry 10). -/
opaque Config.flashByte : Nat → Nat → Byte

/-- The command by which the boot ROM erases a 64 KiB bank of the boot flash (R542, log entry 10). -/
opaque Config.flashErase : BitVec 8

/-- Does the head card of a port acknowledge its address at the n-th read (R528, log entry 44)? -/
opaque Config.cardAnswers : Nat → Nat → Bool

/-- Byte of the header of a port's head card at the n-th read (R528, log entry 44). -/
opaque Config.cardByte : Nat → Nat → Nat → Byte

end Sys2Proof
end

