-- ==== Sys2Proof/Machine/Sparse.lean ====
section
/-! DEFINITION. Sparse storage: a list of (key, value) pairs in one canonical form (keys strictly rising, no value
equal to what an unlisted key reads as), used for memory bytes, registers, planes and per-PE tables. -/

namespace Sys2Proof.Machine

/-- A sparse table. -/
abbrev Sparse (α : Type) := List (Nat × α)

/-- What key `k` reads as; an unlisted key reads as `d k`. -/
def sparseGet {α : Type} (d : Nat → α) : Sparse α → Nat → α
  | [], k => d k
  | (a, v) :: l, k => if k = a then v else sparseGet d l k

/-- The list with key `k` removed. -/
def sparseErase {α : Type} (l : Sparse α) (k : Nat) : Sparse α := l.filter fun e => !decide (e.1 = k)

/-- The list with key `k` mapped to `v`, in key order. -/
def sparsePut {α : Type} : Sparse α → Nat → α → Sparse α
  | [], k, v => [(k, v)]
  | (a, w) :: l, k, v =>
    if k < a then (k, v) :: (a, w) :: l
    else if k = a then (k, v) :: l
    else (a, w) :: sparsePut l k v

/-- Write: writing what an unlisted key reads as removes the entry. -/
def sparseSet {α : Type} [DecidableEq α] (d : Nat → α) (l : Sparse α) (k : Nat) (v : α) : Sparse α :=
  if v = d k then sparseErase l k else sparsePut (sparseErase l k) k v

/-- Every key of the list is above `b`, strictly rising, and no value is the default. -/
def sparseWfFrom {α : Type} [DecidableEq α] (d : Nat → α) : Option Nat → Sparse α → Bool
  | _, [] => true
  | b, (a, v) :: l =>
    (match b with | none => true | some b => decide (b < a)) && decide (v ≠ d a) && sparseWfFrom d (some a) l

/-- The canonical form. -/
def sparseWf {α : Type} [DecidableEq α] (d : Nat → α) (l : Sparse α) : Bool := sparseWfFrom d none l

end Sys2Proof.Machine
end

