-- ==== Sys2Proof/Machine/RegTable.lean ====
section
/-! DEFINITION. The register tables of the spec (every "Bits | Field | Access | Reset | Effect" table): for each
register family its place in the register space (21_address_and_register_index.md R568), its fields, their access codes
(00_scope.md R9) and their reset values. Offsets count from 0x4000_0000. A field whose reset the tables give as
"OTP" resets to 0 here (DESIGN CHOICE, log entry 7); one that they give as "silicon" or "assigned" is stored as 0 and read as an
opaque constant (log entry 6). -/

namespace Sys2Proof.Machine

/-- Access codes (R9). -/
inductive Access where
  | rw | ro | w1c | w1s | wo | rwl
  deriving DecidableEq, Repr

/-- One field of a register: lowest bit, width, access code, reset value. -/
structure Field where
  lo : Nat
  width : Nat
  acc : Access
  reset : Nat
  deriving DecidableEq, Repr

/-- The register families of R568. -/
inductive Fam where
  | sysId
  | sysRegerr
  | sysSeqStat
  | sysSeqEvl
  | sysSeqEvc
  | sysClkstat
  | sysSsc
  | sysPwrctl
  | sysPwrstat
  | sysWpwr
  | sysWakelo
  | sysWakehi
  | sysRstcause
  | sysSeqrel
  | sysSeqEntry
  | dbSrc
  | dbRaw
  | dbInsvc
  | dbClaim
  | dbComplete
  | dbPend
  | dbCtl
  | dbErr
  | mantelCtl
  | mantelCntlo
  | mantelCnthi
  | mantelSteplo
  | mantelStephi
  | mantelSync
  | mantelSynccfg
  | mantelClaim
  | mantelGstop
  | encCtl
  | encPos
  | encZpos
  | encTlo
  | encThi
  | encStat
  | lcCtl
  | lcRatio
  | lcMinper
  | lcLastlo
  | lcLasthi
  | lcStat
  | grpCtl
  | grpSlo
  | grpStat
  | outCtl
  | leCtl
  | leTlo
  | leThi
  | lePer
  | leArg
  | arrayTopo
  | arrayBound
  | arrayWown
  | arrayClaim
  | arrayHaloStat
  | wingPerr
  | wingColcnt
  | wingCnt
  | wingFirst
  | chimCnt
  | chimFirst
  | peCtl
  | peFlags
  | peFault
  | peFaultw
  | peProg
  | chCtl
  | chDiv
  | chPins
  | chExec
  | chTxf
  | chRxf
  | chFstat
  | chInj
  | chStat
  | chIrq
  | chEvt
  | chSide
  | chSpat0
  | chSpat1
  | porchSync
  | porchClaim
  | annexCfgCtl
  | annexCfgData
  | annexCfgRdata
  | annexCfgStat
  | annexCfgErr
  | annexRstate0
  | annexRstate1
  | annexConflict
  | annexWtmo
  | annexWstat
  | annexClaim
  | annexImgSrc
  | annexImgCtl
  | annexImgStat
  | annexSafe
  | cellarCfg
  | cellarPwr0
  | cellarPwr1
  | cellarWake
  | cellarEcc
  | cellarEccaddr
  | cellarStarve
  | cellarStarveStat
  | cellarClaim
  | cellarTags
  | cellarTaglim
  | cellarEccreq
  | cellarLanderr
  | cellarPlanCtl
  | cellarPlanStat
  | cellarPlanFail
  | cellarPlanBanks
  | dmaCtl
  | dmaDesc
  | dmaStat
  | dmaTmo
  | dmaCur
  | linkCtl
  | linkTree
  | linkSync
  | linkSyncRxlo
  | linkSyncRxhi
  | linkSyncAtlo
  | linkSyncAthi
  | linkBulk
  | linkBstat
  | linkBaddr
  | linkEvctl
  | linkEvqlo
  | linkEvqhi
  | linkEvstat
  | linkSchimCtl
  | linkSchimIn
  | linkSchimOut
  | linkSchimStat
  | linkSeamCtl
  | linkSeamSrc
  | linkSeamStat
  | linkClaim
  | linkMgRoute
  | linkMgAddr
  | linkMgData
  | linkMgCtl
  | linkRwin
  | linkRt
  | kpCtl
  | kpStat
  | kpPeer
  | kpDly
  | kpErr
  | pcieId
  | pcieSubsys
  | pcieCtl
  | pcieLink
  | pcieObaselo
  | pcieObasehi
  | pcieOtmo
  | pcieErr
  | pcieErraddr
  | pcieHdb
  | pcieHdbSet
  | pcieBoot
  | pcieBootaddr
  | pcieAtt
  | pcieAttctl
  | sgCtl
  | sgMap
  | sgTrain
  | sgCode
  | sgGate
  | sgStat
  | sgLane
  | swIctl
  | swWin
  | swLine
  | swRel
  | swStat
  | swHist
  | soCtl
  | soSrc
  | soLine
  | soDst
  | soStat
  | soLim
  | ringBase
  | ringSize
  | ringWptr
  | ringRptr
  | ringStat
  | sensorOstart
  | sensorClaim
  | sensorHpres
  | asBootStat
  | asBootImg
  | asBootInfo
  | asBootVer
  | asBootPush
  | asBspiCmd
  | asBspiAddr
  | asBspiBuf
  | asBspiStat
  | asMcSrc
  | asMcCtl
  | asMcStat
  | asMcVer
  | asMcInfo
  | asMcPerr
  | asMcRomver
  | asMcDigest
  | asOtp
  | asOtpCtl
  | asOtpData
  | asOtpStat
  | asMeas
  | asExtd
  | asExtctl
  | asAttReq
  | asAttCtl
  | asAttSrv
  | lodgeCtl
  | lodgeCmd
  | lodgeStat
  | lodgeFslot
  | lodgeBootcnt
  | lodgeUser
  | lodgeQspi
  | lodgeTherm
  | lodgeAct
  | wdCfg
  | wdKick
  | wdStat
  | gpCtl
  | gpOwn
  | pinsIn
  | bankStat
  | pinsClaim
  | pinsCtl
  deriving DecidableEq, Repr

/-! SYS_ID (R569) -/
def F.sysId_PART : Field := ⟨0, 16, .ro, 25921⟩
def F.sysId_REV : Field := ⟨16, 8, .ro, 0⟩
/-! SYS_REGERR (R12) -/
def F.sysRegerr_ADDR : Field := ⟨0, 24, .ro, 0⟩
def F.sysRegerr_SRC : Field := ⟨24, 4, .ro, 0⟩
def F.sysRegerr_MULTI : Field := ⟨30, 1, .w1c, 0⟩
def F.sysRegerr_VALID : Field := ⟨31, 1, .w1c, 0⟩
/-! SYS_SEQ[h]_STAT (R144) -/
def F.sysSeqStat_STATE : Field := ⟨0, 2, .ro, 0⟩
def F.sysSeqStat_HCAUSE : Field := ⟨2, 3, .ro, 0⟩
def F.sysSeqStat_MTD : Field := ⟨5, 3, .ro, 0⟩
def F.sysSeqStat_ATOMX : Field := ⟨8, 8, .ro, 0⟩
def F.sysSeqStat_ATOMCLR : Field := ⟨16, 1, .wo, 0⟩
/-! SYS_SEQ[h]_EVL (R198) -/
def F.sysSeqEvl_EV : Field := ⟨0, 32, .w1s, 0⟩
/-! SYS_SEQ[h]_EVC (R199) -/
def F.sysSeqEvc_EV : Field := ⟨0, 32, .w1c, 0⟩
/-! SYS_CLKSTAT (R496) -/
def F.sysClkstat_HLOCK : Field := ⟨0, 1, .ro, 0⟩
def F.sysClkstat_SSCACT : Field := ⟨1, 1, .ro, 0⟩
def F.sysClkstat_LOSSCNT : Field := ⟨8, 8, .ro, 0⟩
/-! SYS_SSC (R496) -/
def F.sysSsc_DEPTH : Field := ⟨0, 6, .rw, 0⟩
def F.sysSsc_EN : Field := ⟨6, 1, .rw, 0⟩
/-! SYS_PWRCTL (R497) -/
def F.sysPwrctl_REQ : Field := ⟨0, 2, .rw, 0⟩
def F.sysPwrctl_WHDB : Field := ⟨8, 1, .rw, 0⟩
def F.sysPwrctl_WEVT : Field := ⟨9, 1, .rw, 0⟩
def F.sysPwrctl_WTICK : Field := ⟨10, 1, .rw, 0⟩
/-! SYS_PWRSTAT (R497) -/
def F.sysPwrstat_STATE : Field := ⟨0, 2, .ro, 0⟩
def F.sysPwrstat_PENDING : Field := ⟨2, 1, .ro, 0⟩
def F.sysPwrstat_WREFW : Field := ⟨3, 3, .ro, 0⟩
def F.sysPwrstat_WREF : Field := ⟨6, 1, .w1c, 0⟩
def F.sysPwrstat_WCAUSE : Field := ⟨7, 2, .ro, 0⟩
/-! SYS_WPWR (R497) -/
def F.sysWpwr_ON : Field := ⟨0, 8, .rw, 255⟩
def F.sysWpwr_CLEARING : Field := ⟨8, 8, .ro, 0⟩
/-! SYS_WAKELO (R497) -/
def F.sysWakelo_TICK : Field := ⟨0, 32, .rw, 0⟩
/-! SYS_WAKEHI (R497) -/
def F.sysWakehi_TICK : Field := ⟨0, 32, .rw, 0⟩
/-! SYS_RSTCAUSE (R498) -/
def F.sysRstcause_KIND : Field := ⟨0, 2, .ro, 0⟩
def F.sysRstcause_LCAUSE : Field := ⟨4, 4, .ro, 0⟩
def F.sysRstcause_BOOTSEL : Field := ⟨8, 3, .ro, 0⟩
/-! SYS_SEQREL (R524) -/
def F.sysSeqrel_REL : Field := ⟨1, 3, .wo, 0⟩
/-! SYS_SEQ[h]_ENTRY (h = 1 to 3; member 0 is h = 1) (R524) -/
def F.sysSeqEntry_ADDR : Field := ⟨0, 32, .rw, 268435456⟩
/-! DB_SRC[s] (R472) -/
def F.dbSrc_LEVEL : Field := ⟨0, 4, .rwl, 0⟩
def F.dbSrc_SEQ : Field := ⟨4, 2, .rwl, 0⟩
def F.dbSrc_SEN : Field := ⟨6, 1, .rwl, 0⟩
def F.dbSrc_VEC : Field := ⟨7, 6, .rwl, 0⟩
def F.dbSrc_HEN : Field := ⟨13, 1, .rwl, 0⟩
/-! DB_RAW[k] (R472) -/
def F.dbRaw_ASSERTED : Field := ⟨0, 32, .ro, 0⟩
/-! DB_INSVC[k] (R472) -/
def F.dbInsvc_INSVC : Field := ⟨0, 32, .ro, 0⟩
/-! DB_SEQ[h]_CLAIM (R472) -/
def F.dbClaim_SRC : Field := ⟨0, 10, .ro, 0⟩
def F.dbClaim_LEVEL : Field := ⟨10, 4, .ro, 0⟩
def F.dbClaim_VALID : Field := ⟨31, 1, .ro, 0⟩
/-! DB_SEQ[h]_COMPLETE (R472) -/
def F.dbComplete_SRC : Field := ⟨0, 10, .wo, 0⟩
/-! DB_SEQ[h]_PEND (R472) -/
def F.dbPend_LEVELS : Field := ⟨0, 16, .ro, 0⟩
/-! DB_CTL (R472) -/
def F.dbCtl_LOCK : Field := ⟨0, 1, .w1s, 0⟩
/-! DB_ERR (R472) -/
def F.dbErr_SRC : Field := ⟨0, 10, .ro, 0⟩
def F.dbErr_SEQ : Field := ⟨10, 2, .ro, 0⟩
def F.dbErr_MULTI : Field := ⟨30, 1, .w1c, 0⟩
def F.dbErr_VALID : Field := ⟨31, 1, .w1c, 0⟩
/-! MANTEL_CTL (R395) -/
def F.mantelCtl_ROLE : Field := ⟨0, 2, .rw, 0⟩
def F.mantelCtl_LEN : Field := ⟨2, 1, .rw, 0⟩
def F.mantelCtl_STEP : Field := ⟨3, 1, .wo, 0⟩
/-! MANTEL_CNTLO (R395) -/
def F.mantelCntlo_COUNT : Field := ⟨0, 32, .ro, 0⟩
/-! MANTEL_CNTHI (R395) -/
def F.mantelCnthi_COUNT : Field := ⟨0, 32, .ro, 0⟩
/-! MANTEL_STEPLO (R395) -/
def F.mantelSteplo_VALUE : Field := ⟨0, 32, .rw, 0⟩
/-! MANTEL_STEPHI (R395) -/
def F.mantelStephi_VALUE : Field := ⟨0, 32, .rw, 0⟩
/-! MANTEL_SYNC (R395) -/
def F.mantelSync_ERR : Field := ⟨0, 16, .ro, 0⟩
def F.mantelSync_ALIGNED : Field := ⟨16, 1, .ro, 0⟩
def F.mantelSync_STEPD : Field := ⟨24, 1, .w1c, 0⟩
def F.mantelSync_ALGN : Field := ⟨25, 1, .w1c, 0⟩
def F.mantelSync_LOST : Field := ⟨26, 1, .w1c, 0⟩
def F.mantelSync_TMO : Field := ⟨27, 1, .w1c, 0⟩
/-! MANTEL_SYNCCFG (R395) -/
def F.mantelSynccfg_ALIMIT : Field := ⟨0, 8, .rw, 24⟩
def F.mantelSynccfg_SYNCTMO : Field := ⟨8, 16, .rw, 100⟩
/-! MANTEL_CLAIM (R395) -/
def F.mantelClaim_RES : Field := ⟨0, 9, .ro, 0⟩
def F.mantelClaim_CLAIMANT : Field := ⟨9, 4, .ro, 0⟩
def F.mantelClaim_LAUNCH : Field := ⟨13, 1, .ro, 0⟩
def F.mantelClaim_ENTRY : Field := ⟨14, 8, .ro, 0⟩
def F.mantelClaim_MULTI : Field := ⟨30, 1, .w1c, 0⟩
def F.mantelClaim_CLAIM_FAIL : Field := ⟨31, 1, .w1c, 0⟩
/-! MANTEL_GSTOP (R395) -/
def F.mantelGstop_GROUPS : Field := ⟨0, 8, .wo, 0⟩
/-! MANTEL_ENC[e]_CTL (R396) -/
def F.encCtl_OWNER : Field := ⟨0, 3, .rw, 0⟩
def F.encCtl_MODE : Field := ⟨3, 2, .rw, 0⟩
def F.encCtl_FILT : Field := ⟨5, 10, .rw, 0⟩
def F.encCtl_ZCLR : Field := ⟨15, 1, .rw, 0⟩
def F.encCtl_ZIE : Field := ⟨16, 1, .rw, 0⟩
/-! MANTEL_ENC[e]_POS (R396) -/
def F.encPos_POS : Field := ⟨0, 32, .rw, 0⟩
/-! MANTEL_ENC[e]_ZPOS (R396) -/
def F.encZpos_ZPOS : Field := ⟨0, 32, .ro, 0⟩
/-! MANTEL_ENC[e]_TLO (R396) -/
def F.encTlo_STAMP : Field := ⟨0, 32, .ro, 0⟩
/-! MANTEL_ENC[e]_THI (R396) -/
def F.encThi_STAMP : Field := ⟨0, 32, .ro, 0⟩
/-! MANTEL_ENC[e]_STAT (R396) -/
def F.encStat_DIR : Field := ⟨0, 1, .ro, 0⟩
def F.encStat_ILL : Field := ⟨1, 1, .w1c, 0⟩
def F.encStat_OVS : Field := ⟨2, 1, .w1c, 0⟩
def F.encStat_ZSEEN : Field := ⟨3, 1, .w1c, 0⟩
def F.encStat_A : Field := ⟨4, 1, .ro, 0⟩
def F.encStat_B : Field := ⟨5, 1, .ro, 0⟩
def F.encStat_Z : Field := ⟨6, 1, .ro, 0⟩
def F.encStat_ILLCNT : Field := ⟨8, 8, .ro, 0⟩
/-! MANTEL_LC[e]_CTL (R396) -/
def F.lcCtl_EN : Field := ⟨0, 1, .rw, 0⟩
def F.lcCtl_DIR : Field := ⟨1, 2, .rw, 0⟩
def F.lcCtl_SMOOTH : Field := ⟨3, 1, .rw, 0⟩
def F.lcCtl_GAIN : Field := ⟨4, 4, .rw, 4⟩
def F.lcCtl_EMIT : Field := ⟨8, 1, .rw, 0⟩
def F.lcCtl_CODE : Field := ⟨16, 16, .rw, 0⟩
/-! MANTEL_LC[e]_RATIO (R396) -/
def F.lcRatio_RATIO : Field := ⟨0, 32, .rw, 65536⟩
/-! MANTEL_LC[e]_MINPER (R396) -/
def F.lcMinper_MINPER : Field := ⟨0, 24, .rw, 0⟩
/-! MANTEL_LC[e]_LASTLO (R396) -/
def F.lcLastlo_TICK : Field := ⟨0, 32, .ro, 0⟩
/-! MANTEL_LC[e]_LASTHI (R396) -/
def F.lcLasthi_TICK : Field := ⟨0, 32, .ro, 0⟩
/-! MANTEL_LC[e]_STAT (R396) -/
def F.lcStat_LOCKED : Field := ⟨0, 1, .ro, 0⟩
def F.lcStat_SKIP : Field := ⟨1, 1, .w1c, 0⟩
def F.lcStat_SKIPCNT : Field := ⟨8, 8, .ro, 0⟩
def F.lcStat_LINES : Field := ⟨16, 16, .ro, 0⟩
/-! MANTEL_GRP[g]_CTL (R397) -/
def F.grpCtl_OWNER : Field := ⟨0, 3, .rw, 0⟩
def F.grpCtl_SRC : Field := ⟨3, 2, .rw, 0⟩
def F.grpCtl_LC : Field := ⟨5, 2, .rw, 0⟩
def F.grpCtl_CODE : Field := ⟨16, 16, .rw, 0⟩
/-! MANTEL_GRP[g]_SLO (R397) -/
def F.grpSlo_SLO : Field := ⟨0, 20, .rw, 250⟩
/-! MANTEL_GRP[g]_STAT (R397) -/
def F.grpStat_FIRED : Field := ⟨0, 1, .w1c, 0⟩
def F.grpStat_LATE : Field := ⟨1, 1, .w1c, 0⟩
def F.grpStat_REFUSED : Field := ⟨2, 1, .w1c, 0⟩
def F.grpStat_DROPPED : Field := ⟨3, 1, .w1c, 0⟩
def F.grpStat_LINES : Field := ⟨8, 16, .ro, 0⟩
def F.grpStat_LATECNT : Field := ⟨24, 8, .ro, 0⟩
/-! MANTEL_OUT[k]_CTL (R397) -/
def F.outCtl_OWNER : Field := ⟨0, 3, .rw, 0⟩
def F.outCtl_POL : Field := ⟨3, 1, .rw, 0⟩
def F.outCtl_LEVEL : Field := ⟨4, 1, .ro, 0⟩
/-! MANTEL_LE[i]_CTL (R398) -/
def F.leCtl_OWNER : Field := ⟨0, 3, .rw, 0⟩
def F.leCtl_ARM : Field := ⟨3, 1, .wo, 0⟩
def F.leCtl_DISARM : Field := ⟨4, 1, .wo, 0⟩
def F.leCtl_ARMED : Field := ⟨5, 1, .ro, 0⟩
def F.leCtl_MODE : Field := ⟨6, 2, .rw, 0⟩
def F.leCtl_ACTION : Field := ⟨8, 4, .rw, 0⟩
def F.leCtl_GROUP : Field := ⟨12, 3, .rw, 0⟩
def F.leCtl_LATEPOL : Field := ⟨15, 1, .rw, 0⟩
def F.leCtl_IRQ : Field := ⟨16, 1, .rw, 0⟩
/-! MANTEL_LE[i]_TLO (R398) -/
def F.leTlo_TLO : Field := ⟨0, 32, .rw, 0⟩
/-! MANTEL_LE[i]_THI (R398) -/
def F.leThi_THI : Field := ⟨0, 32, .rw, 0⟩
/-! MANTEL_LE[i]_PER (R398) -/
def F.lePer_PERIOD : Field := ⟨0, 24, .rw, 0⟩
def F.lePer_REPS : Field := ⟨24, 8, .rw, 0⟩
/-! MANTEL_LE[i]_ARG (R398) -/
def F.leArg_ARG : Field := ⟨0, 32, .rw, 0⟩
/-! ARRAY_TOPO (R57) -/
def F.arrayTopo_MODE : Field := ⟨0, 1, .rw, 0⟩
def F.arrayTopo_NSEDGE : Field := ⟨8, 8, .rw, 0⟩
/-! ARRAY_BOUND (R58) -/
def F.arrayBound_B (k : Nat) : Field := ⟨2 * k, 2, .rw, 0⟩
/-! ARRAY_WOWN (R59) -/
def F.arrayWown_OWN (k : Nat) : Field := ⟨2 * k, 2, .rw, 0⟩
/-! ARRAY_CLAIM (R60) -/
def F.arrayClaim_RES : Field := ⟨0, 8, .ro, 0⟩
def F.arrayClaim_CLAIMANT : Field := ⟨8, 4, .ro, 0⟩
def F.arrayClaim_MULTI : Field := ⟨30, 1, .w1c, 0⟩
def F.arrayClaim_CLAIM_FAIL : Field := ⟨31, 1, .w1c, 0⟩
/-! ARRAY_HALO_STAT (R62) -/
def F.arrayHaloStat_PLANE : Field := ⟨0, 12, .ro, 0⟩
def F.arrayHaloStat_SIDE : Field := ⟨12, 1, .ro, 0⟩
def F.arrayHaloStat_HPERR : Field := ⟨13, 1, .w1c, 0⟩
def F.arrayHaloStat_CLRCNT : Field := ⟨14, 1, .wo, 0⟩
def F.arrayHaloStat_HMULTI : Field := ⟨15, 1, .w1c, 0⟩
def F.arrayHaloStat_SEAMCOL : Field := ⟨16, 16, .ro, 0⟩
/-! ARRAY_WING[w]_PERR (R63) -/
def F.wingPerr_PLANE : Field := ⟨0, 12, .ro, 0⟩
def F.wingPerr_BAY : Field := ⟨12, 8, .ro, 0⟩
def F.wingPerr_PORT : Field := ⟨20, 1, .ro, 0⟩
def F.wingPerr_MULTI : Field := ⟨30, 1, .w1c, 0⟩
def F.wingPerr_VALID : Field := ⟨31, 1, .w1c, 0⟩
/-! ARRAY_WING[w]_COLCNT (R64) -/
def F.wingColcnt_COUNT : Field := ⟨0, 16, .ro, 0⟩
def F.wingColcnt_CLR : Field := ⟨31, 1, .wo, 0⟩
/-! ARRAY_WING[w]_CNT (R65) -/
def F.wingCnt_COUNT : Field := ⟨0, 17, .ro, 0⟩
def F.wingCnt_OR : Field := ⟨17, 1, .ro, 0⟩
def F.wingCnt_VALID : Field := ⟨31, 1, .ro, 0⟩
/-! ARRAY_WING[w]_FIRST (R66) -/
def F.wingFirst_INDEX : Field := ⟨0, 17, .ro, 0⟩
def F.wingFirst_NONE : Field := ⟨30, 1, .ro, 1⟩
def F.wingFirst_VALID : Field := ⟨31, 1, .ro, 0⟩
/-! ARRAY_CHIM[h]_CNT (R65) -/
def F.chimCnt_COUNT : Field := ⟨0, 17, .ro, 0⟩
def F.chimCnt_OR : Field := ⟨17, 1, .ro, 0⟩
def F.chimCnt_VALID : Field := ⟨31, 1, .ro, 0⟩
/-! ARRAY_CHIM[h]_FIRST (R66) -/
def F.chimFirst_INDEX : Field := ⟨0, 17, .ro, 0⟩
def F.chimFirst_NONE : Field := ⟨30, 1, .ro, 1⟩
def F.chimFirst_VALID : Field := ⟨31, 1, .ro, 0⟩
/-! PORCH_E[e]_CTL (R334) -/
def F.peCtl_OWNER : Field := ⟨0, 3, .rw, 0⟩
/-! PORCH_E[e]_FLAGS (R334) -/
def F.peFlags_FLAG : Field := ⟨0, 8, .w1c, 0⟩
def F.peFlags_FSET : Field := ⟨8, 8, .w1s, 0⟩
/-! PORCH_E[e]_FAULT (R334) -/
def F.peFault_CH : Field := ⟨0, 3, .ro, 0⟩
def F.peFault_PC : Field := ⟨3, 8, .ro, 0⟩
def F.peFault_CAUSE : Field := ⟨11, 2, .ro, 0⟩
def F.peFault_INJ : Field := ⟨13, 1, .ro, 0⟩
def F.peFault_MULTI : Field := ⟨30, 1, .w1c, 0⟩
def F.peFault_VALID : Field := ⟨31, 1, .w1c, 0⟩
/-! PORCH_E[e]_FAULTW (R334) -/
def F.peFaultw_WORD : Field := ⟨0, 24, .ro, 0⟩
/-! PORCH_E[e]_PROG[a] (R334) -/
def F.peProg_WORD : Field := ⟨0, 24, .rw, 0⟩
/-! PORCH_CH[n]_CTL (R335) -/
def F.chCtl_OWNER : Field := ⟨0, 3, .rw, 0⟩
def F.chCtl_EN : Field := ⟨3, 1, .rw, 0⟩
def F.chCtl_RESTART : Field := ⟨4, 1, .wo, 0⟩
def F.chCtl_SGRP : Field := ⟨5, 4, .rw, 0⟩
def F.chCtl_OLSB : Field := ⟨9, 1, .rw, 0⟩
def F.chCtl_ILSB : Field := ⟨10, 1, .rw, 0⟩
def F.chCtl_DWX : Field := ⟨11, 1, .rw, 0⟩
def F.chCtl_OFRAME : Field := ⟨13, 5, .rw, 0⟩
def F.chCtl_IFRAME : Field := ⟨18, 5, .rw, 0⟩
/-! PORCH_CH[n]_DIV (R335) -/
def F.chDiv_FRAC : Field := ⟨0, 8, .rw, 0⟩
def F.chDiv_INT : Field := ⟨8, 16, .rw, 1⟩
/-! PORCH_CH[n]_PINS (R335) -/
def F.chPins_PINBASE : Field := ⟨0, 9, .rw, 0⟩
def F.chPins_PINCNT : Field := ⟨9, 6, .rw, 0⟩
def F.chPins_INOFF : Field := ⟨15, 5, .rw, 0⟩
def F.chPins_JPIN : Field := ⟨20, 5, .rw, 0⟩
/-! PORCH_CH[n]_EXEC (R335) -/
def F.chExec_PC : Field := ⟨0, 8, .rw, 0⟩
def F.chExec_ORIGIN : Field := ⟨8, 8, .rw, 0⟩
/-! PORCH_CH[n]_TXF (R336) -/
def F.chTxf_DATA : Field := ⟨0, 32, .wo, 0⟩
/-! PORCH_CH[n]_RXF (R336) -/
def F.chRxf_DATA : Field := ⟨0, 32, .ro, 0⟩
/-! PORCH_CH[n]_FSTAT (R336) -/
def F.chFstat_OLVL : Field := ⟨0, 4, .ro, 0⟩
def F.chFstat_ILVL : Field := ⟨4, 4, .ro, 0⟩
def F.chFstat_OTHR : Field := ⟨8, 4, .rw, 0⟩
def F.chFstat_ITHR : Field := ⟨12, 4, .rw, 8⟩
def F.chFstat_TXOVF : Field := ⟨16, 1, .w1c, 0⟩
def F.chFstat_RXUNF : Field := ⟨17, 1, .w1c, 0⟩
def F.chFstat_FLUSH : Field := ⟨18, 1, .wo, 0⟩
/-! PORCH_CH[n]_INJ (R336) -/
def F.chInj_INSTR : Field := ⟨0, 24, .wo, 0⟩
def F.chInj_RESUME : Field := ⟨24, 1, .wo, 0⟩
/-! PORCH_CH[n]_STAT (R336) -/
def F.chStat_STATE : Field := ⟨0, 2, .ro, 0⟩
def F.chStat_GATE : Field := ⟨2, 1, .ro, 0⟩
def F.chStat_TOF : Field := ⟨3, 1, .ro, 0⟩
def F.chStat_EVL : Field := ⟨4, 1, .ro, 0⟩
def F.chStat_OCNT : Field := ⟨5, 6, .ro, 32⟩
def F.chStat_ICNT : Field := ⟨11, 6, .ro, 0⟩
def F.chStat_INJPEND : Field := ⟨17, 1, .ro, 0⟩
def F.chStat_SAVED : Field := ⟨18, 1, .ro, 0⟩
def F.chStat_INJOVF : Field := ⟨19, 1, .w1c, 0⟩
def F.chStat_INJABN : Field := ⟨20, 1, .w1c, 0⟩
/-! PORCH_CH[n]_IRQ (R336) -/
def F.chIrq_RAISE : Field := ⟨0, 1, .w1c, 0⟩
def F.chIrq_OLOW : Field := ⟨1, 1, .ro, 1⟩
def F.chIrq_IHIGH : Field := ⟨2, 1, .ro, 0⟩
def F.chIrq_STOPPED : Field := ⟨3, 1, .w1c, 0⟩
def F.chIrq_ENA : Field := ⟨8, 4, .rw, 0⟩
/-! PORCH_CH[n]_EVT (R336) -/
def F.chEvt_SET : Field := ⟨0, 1, .wo, 0⟩
/-! PORCH_CH[n]_SIDE (R335) -/
def F.chSide_SIDEBASE : Field := ⟨0, 9, .rw, 0⟩
def F.chSide_SIDECNT : Field := ⟨9, 3, .rw, 0⟩
/-! PORCH_CH[n]_SPAT0 (R335) -/
def F.chSpat0_PAT1 : Field := ⟨8, 8, .rw, 0⟩
def F.chSpat0_PAT2 : Field := ⟨16, 8, .rw, 0⟩
def F.chSpat0_PAT3 : Field := ⟨24, 8, .rw, 0⟩
/-! PORCH_CH[n]_SPAT1 (R335) -/
def F.chSpat1_PAT4 : Field := ⟨0, 8, .rw, 0⟩
def F.chSpat1_PAT5 : Field := ⟨8, 8, .rw, 0⟩
def F.chSpat1_PAT6 : Field := ⟨16, 8, .rw, 0⟩
def F.chSpat1_PAT7 : Field := ⟨24, 8, .rw, 0⟩
/-! PORCH_SYNC (R337) -/
def F.porchSync_GROUPS : Field := ⟨0, 16, .wo, 0⟩
def F.porchSync_ENABLE : Field := ⟨16, 1, .wo, 0⟩
/-! PORCH_CLAIM (R337) -/
def F.porchClaim_RES : Field := ⟨0, 10, .ro, 0⟩
def F.porchClaim_CLAIMANT : Field := ⟨10, 4, .ro, 0⟩
def F.porchClaim_LAUNCH : Field := ⟨14, 1, .ro, 0⟩
def F.porchClaim_CHAN : Field := ⟨15, 9, .ro, 0⟩
def F.porchClaim_MULTI : Field := ⟨30, 1, .w1c, 0⟩
def F.porchClaim_CLAIM_FAIL : Field := ⟨31, 1, .w1c, 0⟩
/-! ANNEX_CFG_CTL (R363) -/
def F.annexCfgCtl_OWNER : Field := ⟨0, 3, .rw, 0⟩
def F.annexCfgCtl_RESYNC : Field := ⟨3, 1, .wo, 0⟩
/-! ANNEX_CFG_DATA (R363) -/
def F.annexCfgData_WORD : Field := ⟨0, 32, .wo, 0⟩
/-! ANNEX_CFG_RDATA (R363) -/
def F.annexCfgRdata_WORD : Field := ⟨0, 32, .ro, 0⟩
/-! ANNEX_CFG_STAT (R363) -/
def F.annexCfgStat_LAST : Field := ⟨0, 8, .ro, 0⟩
def F.annexCfgStat_DISCARD : Field := ⟨8, 1, .ro, 0⟩
def F.annexCfgStat_RDUNF : Field := ⟨9, 1, .w1c, 0⟩
def F.annexCfgStat_DROP : Field := ⟨10, 1, .w1c, 0⟩
def F.annexCfgStat_WLVL : Field := ⟨11, 7, .ro, 0⟩
def F.annexCfgStat_ERRCNT : Field := ⟨18, 8, .ro, 0⟩
def F.annexCfgStat_ERRV : Field := ⟨26, 1, .w1c, 0⟩
def F.annexCfgStat_MULTI : Field := ⟨27, 1, .w1c, 0⟩
/-! ANNEX_CFG_ERR (R363) -/
def F.annexCfgErr_HEADER : Field := ⟨0, 32, .ro, 0⟩
/-! ANNEX_RSTATE0 (R363) -/
def F.annexRstate0_STATE (k : Nat) : Field := ⟨2 * k, 2, .ro, 0⟩
/-! ANNEX_RSTATE1 (R363) -/
def F.annexRstate1_STATE (k : Nat) : Field := ⟨2 * k, 2, .ro, 0⟩
/-! ANNEX_CONFLICT (R364) -/
def F.annexConflict_LINE : Field := ⟨0, 11, .ro, 0⟩
def F.annexConflict_GN : Field := ⟨11, 1, .ro, 0⟩
def F.annexConflict_REGA : Field := ⟨12, 5, .ro, 0⟩
def F.annexConflict_REGB : Field := ⟨17, 5, .ro, 0⟩
def F.annexConflict_CAPV : Field := ⟨30, 1, .w1c, 0⟩
def F.annexConflict_DRIVE_CONFLICT : Field := ⟨31, 1, .w1c, 0⟩
/-! ANNEX_WTMO (R364) -/
def F.annexWtmo_TIMEOUT : Field := ⟨0, 16, .rw, 1024⟩
/-! ANNEX_WSTAT (R364) -/
def F.annexWstat_TIMEOUTS : Field := ⟨0, 16, .ro, 0⟩
def F.annexWstat_LATE : Field := ⟨16, 15, .ro, 0⟩
def F.annexWstat_CLR : Field := ⟨31, 1, .wo, 0⟩
/-! ANNEX_CLAIM (R364) -/
def F.annexClaim_RES : Field := ⟨0, 10, .ro, 0⟩
def F.annexClaim_REGION : Field := ⟨10, 5, .ro, 0⟩
def F.annexClaim_CLAIMANT : Field := ⟨15, 4, .ro, 0⟩
def F.annexClaim_MULTI : Field := ⟨30, 1, .w1c, 0⟩
def F.annexClaim_CLAIM_FAIL : Field := ⟨31, 1, .w1c, 0⟩
/-! ANNEX_IMG_SRC (R365) -/
def F.annexImgSrc_ADDR : Field := ⟨0, 32, .rw, 0⟩
/-! ANNEX_IMG_CTL (R365) -/
def F.annexImgCtl_GO : Field := ⟨0, 1, .wo, 0⟩
/-! ANNEX_IMG_STAT (R365) -/
def F.annexImgStat_BUSY : Field := ⟨0, 1, .ro, 0⟩
def F.annexImgStat_DONE : Field := ⟨1, 1, .w1c, 0⟩
def F.annexImgStat_ERR : Field := ⟨8, 8, .ro, 0⟩
/-! ANNEX_SAFE[r] (R365) -/
def F.annexSafe_SAFE (k : Nat) : Field := ⟨2 * k, 2, .rw, 0⟩
/-! CELLAR_CFG (R262) -/
def F.cellarCfg_ILV : Field := ⟨0, 2, .rw, 0⟩
/-! CELLAR_PWR0 (R262) -/
def F.cellarPwr0_BANK (k : Nat) : Field := ⟨2 * k, 2, .rw, 0⟩
/-! CELLAR_PWR1 (R262) -/
def F.cellarPwr1_BANK (k : Nat) : Field := ⟨2 * k, 2, .rw, 0⟩
/-! CELLAR_WAKE (R262) -/
def F.cellarWake_WAKING : Field := ⟨0, 32, .ro, 0⟩
/-! CELLAR_ECC (R263) -/
def F.cellarEcc_CECNT : Field := ⟨0, 16, .ro, 0⟩
def F.cellarEcc_CETHR : Field := ⟨16, 15, .rw, 256⟩
def F.cellarEcc_CLR : Field := ⟨31, 1, .wo, 0⟩
/-! CELLAR_ECCADDR (R263) -/
def F.cellarEccaddr_OFFSET : Field := ⟨0, 26, .ro, 0⟩
def F.cellarEccaddr_LAND : Field := ⟨26, 1, .ro, 0⟩
def F.cellarEccaddr_MULTI : Field := ⟨30, 1, .w1c, 0⟩
def F.cellarEccaddr_VALID : Field := ⟨31, 1, .w1c, 0⟩
/-! CELLAR_STARVE (R264) -/
def F.cellarStarve_LIMIT : Field := ⟨0, 16, .rw, 4096⟩
/-! CELLAR_STARVE_STAT (R264) -/
def F.cellarStarveStat_CLASS : Field := ⟨0, 4, .ro, 0⟩
def F.cellarStarveStat_BANK : Field := ⟨4, 5, .ro, 0⟩
def F.cellarStarveStat_MULTI : Field := ⟨30, 1, .w1c, 0⟩
def F.cellarStarveStat_VALID : Field := ⟨31, 1, .w1c, 0⟩
/-! CELLAR_CLAIM (R264) -/
def F.cellarClaim_CHAN : Field := ⟨0, 6, .ro, 0⟩
def F.cellarClaim_CLAIMANT : Field := ⟨6, 4, .ro, 0⟩
def F.cellarClaim_LAUNCH : Field := ⟨10, 1, .ro, 0⟩
def F.cellarClaim_MULTI : Field := ⟨30, 1, .w1c, 0⟩
def F.cellarClaim_CLAIM_FAIL : Field := ⟨31, 1, .w1c, 0⟩
/-! CELLAR_TAGS (R264) -/
def F.cellarTags_INUSE : Field := ⟨0, 13, .ro, 0⟩
def F.cellarTags_HIGH : Field := ⟨16, 13, .ro, 0⟩
def F.cellarTags_CLRHIGH : Field := ⟨31, 1, .wo, 0⟩
/-! CELLAR_TAGLIM (R264) -/
def F.cellarTaglim_DMAMAX : Field := ⟨0, 13, .rw, 3072⟩
/-! CELLAR_ECCREQ (R263) -/
def F.cellarEccreq_REQ : Field := ⟨0, 4, .ro, 0⟩
/-! CELLAR_LANDERR (R263) -/
def F.cellarLanderr_ADDR : Field := ⟨0, 18, .ro, 0⟩
def F.cellarLanderr_SRC : Field := ⟨18, 4, .ro, 0⟩
def F.cellarLanderr_COUNT : Field := ⟨22, 8, .ro, 0⟩
def F.cellarLanderr_MULTI : Field := ⟨30, 1, .w1c, 0⟩
def F.cellarLanderr_LAND_COLLIDE : Field := ⟨31, 1, .w1c, 0⟩
/-! CELLAR_PLAN_CTL (R265) -/
def F.cellarPlanCtl_MODE : Field := ⟨0, 2, .rw, 0⟩
def F.cellarPlanCtl_GAP : Field := ⟨16, 16, .rw, 1024⟩
/-! CELLAR_PLAN_STAT (R265) -/
def F.cellarPlanStat_BANK : Field := ⟨0, 5, .ro, 0⟩
def F.cellarPlanStat_WINDOW : Field := ⟨5, 9, .ro, 0⟩
def F.cellarPlanStat_ABANDON : Field := ⟨16, 8, .ro, 0⟩
def F.cellarPlanStat_PASSES : Field := ⟨24, 8, .ro, 0⟩
/-! CELLAR_PLAN_FAIL (R265) -/
def F.cellarPlanFail_BANK : Field := ⟨0, 5, .ro, 0⟩
def F.cellarPlanFail_ROW : Field := ⟨5, 16, .ro, 0⟩
def F.cellarPlanFail_BIT : Field := ⟨21, 9, .ro, 0⟩
def F.cellarPlanFail_MULTI : Field := ⟨30, 1, .w1c, 0⟩
def F.cellarPlanFail_VALID : Field := ⟨31, 1, .w1c, 0⟩
/-! CELLAR_PLAN_BANKS (R265) -/
def F.cellarPlanBanks_BANKS : Field := ⟨0, 32, .rw, 4294967295⟩
/-! CELLAR_DMA[c]_CTL (R266) -/
def F.dmaCtl_OWNER : Field := ⟨0, 3, .rw, 0⟩
def F.dmaCtl_START : Field := ⟨3, 1, .wo, 0⟩
def F.dmaCtl_ABORT : Field := ⟨4, 1, .wo, 0⟩
def F.dmaCtl_PRI : Field := ⟨5, 1, .rw, 0⟩
/-! CELLAR_DMA[c]_DESC (R266) -/
def F.dmaDesc_ADDR : Field := ⟨5, 27, .rw, 0⟩
/-! CELLAR_DMA[c]_STAT (R266) -/
def F.dmaStat_STATE : Field := ⟨0, 2, .ro, 0⟩
def F.dmaStat_PEND : Field := ⟨2, 1, .ro, 0⟩
def F.dmaStat_OVR : Field := ⟨3, 1, .w1c, 0⟩
def F.dmaStat_DONE : Field := ⟨4, 1, .w1c, 0⟩
def F.dmaStat_ERR : Field := ⟨8, 8, .ro, 0⟩
def F.dmaStat_LATE : Field := ⟨16, 8, .ro, 0⟩
/-! CELLAR_DMA[c]_TMO (R266) -/
def F.dmaTmo_TIMEOUT : Field := ⟨0, 16, .rw, 100⟩
/-! CELLAR_DMA[c]_CUR (R266) -/
def F.dmaCur_ADDR : Field := ⟨0, 32, .ro, 0⟩
/-! LINK_CTL (R433) -/
def F.linkCtl_ID : Field := ⟨0, 10, .rwl, 1023⟩
def F.linkCtl_IDV : Field := ⟨10, 1, .rwl, 0⟩
def F.linkCtl_RACC : Field := ⟨11, 3, .rwl, 7⟩
def F.linkCtl_LOCK : Field := ⟨14, 1, .w1s, 0⟩
/-! LINK_TREE (R433) -/
def F.linkTree_UP : Field := ⟨0, 4, .rw, 15⟩
def F.linkTree_DOWN : Field := ⟨4, 6, .rw, 0⟩
def F.linkTree_DEPTH : Field := ⟨10, 3, .rw, 0⟩
/-! LINK_SYNC (R433) -/
def F.linkSync_PER : Field := ⟨0, 10, .rw, 10⟩
def F.linkSync_EN : Field := ⟨10, 1, .rw, 0⟩
/-! LINK_SYNC_RXLO (R433) -/
def F.linkSyncRxlo_COUNT : Field := ⟨0, 32, .ro, 0⟩
/-! LINK_SYNC_RXHI (R433) -/
def F.linkSyncRxhi_COUNT : Field := ⟨0, 32, .ro, 0⟩
/-! LINK_SYNC_ATLO (R433) -/
def F.linkSyncAtlo_COUNT : Field := ⟨0, 32, .ro, 0⟩
/-! LINK_SYNC_ATHI (R433) -/
def F.linkSyncAthi_COUNT : Field := ⟨0, 32, .ro, 0⟩
/-! LINK_BULK (R433) -/
def F.linkBulk_TMO : Field := ⟨0, 16, .rw, 100⟩
/-! LINK_BSTAT (R433) -/
def F.linkBstat_DEV : Field := ⟨0, 10, .ro, 0⟩
def F.linkBstat_STATUS : Field := ⟨10, 4, .ro, 0⟩
def F.linkBstat_TIMEOUT : Field := ⟨14, 1, .ro, 0⟩
def F.linkBstat_WRITE : Field := ⟨15, 1, .ro, 0⟩
def F.linkBstat_PORT : Field := ⟨16, 3, .ro, 0⟩
def F.linkBstat_LATE : Field := ⟨19, 8, .ro, 0⟩
def F.linkBstat_MULTI : Field := ⟨30, 1, .w1c, 0⟩
def F.linkBstat_VALID : Field := ⟨31, 1, .w1c, 0⟩
/-! LINK_BADDR (R433) -/
def F.linkBaddr_ADDR : Field := ⟨0, 32, .ro, 0⟩
/-! LINK_EVCTL (R434) -/
def F.linkEvctl_CODE : Field := ⟨0, 16, .rw, 0⟩
def F.linkEvctl_MASK : Field := ⟨16, 16, .rw, 65535⟩
/-! LINK_EVQLO (R434) -/
def F.linkEvqlo_EVENT : Field := ⟨0, 32, .ro, 0⟩
/-! LINK_EVQHI (R434) -/
def F.linkEvqhi_PAYLOAD : Field := ⟨0, 32, .ro, 0⟩
/-! LINK_EVSTAT (R434) -/
def F.linkEvstat_LEVEL : Field := ⟨0, 5, .ro, 0⟩
def F.linkEvstat_EN : Field := ⟨5, 1, .rw, 0⟩
def F.linkEvstat_OVF : Field := ⟨6, 8, .ro, 0⟩
def F.linkEvstat_CLR : Field := ⟨14, 1, .wo, 0⟩
/-! LINK_SCHIM_CTL (R434) -/
def F.linkSchimCtl_TMO : Field := ⟨0, 16, .rw, 100⟩
/-! LINK_SCHIM_IN (R434) -/
def F.linkSchimIn_COUNT : Field := ⟨0, 27, .wo, 0⟩
def F.linkSchimIn_OR : Field := ⟨27, 1, .wo, 0⟩
def F.linkSchimIn_ROUND : Field := ⟨28, 4, .wo, 0⟩
/-! LINK_SCHIM_OUT (R434) -/
def F.linkSchimOut_COUNT : Field := ⟨0, 27, .ro, 0⟩
def F.linkSchimOut_OR : Field := ⟨27, 1, .ro, 0⟩
def F.linkSchimOut_ROUND : Field := ⟨28, 4, .ro, 0⟩
/-! LINK_SCHIM_STAT (R434) -/
def F.linkSchimStat_BUSY : Field := ⟨0, 1, .ro, 0⟩
def F.linkSchimStat_DONE : Field := ⟨1, 1, .w1c, 0⟩
def F.linkSchimStat_TIMEOUT : Field := ⟨2, 1, .w1c, 0⟩
def F.linkSchimStat_ERR : Field := ⟨3, 1, .w1c, 0⟩
def F.linkSchimStat_LATE : Field := ⟨4, 8, .ro, 0⟩
/-! LINK_SEAM_CTL (R435) -/
def F.linkSeamCtl_OWNER : Field := ⟨0, 3, .rw, 0⟩
def F.linkSeamCtl_WPORT : Field := ⟨3, 4, .rw, 15⟩
def F.linkSeamCtl_EPORT : Field := ⟨7, 4, .rw, 15⟩
def F.linkSeamCtl_START : Field := ⟨11, 1, .wo, 0⟩
def F.linkSeamCtl_AUTO : Field := ⟨12, 1, .rw, 0⟩
def F.linkSeamCtl_ENTRY : Field := ⟨13, 8, .rw, 0⟩
/-! LINK_SEAM_SRC (R435) -/
def F.linkSeamSrc_RBASE : Field := ⟨0, 12, .rw, 0⟩
def F.linkSeamSrc_NPL : Field := ⟨12, 7, .rw, 1⟩
def F.linkSeamSrc_RDEPTH : Field := ⟨19, 7, .rw, 1⟩
def F.linkSeamSrc_SLOT : Field := ⟨26, 6, .rw, 0⟩
/-! LINK_SEAM_STAT (R435) -/
def F.linkSeamStat_BUSY : Field := ⟨0, 1, .ro, 0⟩
def F.linkSeamStat_DONE : Field := ⟨1, 1, .w1c, 0⟩
def F.linkSeamStat_OVR : Field := ⟨2, 1, .w1c, 0⟩
def F.linkSeamStat_TXERR : Field := ⟨3, 1, .w1c, 0⟩
def F.linkSeamStat_RXDROP : Field := ⟨8, 8, .ro, 0⟩
/-! LINK_CLAIM (R435) -/
def F.linkClaim_RES : Field := ⟨0, 8, .ro, 0⟩
def F.linkClaim_CLAIMANT : Field := ⟨8, 4, .ro, 0⟩
def F.linkClaim_LAUNCH : Field := ⟨12, 1, .ro, 0⟩
def F.linkClaim_MULTI : Field := ⟨30, 1, .w1c, 0⟩
def F.linkClaim_CLAIM_FAIL : Field := ⟨31, 1, .w1c, 0⟩
/-! LINK_MG_ROUTE (R435) -/
def F.linkMgRoute_ROUTE : Field := ⟨0, 24, .rw, 0⟩
def F.linkMgRoute_RHOPS : Field := ⟨24, 4, .rw, 1⟩
/-! LINK_MG_ADDR (R435) -/
def F.linkMgAddr_ADDR : Field := ⟨0, 32, .rw, 0⟩
/-! LINK_MG_DATA (R435) -/
def F.linkMgData_DATA : Field := ⟨0, 32, .rw, 0⟩
/-! LINK_MG_CTL (R435) -/
def F.linkMgCtl_GO : Field := ⟨0, 1, .wo, 0⟩
def F.linkMgCtl_WRITE : Field := ⟨1, 1, .rw, 0⟩
def F.linkMgCtl_BUSY : Field := ⟨2, 1, .ro, 0⟩
def F.linkMgCtl_DONE : Field := ⟨3, 1, .w1c, 0⟩
def F.linkMgCtl_STATUS : Field := ⟨4, 4, .ro, 0⟩
def F.linkMgCtl_TIMEOUT : Field := ⟨8, 1, .ro, 0⟩
/-! LINK_RWIN[m] (R435) -/
def F.linkRwin_OWNER : Field := ⟨0, 3, .rw, 0⟩
def F.linkRwin_DEV : Field := ⟨3, 10, .rw, 0⟩
def F.linkRwin_RBASE : Field := ⟨13, 6, .rw, 0⟩
def F.linkRwin_VALID : Field := ⟨19, 1, .rw, 0⟩
/-! LINK_RT[j] (R435) -/
def F.linkRt_ENTRY (k : Nat) : Field := ⟨4 * k, 4, .rw, 15⟩
/-! LINK_P[k]_CTL (R436) -/
def F.kpCtl_EN : Field := ⟨0, 1, .rw, 0⟩
def F.kpCtl_JOIN : Field := ⟨1, 1, .rw, 0⟩
def F.kpCtl_DLYGO : Field := ⟨2, 1, .wo, 0⟩
def F.kpCtl_RETRAIN : Field := ⟨3, 1, .wo, 0⟩
/-! LINK_P[k]_STAT (R436) -/
def F.kpStat_STATE : Field := ⟨0, 2, .ro, 0⟩
def F.kpStat_LOCK0 : Field := ⟨2, 1, .ro, 0⟩
def F.kpStat_LOCK1 : Field := ⟨3, 1, .ro, 0⟩
def F.kpStat_DLYV : Field := ⟨4, 1, .ro, 0⟩
def F.kpStat_STCHG : Field := ⟨5, 1, .w1c, 0⟩
def F.kpStat_ERRV : Field := ⟨6, 1, .w1c, 0⟩
def F.kpStat_BERR : Field := ⟨7, 1, .w1c, 0⟩
def F.kpStat_EVQ : Field := ⟨8, 1, .w1c, 0⟩
/-! LINK_P[k]_PEER (R436) -/
def F.kpPeer_PORT : Field := ⟨0, 3, .ro, 0⟩
def F.kpPeer_ID : Field := ⟨3, 10, .ro, 0⟩
def F.kpPeer_IDV : Field := ⟨13, 1, .ro, 0⟩
def F.kpPeer_JOIN : Field := ⟨14, 1, .ro, 0⟩
def F.kpPeer_VALID : Field := ⟨15, 1, .ro, 0⟩
/-! LINK_P[k]_DLY (R436) -/
def F.kpDly_DLY : Field := ⟨0, 20, .ro, 0⟩
/-! LINK_P[k]_ERR (R436) -/
def F.kpErr_CRCERR : Field := ⟨0, 8, .ro, 0⟩
def F.kpErr_REPLAY : Field := ⟨8, 8, .ro, 0⟩
def F.kpErr_EVBAD : Field := ⟨16, 8, .ro, 0⟩
def F.kpErr_DROP : Field := ⟨24, 7, .ro, 0⟩
def F.kpErr_CLR : Field := ⟨31, 1, .wo, 0⟩
/-! PCIE_ID (R449) -/
def F.pcieId_VID : Field := ⟨0, 16, .ro, 0⟩
def F.pcieId_REV : Field := ⟨16, 8, .ro, 0⟩
/-! PCIE_SUBSYS (R449) -/
def F.pcieSubsys_SVID : Field := ⟨0, 16, .rwl, 0⟩
def F.pcieSubsys_SSID : Field := ⟨16, 16, .rwl, 0⟩
/-! PCIE_CTL (R449) -/
def F.pcieCtl_LOCK : Field := ⟨0, 1, .w1s, 0⟩
/-! PCIE_LINK (R449) -/
def F.pcieLink_SPEED : Field := ⟨0, 3, .ro, 0⟩
def F.pcieLink_WIDTH : Field := ⟨3, 3, .ro, 0⟩
def F.pcieLink_UP : Field := ⟨6, 1, .ro, 0⟩
def F.pcieLink_L1 : Field := ⟨7, 1, .ro, 0⟩
def F.pcieLink_D3 : Field := ⟨8, 1, .ro, 0⟩
def F.pcieLink_STCHG : Field := ⟨9, 1, .w1c, 0⟩
def F.pcieLink_DCHG : Field := ⟨10, 1, .w1c, 0⟩
/-! PCIE_OBASELO (R449) -/
def F.pcieObaselo_ADDR : Field := ⟨29, 3, .rw, 0⟩
/-! PCIE_OBASEHI (R449) -/
def F.pcieObasehi_ADDR : Field := ⟨0, 32, .rw, 0⟩
/-! PCIE_OTMO (R449) -/
def F.pcieOtmo_TMO : Field := ⟨0, 16, .rw, 100⟩
/-! PCIE_ERR (R449) -/
def F.pcieErr_KIND : Field := ⟨0, 2, .ro, 0⟩
def F.pcieErr_LATE : Field := ⟨2, 8, .ro, 0⟩
def F.pcieErr_MULTI : Field := ⟨30, 1, .w1c, 0⟩
def F.pcieErr_VALID : Field := ⟨31, 1, .w1c, 0⟩
/-! PCIE_ERRADDR (R449) -/
def F.pcieErraddr_ADDR : Field := ⟨0, 32, .ro, 0⟩
/-! PCIE_HDB (R449) -/
def F.pcieHdb_BELL : Field := ⟨0, 8, .w1c, 0⟩
/-! PCIE_HDB_SET (R449) -/
def F.pcieHdbSet_BELL : Field := ⟨0, 8, .w1s, 0⟩
/-! PCIE_BOOT (R449) -/
def F.pcieBoot_GO : Field := ⟨0, 1, .w1s, 0⟩
def F.pcieBoot_TAKE : Field := ⟨1, 1, .wo, 0⟩
/-! PCIE_BOOTADDR (R449) -/
def F.pcieBootaddr_ADDR : Field := ⟨0, 32, .rw, 0⟩
/-! PCIE_ATT (R449) -/
def F.pcieAtt_ADDR : Field := ⟨0, 32, .rw, 268435456⟩
/-! PCIE_ATTCTL (R449) -/
def F.pcieAttctl_GO : Field := ⟨0, 1, .wo, 0⟩
def F.pcieAttctl_BUSY : Field := ⟨1, 1, .ro, 0⟩
def F.pcieAttctl_DONE : Field := ⟨2, 1, .w1c, 0⟩
def F.pcieAttctl_ERR : Field := ⟨8, 8, .ro, 0⟩
/-! SENSOR_G[h]_CTL (R298) -/
def F.sgCtl_EN : Field := ⟨0, 1, .rw, 0⟩
def F.sgCtl_LEVEL : Field := ⟨1, 1, .rw, 0⟩
def F.sgCtl_TERM : Field := ⟨2, 1, .rw, 0⟩
def F.sgCtl_NL : Field := ⟨3, 2, .rw, 3⟩
def F.sgCtl_MAPMODE : Field := ⟨5, 1, .rw, 0⟩
def F.sgCtl_BPW : Field := ⟨6, 4, .rw, 11⟩
def F.sgCtl_TRAINGO : Field := ⟨10, 1, .wo, 0⟩
/-! SENSOR_G[h]_MAP (R298) -/
def F.sgMap_LMAP (k : Nat) : Field := ⟨3 * k, 3, .rw, k⟩
/-! SENSOR_G[h]_TRAIN (R298) -/
def F.sgTrain_TRAIN : Field := ⟨0, 16, .rw, 0⟩
/-! SENSOR_G[h]_CODE (R298) -/
def F.sgCode_SOL : Field := ⟨0, 16, .rw, 2048⟩
def F.sgCode_EOL : Field := ⟨16, 16, .rw, 2304⟩
/-! SENSOR_G[h]_GATE (R298) -/
def F.sgGate_MODE : Field := ⟨0, 2, .rw, 0⟩
def F.sgGate_CH : Field := ⟨2, 9, .rw, 0⟩
/-! SENSOR_G[h]_STAT (R298) -/
def F.sgStat_LOCK : Field := ⟨0, 1, .ro, 0⟩
def F.sgStat_TDONE : Field := ⟨1, 1, .ro, 0⟩
def F.sgStat_ALIGNED : Field := ⟨2, 1, .ro, 0⟩
def F.sgStat_SKEWFAIL : Field := ⟨3, 1, .ro, 0⟩
def F.sgStat_EYEFAIL : Field := ⟨4, 8, .ro, 0⟩
def F.sgStat_WORDFAIL : Field := ⟨12, 8, .ro, 0⟩
def F.sgStat_GATED : Field := ⟨20, 12, .ro, 0⟩
/-! SENSOR_G[h]_LANE[m] (R298) -/
def F.sgLane_PHASE : Field := ⟨0, 6, .ro, 0⟩
def F.sgLane_EYE : Field := ⟨6, 7, .ro, 0⟩
def F.sgLane_SKEW : Field := ⟨13, 3, .ro, 0⟩
/-! SENSOR_W[w]_ICTL (R299) -/
def F.swIctl_OWNER : Field := ⟨0, 3, .rw, 0⟩
def F.swIctl_EN : Field := ⟨3, 1, .rw, 0⟩
def F.swIctl_RELCHK : Field := ⟨4, 1, .rw, 0⟩
def F.swIctl_OVRPOL : Field := ⟨5, 1, .rw, 0⟩
def F.swIctl_PXCNT : Field := ⟨6, 14, .rw, 8192⟩
/-! SENSOR_W[w]_WIN (R299) -/
def F.swWin_IBASE : Field := ⟨0, 12, .rw, 0⟩
def F.swWin_BPP : Field := ⟨12, 5, .rw, 12⟩
def F.swWin_PSHIFT : Field := ⟨17, 4, .rw, 0⟩
def F.swWin_IDEPTH : Field := ⟨21, 7, .rw, 4⟩
/-! SENSOR_W[w]_LINE (R299) -/
def F.swLine_NEXT : Field := ⟨0, 23, .rw, 0⟩
def F.swLine_QUEUED : Field := ⟨23, 2, .ro, 0⟩
def F.swLine_SLOT : Field := ⟨25, 6, .ro, 0⟩
def F.swLine_MARK : Field := ⟨31, 1, .wo, 0⟩
/-! SENSOR_W[w]_REL (R299) -/
def F.swRel_RELEASED : Field := ⟨0, 23, .rw, 8388607⟩
/-! SENSOR_W[w]_STAT (R299) -/
def F.swStat_OVRCNT : Field := ⟨0, 16, .ro, 0⟩
def F.swStat_ORPHAN : Field := ⟨16, 15, .ro, 0⟩
def F.swStat_CLR : Field := ⟨31, 1, .wo, 0⟩
/-! SENSOR_W[w]_HIST[k] (R299) -/
def F.swHist_LINE : Field := ⟨0, 23, .ro, 0⟩
def F.swHist_COMPLETE : Field := ⟨23, 1, .ro, 0⟩
def F.swHist_SHORT : Field := ⟨24, 1, .ro, 0⟩
def F.swHist_LONG : Field := ⟨25, 1, .ro, 0⟩
def F.swHist_SKEW : Field := ⟨26, 1, .ro, 0⟩
def F.swHist_COLLIDED : Field := ⟨27, 1, .ro, 0⟩
def F.swHist_OVERWROTE : Field := ⟨28, 1, .ro, 0⟩
def F.swHist_FATE : Field := ⟨29, 3, .ro, 0⟩
/-! SENSOR_O[w]_CTL (R300) -/
def F.soCtl_OWNER : Field := ⟨0, 3, .rw, 0⟩
def F.soCtl_MODE : Field := ⟨3, 1, .rw, 0⟩
def F.soCtl_RING : Field := ⟨4, 3, .rw, 0⟩
def F.soCtl_VWIDTH : Field := ⟨7, 5, .rw, 0⟩
def F.soCtl_NPL : Field := ⟨12, 9, .rw, 1⟩
/-! SENSOR_O[w]_SRC (R300) -/
def F.soSrc_FPLANE : Field := ⟨0, 12, .rw, 0⟩
def F.soSrc_VBASE : Field := ⟨12, 12, .rw, 0⟩
def F.soSrc_VSTRIDE : Field := ⟨24, 8, .rw, 1⟩
/-! SENSOR_O[w]_LINE (R300) -/
def F.soLine_LINE : Field := ⟨0, 23, .rw, 0⟩
/-! SENSOR_O[w]_DST (R300) -/
def F.soDst_ADDR : Field := ⟨0, 32, .rw, 536870912⟩
/-! SENSOR_O[w]_STAT (R300) -/
def F.soStat_STATE : Field := ⟨0, 1, .ro, 0⟩
def F.soStat_CAPT : Field := ⟨1, 1, .ro, 0⟩
def F.soStat_DONE : Field := ⟨2, 1, .w1c, 0⟩
def F.soStat_OVR : Field := ⟨3, 1, .w1c, 0⟩
def F.soStat_TRUNC : Field := ⟨4, 1, .ro, 0⟩
def F.soStat_ERR : Field := ⟨8, 8, .ro, 0⟩
def F.soStat_FCNT : Field := ⟨16, 14, .ro, 0⟩
/-! SENSOR_O[w]_LIM (R300) -/
def F.soLim_MAXREC : Field := ⟨0, 14, .rw, 8192⟩
/-! SENSOR_RING[r]_BASE (R300) -/
def F.ringBase_ADDR : Field := ⟨0, 32, .rw, 536870912⟩
/-! SENSOR_RING[r]_SIZE (R300) -/
def F.ringSize_SIZE : Field := ⟨0, 5, .rw, 13⟩
/-! SENSOR_RING[r]_WPTR (R300) -/
def F.ringWptr_WPTR : Field := ⟨0, 24, .ro, 0⟩
/-! SENSOR_RING[r]_RPTR (R300) -/
def F.ringRptr_RPTR : Field := ⟨0, 24, .rw, 0⟩
/-! SENSOR_RING[r]_STAT (R300) -/
def F.ringStat_DROP : Field := ⟨0, 16, .ro, 0⟩
def F.ringStat_FULL : Field := ⟨16, 1, .w1c, 0⟩
def F.ringStat_CLR : Field := ⟨31, 1, .wo, 0⟩
/-! SENSOR_OSTART (R300) -/
def F.sensorOstart_WMASK : Field := ⟨0, 8, .wo, 0⟩
def F.sensorOstart_START : Field := ⟨8, 1, .wo, 0⟩
def F.sensorOstart_ABORT : Field := ⟨9, 1, .wo, 0⟩
/-! SENSOR_CLAIM (R300) -/
def F.sensorClaim_RES : Field := ⟨0, 5, .ro, 0⟩
def F.sensorClaim_CLAIMANT : Field := ⟨5, 4, .ro, 0⟩
def F.sensorClaim_LAUNCH : Field := ⟨9, 1, .ro, 0⟩
def F.sensorClaim_MULTI : Field := ⟨30, 1, .w1c, 0⟩
def F.sensorClaim_CLAIM_FAIL : Field := ⟨31, 1, .w1c, 0⟩
/-! SENSOR_HPRES (R529) -/
def F.sensorHpres_PRES : Field := ⟨0, 8, .ro, 0⟩
def F.sensorHpres_CHG : Field := ⟨8, 8, .w1c, 0⟩
def F.sensorHpres_FILT : Field := ⟨16, 10, .rw, 100⟩
/-! ASSAY_BOOT_STAT (R524) -/
def F.asBootStat_BOOTSEL : Field := ⟨0, 3, .ro, 0⟩
def F.asBootStat_STRAPERR : Field := ⟨3, 1, .ro, 0⟩
def F.asBootStat_PHASE : Field := ⟨4, 4, .ro, 0⟩
def F.asBootStat_ERR : Field := ⟨8, 8, .ro, 0⟩
def F.asBootStat_SOURCE : Field := ⟨16, 2, .ro, 0⟩
def F.asBootStat_RETRY : Field := ⟨18, 1, .ro, 0⟩
def F.asBootStat_LOCKOUT : Field := ⟨19, 1, .ro, 0⟩
def F.asBootStat_FAIL : Field := ⟨20, 1, .w1c, 0⟩
def F.asBootStat_WDROP : Field := ⟨23, 9, .ro, 0⟩
/-! ASSAY_BOOT_IMG (R524) -/
def F.asBootImg_ADDR : Field := ⟨0, 32, .ro, 0⟩
/-! ASSAY_BOOT_INFO (R524) -/
def F.asBootInfo_SVN : Field := ⟨0, 7, .ro, 0⟩
def F.asBootInfo_KEYSLOT : Field := ⟨8, 2, .ro, 0⟩
/-! ASSAY_BOOT_VER (R524) -/
def F.asBootVer_IMGVER : Field := ⟨0, 32, .ro, 0⟩
/-! ASSAY_BOOT_PUSH (R524) -/
def F.asBootPush_GO : Field := ⟨0, 1, .w1s, 0⟩
def F.asBootPush_ADDR : Field := ⟨3, 29, .rw, 0⟩
/-! ASSAY_BSPI_CMD (R525) -/
def F.asBspiCmd_OP : Field := ⟨0, 8, .rw, 0⟩
def F.asBspiCmd_ADDRB : Field := ⟨8, 2, .rw, 0⟩
def F.asBspiCmd_DUMMY : Field := ⟨10, 4, .rw, 0⟩
def F.asBspiCmd_WRITE : Field := ⟨14, 1, .rw, 0⟩
def F.asBspiCmd_QUAD : Field := ⟨15, 1, .rw, 0⟩
def F.asBspiCmd_LEN : Field := ⟨16, 9, .rw, 0⟩
def F.asBspiCmd_GO : Field := ⟨31, 1, .wo, 0⟩
/-! ASSAY_BSPI_ADDR (R525) -/
def F.asBspiAddr_ADDR : Field := ⟨0, 32, .rw, 0⟩
/-! ASSAY_BSPI_BUF (R525) -/
def F.asBspiBuf_ADDR : Field := ⟨0, 32, .rw, 268435456⟩
/-! ASSAY_BSPI_STAT (R525) -/
def F.asBspiStat_BUSY : Field := ⟨0, 1, .ro, 0⟩
def F.asBspiStat_DONE : Field := ⟨1, 1, .w1c, 0⟩
def F.asBspiStat_ERR : Field := ⟨8, 4, .ro, 0⟩
/-! ASSAY_MC_SRC (R222) -/
def F.asMcSrc_ADDR : Field := ⟨0, 32, .rw, 0⟩
/-! ASSAY_MC_CTL (R223) -/
def F.asMcCtl_TARGET : Field := ⟨0, 4, .rw, 15⟩
def F.asMcCtl_GO : Field := ⟨4, 1, .wo, 0⟩
/-! ASSAY_MC_STAT (R224) -/
def F.asMcStat_BUSY : Field := ⟨0, 1, .ro, 0⟩
def F.asMcStat_DONE : Field := ⟨1, 1, .w1c, 0⟩
def F.asMcStat_ERR : Field := ⟨8, 8, .ro, 0⟩
def F.asMcStat_CSVALID : Field := ⟨16, 4, .ro, 0⟩
/-! ASSAY_MC_VER (R225) -/
def F.asMcVer_MCVER : Field := ⟨0, 32, .ro, 0⟩
/-! ASSAY_MC_INFO (R225) -/
def F.asMcInfo_MTDEPTH : Field := ⟨0, 3, .ro, 0⟩
def F.asMcInfo_SVN : Field := ⟨8, 7, .ro, 0⟩
def F.asMcInfo_LOADS : Field := ⟨16, 16, .ro, 0⟩
/-! ASSAY_MC_PERR (R227) -/
def F.asMcPerr_WORD : Field := ⟨0, 12, .ro, 0⟩
def F.asMcPerr_SEQ : Field := ⟨12, 2, .ro, 0⟩
def F.asMcPerr_MULTI : Field := ⟨30, 1, .w1c, 0⟩
def F.asMcPerr_VALID : Field := ⟨31, 1, .w1c, 0⟩
/-! ASSAY_MC_ROMVER (R225) -/
def F.asMcRomver_ROMVER : Field := ⟨0, 32, .ro, 65536⟩
/-! ASSAY_MC_DIGEST[k] (R226) -/
def F.asMcDigest_BYTES : Field := ⟨0, 32, .ro, 0⟩
/-! ASSAY_OTP[k] (R525) -/
def F.asOtp_WORD : Field := ⟨0, 32, .ro, 0⟩
/-! ASSAY_OTP_CTL (R525) -/
def F.asOtpCtl_OP : Field := ⟨0, 3, .rw, 0⟩
def F.asOtpCtl_GO : Field := ⟨3, 1, .wo, 0⟩
def F.asOtpCtl_VALUE : Field := ⟨8, 7, .rw, 0⟩
/-! ASSAY_OTP_DATA (R525) -/
def F.asOtpData_DATA : Field := ⟨0, 32, .rw, 0⟩
/-! ASSAY_OTP_STAT (R525) -/
def F.asOtpStat_BUSY : Field := ⟨0, 1, .ro, 0⟩
def F.asOtpStat_DONE : Field := ⟨1, 1, .w1c, 0⟩
def F.asOtpStat_ERR : Field := ⟨8, 8, .ro, 0⟩
/-! ASSAY_HALLMARK_MEAS[i][k] (R526) -/
def F.asMeas_BYTES : Field := ⟨0, 32, .ro, 0⟩
/-! ASSAY_EXTD[k] (R526) -/
def F.asExtd_BYTES : Field := ⟨0, 32, .rw, 0⟩
/-! ASSAY_EXTCTL (R526) -/
def F.asExtctl_IDX : Field := ⟨0, 3, .rw, 0⟩
def F.asExtctl_GO : Field := ⟨3, 1, .wo, 0⟩
def F.asExtctl_BUSY : Field := ⟨4, 1, .ro, 0⟩
def F.asExtctl_DONE : Field := ⟨5, 1, .w1c, 0⟩
def F.asExtctl_REFUSED : Field := ⟨6, 1, .w1c, 0⟩
def F.asExtctl_MLOCK : Field := ⟨8, 8, .w1s, 0⟩
/-! ASSAY_ATT_REQ (R526) -/
def F.asAttReq_ADDR : Field := ⟨0, 32, .rw, 268435456⟩
/-! ASSAY_ATT_CTL (R526) -/
def F.asAttCtl_GO : Field := ⟨0, 1, .wo, 0⟩
def F.asAttCtl_BUSY : Field := ⟨1, 1, .ro, 0⟩
def F.asAttCtl_DONE : Field := ⟨2, 1, .w1c, 0⟩
def F.asAttCtl_REMOTE : Field := ⟨3, 1, .rw, 0⟩
def F.asAttCtl_DEV : Field := ⟨4, 10, .rw, 0⟩
def F.asAttCtl_ERR : Field := ⟨16, 8, .ro, 0⟩
/-! ASSAY_ATT_SRV (R526) -/
def F.asAttSrv_SERVED : Field := ⟨0, 16, .ro, 0⟩
def F.asAttSrv_NEW : Field := ⟨16, 1, .w1c, 0⟩
def F.asAttSrv_NOTREADY : Field := ⟨17, 7, .ro, 0⟩
/-! LODGE_CTL (R474) -/
def F.lodgeCtl_HFILT : Field := ⟨0, 8, .rwl, 25⟩
def F.lodgeCtl_ADDR4 : Field := ⟨8, 1, .rwl, 0⟩
def F.lodgeCtl_LOCK : Field := ⟨9, 1, .w1s, 0⟩
/-! LODGE_CMD (R474) -/
def F.lodgeCmd_ACT : Field := ⟨0, 5, .wo, 0⟩
/-! LODGE_STAT (R474) -/
def F.lodgeStat_SAFE : Field := ⟨0, 1, .ro, 0⟩
def F.lodgeStat_FAULTN : Field := ⟨1, 1, .ro, 0⟩
def F.lodgeStat_RELEASE : Field := ⟨2, 1, .wo, 0⟩
def F.lodgeStat_FREL : Field := ⟨3, 1, .wo, 0⟩
def F.lodgeStat_HOLDUP : Field := ⟨4, 1, .ro, 0⟩
def F.lodgeStat_CARRY : Field := ⟨5, 1, .ro, 0⟩
def F.lodgeStat_RECBUSY : Field := ⟨6, 1, .ro, 0⟩
def F.lodgeStat_ACTED : Field := ⟨7, 1, .w1c, 0⟩
def F.lodgeStat_CAUSE : Field := ⟨8, 4, .ro, 0⟩
def F.lodgeStat_LOST : Field := ⟨12, 8, .ro, 0⟩
def F.lodgeStat_HOLDF : Field := ⟨20, 1, .w1c, 0⟩
def F.lodgeStat_TWARN : Field := ⟨21, 1, .w1c, 0⟩
def F.lodgeStat_TTRIP : Field := ⟨22, 1, .w1c, 0⟩
/-! LODGE_FSLOT (R475) -/
def F.lodgeFslot_NEXT : Field := ⟨0, 6, .rw, 0⟩
def F.lodgeFslot_FULL : Field := ⟨6, 1, .ro, 0⟩
def F.lodgeFslot_BASE : Field := ⟨12, 20, .rwl, 0⟩
/-! LODGE_BOOTCNT (R475) -/
def F.lodgeBootcnt_COUNT : Field := ⟨0, 32, .rw, 0⟩
/-! LODGE_USER (R475) -/
def F.lodgeUser_DATA : Field := ⟨0, 32, .rw, 0⟩
/-! LODGE_QSPI (R475) -/
def F.lodgeQspi_WREN : Field := ⟨0, 8, .rwl, 6⟩
def F.lodgeQspi_PP : Field := ⟨8, 8, .rwl, 2⟩
def F.lodgeQspi_SUSP : Field := ⟨16, 8, .rwl, 117⟩
def F.lodgeQspi_RESM : Field := ⟨24, 8, .rwl, 122⟩
/-! LODGE_THERM (R475) -/
def F.lodgeTherm_TEMP : Field := ⟨0, 10, .ro, 0⟩
def F.lodgeTherm_WARN : Field := ⟨10, 8, .rw, 100⟩
def F.lodgeTherm_TRIP : Field := ⟨18, 8, .rwl, 115⟩
/-! LODGE_ACT[c] (R474) -/
def F.lodgeAct_ACT : Field := ⟨0, 5, .rwl, 0⟩
/-! LODGE_WD[h]_CFG (R476) -/
def F.wdCfg_EN : Field := ⟨0, 1, .rw, 0⟩
def F.wdCfg_WARN : Field := ⟨1, 15, .rw, 0⟩
def F.wdCfg_EXPIRE : Field := ⟨16, 15, .rw, 100⟩
/-! LODGE_WD[h]_KICK (R476) -/
def F.wdKick_KEY : Field := ⟨0, 16, .wo, 0⟩
/-! LODGE_WD[h]_STAT (R476) -/
def F.wdStat_C : Field := ⟨0, 15, .ro, 0⟩
def F.wdStat_EXP : Field := ⟨15, 1, .w1c, 0⟩
def F.wdStat_BADKICK : Field := ⟨16, 8, .ro, 0⟩
/-! PINS_GP[n]_CTL (R552) -/
def F.gpCtl_PULL : Field := ⟨0, 2, .rw, 2⟩
def F.gpCtl_KEEPER : Field := ⟨2, 1, .rw, 0⟩
def F.gpCtl_SLEW : Field := ⟨3, 2, .rw, 0⟩
def F.gpCtl_OE : Field := ⟨5, 1, .rw, 0⟩
def F.gpCtl_OUT : Field := ⟨6, 1, .rw, 0⟩
def F.gpCtl_SAFE : Field := ⟨8, 3, .rwl, 0⟩
/-! PINS_GP[n]_OWN (R552) -/
def F.gpOwn_AGENT : Field := ⟨0, 3, .rw, 0⟩
def F.gpOwn_HOLDER : Field := ⟨3, 2, .ro, 0⟩
def F.gpOwn_ID : Field := ⟨5, 9, .ro, 0⟩
/-! PINS_IN[k] (R552) -/
def F.pinsIn_LEVEL : Field := ⟨0, 32, .ro, 0⟩
/-! PINS_BANK[b]_STAT (R552) -/
def F.bankStat_VLVL : Field := ⟨0, 2, .ro, 2⟩
def F.bankStat_CHG : Field := ⟨2, 1, .w1c, 0⟩
/-! PINS_CLAIM (R552) -/
def F.pinsClaim_RES : Field := ⟨0, 9, .ro, 0⟩
def F.pinsClaim_CLAIMANT : Field := ⟨9, 4, .ro, 0⟩
def F.pinsClaim_KIND : Field := ⟨13, 1, .ro, 0⟩
def F.pinsClaim_MULTI : Field := ⟨30, 1, .w1c, 0⟩
def F.pinsClaim_CLAIM_FAIL : Field := ⟨31, 1, .w1c, 0⟩
/-! PINS_CTL (R552) -/
def F.pinsCtl_SAFELOCK : Field := ⟨0, 1, .w1s, 0⟩

/-- A family's place and fields: member (i, j) stands at base + s1 * i + s2 * j. -/
structure FamInfo where
  base : Nat
  n1 : Nat := 1
  s1 : Nat := 0
  n2 : Nat := 1
  s2 : Nat := 0
  fields : List Field

/-- The tables, family by family. -/
def Fam.info : Fam → FamInfo
  | .sysId => { base := 0x000000, fields := [F.sysId_PART, F.sysId_REV] }
  | .sysRegerr => { base := 0x000040, fields := [F.sysRegerr_ADDR, F.sysRegerr_SRC, F.sysRegerr_MULTI, F.sysRegerr_VALID] }
  | .sysSeqStat => { base := 0x000100, n1 := 4, s1 := 4, fields := [F.sysSeqStat_STATE, F.sysSeqStat_HCAUSE, F.sysSeqStat_MTD, F.sysSeqStat_ATOMX, F.sysSeqStat_ATOMCLR] }
  | .sysSeqEvl => { base := 0x000110, n1 := 4, s1 := 4, fields := [F.sysSeqEvl_EV] }
  | .sysSeqEvc => { base := 0x000120, n1 := 4, s1 := 4, fields := [F.sysSeqEvc_EV] }
  | .sysClkstat => { base := 0x000200, fields := [F.sysClkstat_HLOCK, F.sysClkstat_SSCACT, F.sysClkstat_LOSSCNT] }
  | .sysSsc => { base := 0x000204, fields := [F.sysSsc_DEPTH, F.sysSsc_EN] }
  | .sysPwrctl => { base := 0x000210, fields := [F.sysPwrctl_REQ, F.sysPwrctl_WHDB, F.sysPwrctl_WEVT, F.sysPwrctl_WTICK] }
  | .sysPwrstat => { base := 0x000214, fields := [F.sysPwrstat_STATE, F.sysPwrstat_PENDING, F.sysPwrstat_WREFW, F.sysPwrstat_WREF, F.sysPwrstat_WCAUSE] }
  | .sysWpwr => { base := 0x000218, fields := [F.sysWpwr_ON, F.sysWpwr_CLEARING] }
  | .sysWakelo => { base := 0x00021C, fields := [F.sysWakelo_TICK] }
  | .sysWakehi => { base := 0x000220, fields := [F.sysWakehi_TICK] }
  | .sysRstcause => { base := 0x000230, fields := [F.sysRstcause_KIND, F.sysRstcause_LCAUSE, F.sysRstcause_BOOTSEL] }
  | .sysSeqrel => { base := 0x000300, fields := [F.sysSeqrel_REL] }
  | .sysSeqEntry => { base := 0x000314, n1 := 3, s1 := 4, fields := [F.sysSeqEntry_ADDR] }
  | .dbSrc => { base := 0x100000, n1 := 768, s1 := 4, fields := [F.dbSrc_LEVEL, F.dbSrc_SEQ, F.dbSrc_SEN, F.dbSrc_VEC, F.dbSrc_HEN] }
  | .dbRaw => { base := 0x101000, n1 := 24, s1 := 4, fields := [F.dbRaw_ASSERTED] }
  | .dbInsvc => { base := 0x101100, n1 := 24, s1 := 4, fields := [F.dbInsvc_INSVC] }
  | .dbClaim => { base := 0x102000, n1 := 4, s1 := 16, fields := [F.dbClaim_SRC, F.dbClaim_LEVEL, F.dbClaim_VALID] }
  | .dbComplete => { base := 0x102004, n1 := 4, s1 := 16, fields := [F.dbComplete_SRC] }
  | .dbPend => { base := 0x102008, n1 := 4, s1 := 16, fields := [F.dbPend_LEVELS] }
  | .dbCtl => { base := 0x103000, fields := [F.dbCtl_LOCK] }
  | .dbErr => { base := 0x103004, fields := [F.dbErr_SRC, F.dbErr_SEQ, F.dbErr_MULTI, F.dbErr_VALID] }
  | .mantelCtl => { base := 0x200000, fields := [F.mantelCtl_ROLE, F.mantelCtl_LEN, F.mantelCtl_STEP] }
  | .mantelCntlo => { base := 0x200004, fields := [F.mantelCntlo_COUNT] }
  | .mantelCnthi => { base := 0x200008, fields := [F.mantelCnthi_COUNT] }
  | .mantelSteplo => { base := 0x20000C, fields := [F.mantelSteplo_VALUE] }
  | .mantelStephi => { base := 0x200010, fields := [F.mantelStephi_VALUE] }
  | .mantelSync => { base := 0x200014, fields := [F.mantelSync_ERR, F.mantelSync_ALIGNED, F.mantelSync_STEPD, F.mantelSync_ALGN, F.mantelSync_LOST, F.mantelSync_TMO] }
  | .mantelSynccfg => { base := 0x200018, fields := [F.mantelSynccfg_ALIMIT, F.mantelSynccfg_SYNCTMO] }
  | .mantelClaim => { base := 0x20001C, fields := [F.mantelClaim_RES, F.mantelClaim_CLAIMANT, F.mantelClaim_LAUNCH, F.mantelClaim_ENTRY, F.mantelClaim_MULTI, F.mantelClaim_CLAIM_FAIL] }
  | .mantelGstop => { base := 0x200020, fields := [F.mantelGstop_GROUPS] }
  | .encCtl => { base := 0x200100, n1 := 4, s1 := 32, fields := [F.encCtl_OWNER, F.encCtl_MODE, F.encCtl_FILT, F.encCtl_ZCLR, F.encCtl_ZIE] }
  | .encPos => { base := 0x200104, n1 := 4, s1 := 32, fields := [F.encPos_POS] }
  | .encZpos => { base := 0x200108, n1 := 4, s1 := 32, fields := [F.encZpos_ZPOS] }
  | .encTlo => { base := 0x20010C, n1 := 4, s1 := 32, fields := [F.encTlo_STAMP] }
  | .encThi => { base := 0x200110, n1 := 4, s1 := 32, fields := [F.encThi_STAMP] }
  | .encStat => { base := 0x200114, n1 := 4, s1 := 32, fields := [F.encStat_DIR, F.encStat_ILL, F.encStat_OVS, F.encStat_ZSEEN, F.encStat_A, F.encStat_B, F.encStat_Z, F.encStat_ILLCNT] }
  | .lcCtl => { base := 0x200200, n1 := 4, s1 := 32, fields := [F.lcCtl_EN, F.lcCtl_DIR, F.lcCtl_SMOOTH, F.lcCtl_GAIN, F.lcCtl_EMIT, F.lcCtl_CODE] }
  | .lcRatio => { base := 0x200204, n1 := 4, s1 := 32, fields := [F.lcRatio_RATIO] }
  | .lcMinper => { base := 0x200208, n1 := 4, s1 := 32, fields := [F.lcMinper_MINPER] }
  | .lcLastlo => { base := 0x20020C, n1 := 4, s1 := 32, fields := [F.lcLastlo_TICK] }
  | .lcLasthi => { base := 0x200210, n1 := 4, s1 := 32, fields := [F.lcLasthi_TICK] }
  | .lcStat => { base := 0x200214, n1 := 4, s1 := 32, fields := [F.lcStat_LOCKED, F.lcStat_SKIP, F.lcStat_SKIPCNT, F.lcStat_LINES] }
  | .grpCtl => { base := 0x200300, n1 := 8, s1 := 16, fields := [F.grpCtl_OWNER, F.grpCtl_SRC, F.grpCtl_LC, F.grpCtl_CODE] }
  | .grpSlo => { base := 0x200304, n1 := 8, s1 := 16, fields := [F.grpSlo_SLO] }
  | .grpStat => { base := 0x200308, n1 := 8, s1 := 16, fields := [F.grpStat_FIRED, F.grpStat_LATE, F.grpStat_REFUSED, F.grpStat_DROPPED, F.grpStat_LINES, F.grpStat_LATECNT] }
  | .outCtl => { base := 0x200400, n1 := 16, s1 := 4, fields := [F.outCtl_OWNER, F.outCtl_POL, F.outCtl_LEVEL] }
  | .leCtl => { base := 0x210000, n1 := 256, s1 := 32, fields := [F.leCtl_OWNER, F.leCtl_ARM, F.leCtl_DISARM, F.leCtl_ARMED, F.leCtl_MODE, F.leCtl_ACTION, F.leCtl_GROUP, F.leCtl_LATEPOL, F.leCtl_IRQ] }
  | .leTlo => { base := 0x210004, n1 := 256, s1 := 32, fields := [F.leTlo_TLO] }
  | .leThi => { base := 0x210008, n1 := 256, s1 := 32, fields := [F.leThi_THI] }
  | .lePer => { base := 0x21000C, n1 := 256, s1 := 32, fields := [F.lePer_PERIOD, F.lePer_REPS] }
  | .leArg => { base := 0x210010, n1 := 256, s1 := 32, fields := [F.leArg_ARG] }
  | .arrayTopo => { base := 0x300000, fields := [F.arrayTopo_MODE, F.arrayTopo_NSEDGE] }
  | .arrayBound => { base := 0x300004, fields := (List.range 9).map F.arrayBound_B }
  | .arrayWown => { base := 0x300008, fields := (List.range 8).map F.arrayWown_OWN }
  | .arrayClaim => { base := 0x30000C, fields := [F.arrayClaim_RES, F.arrayClaim_CLAIMANT, F.arrayClaim_MULTI, F.arrayClaim_CLAIM_FAIL] }
  | .arrayHaloStat => { base := 0x300010, fields := [F.arrayHaloStat_PLANE, F.arrayHaloStat_SIDE, F.arrayHaloStat_HPERR, F.arrayHaloStat_CLRCNT, F.arrayHaloStat_HMULTI, F.arrayHaloStat_SEAMCOL] }
  | .wingPerr => { base := 0x300100, n1 := 8, s1 := 16, fields := [F.wingPerr_PLANE, F.wingPerr_BAY, F.wingPerr_PORT, F.wingPerr_MULTI, F.wingPerr_VALID] }
  | .wingColcnt => { base := 0x300104, n1 := 8, s1 := 16, fields := [F.wingColcnt_COUNT, F.wingColcnt_CLR] }
  | .wingCnt => { base := 0x300108, n1 := 8, s1 := 16, fields := [F.wingCnt_COUNT, F.wingCnt_OR, F.wingCnt_VALID] }
  | .wingFirst => { base := 0x30010C, n1 := 8, s1 := 16, fields := [F.wingFirst_INDEX, F.wingFirst_NONE, F.wingFirst_VALID] }
  | .chimCnt => { base := 0x300200, n1 := 4, s1 := 8, fields := [F.chimCnt_COUNT, F.chimCnt_OR, F.chimCnt_VALID] }
  | .chimFirst => { base := 0x300204, n1 := 4, s1 := 8, fields := [F.chimFirst_INDEX, F.chimFirst_NONE, F.chimFirst_VALID] }
  | .peCtl => { base := 0x400000, n1 := 64, s1 := 32, fields := [F.peCtl_OWNER] }
  | .peFlags => { base := 0x400004, n1 := 64, s1 := 32, fields := [F.peFlags_FLAG, F.peFlags_FSET] }
  | .peFault => { base := 0x400008, n1 := 64, s1 := 32, fields := [F.peFault_CH, F.peFault_PC, F.peFault_CAUSE, F.peFault_INJ, F.peFault_MULTI, F.peFault_VALID] }
  | .peFaultw => { base := 0x40000C, n1 := 64, s1 := 32, fields := [F.peFaultw_WORD] }
  | .peProg => { base := 0x410000, n1 := 64, s1 := 1024, n2 := 256, s2 := 4, fields := [F.peProg_WORD] }
  | .chCtl => { base := 0x420000, n1 := 512, s1 := 64, fields := [F.chCtl_OWNER, F.chCtl_EN, F.chCtl_RESTART, F.chCtl_SGRP, F.chCtl_OLSB, F.chCtl_ILSB, F.chCtl_DWX, F.chCtl_OFRAME, F.chCtl_IFRAME] }
  | .chDiv => { base := 0x420004, n1 := 512, s1 := 64, fields := [F.chDiv_FRAC, F.chDiv_INT] }
  | .chPins => { base := 0x420008, n1 := 512, s1 := 64, fields := [F.chPins_PINBASE, F.chPins_PINCNT, F.chPins_INOFF, F.chPins_JPIN] }
  | .chExec => { base := 0x42000C, n1 := 512, s1 := 64, fields := [F.chExec_PC, F.chExec_ORIGIN] }
  | .chTxf => { base := 0x420010, n1 := 512, s1 := 64, fields := [F.chTxf_DATA] }
  | .chRxf => { base := 0x420014, n1 := 512, s1 := 64, fields := [F.chRxf_DATA] }
  | .chFstat => { base := 0x420018, n1 := 512, s1 := 64, fields := [F.chFstat_OLVL, F.chFstat_ILVL, F.chFstat_OTHR, F.chFstat_ITHR, F.chFstat_TXOVF, F.chFstat_RXUNF, F.chFstat_FLUSH] }
  | .chInj => { base := 0x42001C, n1 := 512, s1 := 64, fields := [F.chInj_INSTR, F.chInj_RESUME] }
  | .chStat => { base := 0x420020, n1 := 512, s1 := 64, fields := [F.chStat_STATE, F.chStat_GATE, F.chStat_TOF, F.chStat_EVL, F.chStat_OCNT, F.chStat_ICNT, F.chStat_INJPEND, F.chStat_SAVED, F.chStat_INJOVF, F.chStat_INJABN] }
  | .chIrq => { base := 0x420024, n1 := 512, s1 := 64, fields := [F.chIrq_RAISE, F.chIrq_OLOW, F.chIrq_IHIGH, F.chIrq_STOPPED, F.chIrq_ENA] }
  | .chEvt => { base := 0x420028, n1 := 512, s1 := 64, fields := [F.chEvt_SET] }
  | .chSide => { base := 0x42002C, n1 := 512, s1 := 64, fields := [F.chSide_SIDEBASE, F.chSide_SIDECNT] }
  | .chSpat0 => { base := 0x420030, n1 := 512, s1 := 64, fields := [F.chSpat0_PAT1, F.chSpat0_PAT2, F.chSpat0_PAT3] }
  | .chSpat1 => { base := 0x420034, n1 := 512, s1 := 64, fields := [F.chSpat1_PAT4, F.chSpat1_PAT5, F.chSpat1_PAT6, F.chSpat1_PAT7] }
  | .porchSync => { base := 0x430000, fields := [F.porchSync_GROUPS, F.porchSync_ENABLE] }
  | .porchClaim => { base := 0x430004, fields := [F.porchClaim_RES, F.porchClaim_CLAIMANT, F.porchClaim_LAUNCH, F.porchClaim_CHAN, F.porchClaim_MULTI, F.porchClaim_CLAIM_FAIL] }
  | .annexCfgCtl => { base := 0x500000, fields := [F.annexCfgCtl_OWNER, F.annexCfgCtl_RESYNC] }
  | .annexCfgData => { base := 0x500004, fields := [F.annexCfgData_WORD] }
  | .annexCfgRdata => { base := 0x500008, fields := [F.annexCfgRdata_WORD] }
  | .annexCfgStat => { base := 0x50000C, fields := [F.annexCfgStat_LAST, F.annexCfgStat_DISCARD, F.annexCfgStat_RDUNF, F.annexCfgStat_DROP, F.annexCfgStat_WLVL, F.annexCfgStat_ERRCNT, F.annexCfgStat_ERRV, F.annexCfgStat_MULTI] }
  | .annexCfgErr => { base := 0x500010, fields := [F.annexCfgErr_HEADER] }
  | .annexRstate0 => { base := 0x500014, fields := (List.range 16).map F.annexRstate0_STATE }
  | .annexRstate1 => { base := 0x500018, fields := (List.range 16).map F.annexRstate1_STATE }
  | .annexConflict => { base := 0x50001C, fields := [F.annexConflict_LINE, F.annexConflict_GN, F.annexConflict_REGA, F.annexConflict_REGB, F.annexConflict_CAPV, F.annexConflict_DRIVE_CONFLICT] }
  | .annexWtmo => { base := 0x500020, fields := [F.annexWtmo_TIMEOUT] }
  | .annexWstat => { base := 0x500024, fields := [F.annexWstat_TIMEOUTS, F.annexWstat_LATE, F.annexWstat_CLR] }
  | .annexClaim => { base := 0x500028, fields := [F.annexClaim_RES, F.annexClaim_REGION, F.annexClaim_CLAIMANT, F.annexClaim_MULTI, F.annexClaim_CLAIM_FAIL] }
  | .annexImgSrc => { base := 0x500030, fields := [F.annexImgSrc_ADDR] }
  | .annexImgCtl => { base := 0x500034, fields := [F.annexImgCtl_GO] }
  | .annexImgStat => { base := 0x500038, fields := [F.annexImgStat_BUSY, F.annexImgStat_DONE, F.annexImgStat_ERR] }
  | .annexSafe => { base := 0x500100, n1 := 32, s1 := 4, fields := (List.range 12).map F.annexSafe_SAFE }
  | .cellarCfg => { base := 0x600000, fields := [F.cellarCfg_ILV] }
  | .cellarPwr0 => { base := 0x600004, fields := (List.range 16).map F.cellarPwr0_BANK }
  | .cellarPwr1 => { base := 0x600008, fields := (List.range 16).map F.cellarPwr1_BANK }
  | .cellarWake => { base := 0x60000C, fields := [F.cellarWake_WAKING] }
  | .cellarEcc => { base := 0x600010, fields := [F.cellarEcc_CECNT, F.cellarEcc_CETHR, F.cellarEcc_CLR] }
  | .cellarEccaddr => { base := 0x600014, fields := [F.cellarEccaddr_OFFSET, F.cellarEccaddr_LAND, F.cellarEccaddr_MULTI, F.cellarEccaddr_VALID] }
  | .cellarStarve => { base := 0x600018, fields := [F.cellarStarve_LIMIT] }
  | .cellarStarveStat => { base := 0x60001C, fields := [F.cellarStarveStat_CLASS, F.cellarStarveStat_BANK, F.cellarStarveStat_MULTI, F.cellarStarveStat_VALID] }
  | .cellarClaim => { base := 0x600020, fields := [F.cellarClaim_CHAN, F.cellarClaim_CLAIMANT, F.cellarClaim_LAUNCH, F.cellarClaim_MULTI, F.cellarClaim_CLAIM_FAIL] }
  | .cellarTags => { base := 0x600024, fields := [F.cellarTags_INUSE, F.cellarTags_HIGH, F.cellarTags_CLRHIGH] }
  | .cellarTaglim => { base := 0x600028, fields := [F.cellarTaglim_DMAMAX] }
  | .cellarEccreq => { base := 0x60002C, fields := [F.cellarEccreq_REQ] }
  | .cellarLanderr => { base := 0x600030, fields := [F.cellarLanderr_ADDR, F.cellarLanderr_SRC, F.cellarLanderr_COUNT, F.cellarLanderr_MULTI, F.cellarLanderr_LAND_COLLIDE] }
  | .cellarPlanCtl => { base := 0x600040, fields := [F.cellarPlanCtl_MODE, F.cellarPlanCtl_GAP] }
  | .cellarPlanStat => { base := 0x600044, fields := [F.cellarPlanStat_BANK, F.cellarPlanStat_WINDOW, F.cellarPlanStat_ABANDON, F.cellarPlanStat_PASSES] }
  | .cellarPlanFail => { base := 0x600048, fields := [F.cellarPlanFail_BANK, F.cellarPlanFail_ROW, F.cellarPlanFail_BIT, F.cellarPlanFail_MULTI, F.cellarPlanFail_VALID] }
  | .cellarPlanBanks => { base := 0x60004C, fields := [F.cellarPlanBanks_BANKS] }
  | .dmaCtl => { base := 0x610000, n1 := 48, s1 := 32, fields := [F.dmaCtl_OWNER, F.dmaCtl_START, F.dmaCtl_ABORT, F.dmaCtl_PRI] }
  | .dmaDesc => { base := 0x610004, n1 := 48, s1 := 32, fields := [F.dmaDesc_ADDR] }
  | .dmaStat => { base := 0x610008, n1 := 48, s1 := 32, fields := [F.dmaStat_STATE, F.dmaStat_PEND, F.dmaStat_OVR, F.dmaStat_DONE, F.dmaStat_ERR, F.dmaStat_LATE] }
  | .dmaTmo => { base := 0x61000C, n1 := 48, s1 := 32, fields := [F.dmaTmo_TIMEOUT] }
  | .dmaCur => { base := 0x610010, n1 := 48, s1 := 32, fields := [F.dmaCur_ADDR] }
  | .linkCtl => { base := 0x700000, fields := [F.linkCtl_ID, F.linkCtl_IDV, F.linkCtl_RACC, F.linkCtl_LOCK] }
  | .linkTree => { base := 0x700004, fields := [F.linkTree_UP, F.linkTree_DOWN, F.linkTree_DEPTH] }
  | .linkSync => { base := 0x700008, fields := [F.linkSync_PER, F.linkSync_EN] }
  | .linkSyncRxlo => { base := 0x70000C, fields := [F.linkSyncRxlo_COUNT] }
  | .linkSyncRxhi => { base := 0x700010, fields := [F.linkSyncRxhi_COUNT] }
  | .linkSyncAtlo => { base := 0x700014, fields := [F.linkSyncAtlo_COUNT] }
  | .linkSyncAthi => { base := 0x700018, fields := [F.linkSyncAthi_COUNT] }
  | .linkBulk => { base := 0x700020, fields := [F.linkBulk_TMO] }
  | .linkBstat => { base := 0x700024, fields := [F.linkBstat_DEV, F.linkBstat_STATUS, F.linkBstat_TIMEOUT, F.linkBstat_WRITE, F.linkBstat_PORT, F.linkBstat_LATE, F.linkBstat_MULTI, F.linkBstat_VALID] }
  | .linkBaddr => { base := 0x700028, fields := [F.linkBaddr_ADDR] }
  | .linkEvctl => { base := 0x700030, fields := [F.linkEvctl_CODE, F.linkEvctl_MASK] }
  | .linkEvqlo => { base := 0x700034, fields := [F.linkEvqlo_EVENT] }
  | .linkEvqhi => { base := 0x700038, fields := [F.linkEvqhi_PAYLOAD] }
  | .linkEvstat => { base := 0x70003C, fields := [F.linkEvstat_LEVEL, F.linkEvstat_EN, F.linkEvstat_OVF, F.linkEvstat_CLR] }
  | .linkSchimCtl => { base := 0x700040, fields := [F.linkSchimCtl_TMO] }
  | .linkSchimIn => { base := 0x700044, fields := [F.linkSchimIn_COUNT, F.linkSchimIn_OR, F.linkSchimIn_ROUND] }
  | .linkSchimOut => { base := 0x700048, fields := [F.linkSchimOut_COUNT, F.linkSchimOut_OR, F.linkSchimOut_ROUND] }
  | .linkSchimStat => { base := 0x70004C, fields := [F.linkSchimStat_BUSY, F.linkSchimStat_DONE, F.linkSchimStat_TIMEOUT, F.linkSchimStat_ERR, F.linkSchimStat_LATE] }
  | .linkSeamCtl => { base := 0x700060, fields := [F.linkSeamCtl_OWNER, F.linkSeamCtl_WPORT, F.linkSeamCtl_EPORT, F.linkSeamCtl_START, F.linkSeamCtl_AUTO, F.linkSeamCtl_ENTRY] }
  | .linkSeamSrc => { base := 0x700064, fields := [F.linkSeamSrc_RBASE, F.linkSeamSrc_NPL, F.linkSeamSrc_RDEPTH, F.linkSeamSrc_SLOT] }
  | .linkSeamStat => { base := 0x700068, fields := [F.linkSeamStat_BUSY, F.linkSeamStat_DONE, F.linkSeamStat_OVR, F.linkSeamStat_TXERR, F.linkSeamStat_RXDROP] }
  | .linkClaim => { base := 0x700070, fields := [F.linkClaim_RES, F.linkClaim_CLAIMANT, F.linkClaim_LAUNCH, F.linkClaim_MULTI, F.linkClaim_CLAIM_FAIL] }
  | .linkMgRoute => { base := 0x700080, fields := [F.linkMgRoute_ROUTE, F.linkMgRoute_RHOPS] }
  | .linkMgAddr => { base := 0x700084, fields := [F.linkMgAddr_ADDR] }
  | .linkMgData => { base := 0x700088, fields := [F.linkMgData_DATA] }
  | .linkMgCtl => { base := 0x70008C, fields := [F.linkMgCtl_GO, F.linkMgCtl_WRITE, F.linkMgCtl_BUSY, F.linkMgCtl_DONE, F.linkMgCtl_STATUS, F.linkMgCtl_TIMEOUT] }
  | .linkRwin => { base := 0x700100, n1 := 16, s1 := 4, fields := [F.linkRwin_OWNER, F.linkRwin_DEV, F.linkRwin_RBASE, F.linkRwin_VALID] }
  | .linkRt => { base := 0x700200, n1 := 128, s1 := 4, fields := (List.range 8).map F.linkRt_ENTRY }
  | .kpCtl => { base := 0x710000, n1 := 6, s1 := 64, fields := [F.kpCtl_EN, F.kpCtl_JOIN, F.kpCtl_DLYGO, F.kpCtl_RETRAIN] }
  | .kpStat => { base := 0x710004, n1 := 6, s1 := 64, fields := [F.kpStat_STATE, F.kpStat_LOCK0, F.kpStat_LOCK1, F.kpStat_DLYV, F.kpStat_STCHG, F.kpStat_ERRV, F.kpStat_BERR, F.kpStat_EVQ] }
  | .kpPeer => { base := 0x710008, n1 := 6, s1 := 64, fields := [F.kpPeer_PORT, F.kpPeer_ID, F.kpPeer_IDV, F.kpPeer_JOIN, F.kpPeer_VALID] }
  | .kpDly => { base := 0x71000C, n1 := 6, s1 := 64, fields := [F.kpDly_DLY] }
  | .kpErr => { base := 0x710010, n1 := 6, s1 := 64, fields := [F.kpErr_CRCERR, F.kpErr_REPLAY, F.kpErr_EVBAD, F.kpErr_DROP, F.kpErr_CLR] }
  | .pcieId => { base := 0x800000, fields := [F.pcieId_VID, F.pcieId_REV] }
  | .pcieSubsys => { base := 0x800004, fields := [F.pcieSubsys_SVID, F.pcieSubsys_SSID] }
  | .pcieCtl => { base := 0x800008, fields := [F.pcieCtl_LOCK] }
  | .pcieLink => { base := 0x80000C, fields := [F.pcieLink_SPEED, F.pcieLink_WIDTH, F.pcieLink_UP, F.pcieLink_L1, F.pcieLink_D3, F.pcieLink_STCHG, F.pcieLink_DCHG] }
  | .pcieObaselo => { base := 0x800010, fields := [F.pcieObaselo_ADDR] }
  | .pcieObasehi => { base := 0x800014, fields := [F.pcieObasehi_ADDR] }
  | .pcieOtmo => { base := 0x800018, fields := [F.pcieOtmo_TMO] }
  | .pcieErr => { base := 0x80001C, fields := [F.pcieErr_KIND, F.pcieErr_LATE, F.pcieErr_MULTI, F.pcieErr_VALID] }
  | .pcieErraddr => { base := 0x800020, fields := [F.pcieErraddr_ADDR] }
  | .pcieHdb => { base := 0x800024, fields := [F.pcieHdb_BELL] }
  | .pcieHdbSet => { base := 0x800028, fields := [F.pcieHdbSet_BELL] }
  | .pcieBoot => { base := 0x80002C, fields := [F.pcieBoot_GO, F.pcieBoot_TAKE] }
  | .pcieBootaddr => { base := 0x800030, fields := [F.pcieBootaddr_ADDR] }
  | .pcieAtt => { base := 0x800034, fields := [F.pcieAtt_ADDR] }
  | .pcieAttctl => { base := 0x800038, fields := [F.pcieAttctl_GO, F.pcieAttctl_BUSY, F.pcieAttctl_DONE, F.pcieAttctl_ERR] }
  | .sgCtl => { base := 0x900000, n1 := 8, s1 := 64, fields := [F.sgCtl_EN, F.sgCtl_LEVEL, F.sgCtl_TERM, F.sgCtl_NL, F.sgCtl_MAPMODE, F.sgCtl_BPW, F.sgCtl_TRAINGO] }
  | .sgMap => { base := 0x900004, n1 := 8, s1 := 64, fields := (List.range 8).map F.sgMap_LMAP }
  | .sgTrain => { base := 0x90000C, n1 := 8, s1 := 64, fields := [F.sgTrain_TRAIN] }
  | .sgCode => { base := 0x900010, n1 := 8, s1 := 64, fields := [F.sgCode_SOL, F.sgCode_EOL] }
  | .sgGate => { base := 0x900014, n1 := 8, s1 := 64, fields := [F.sgGate_MODE, F.sgGate_CH] }
  | .sgStat => { base := 0x900018, n1 := 8, s1 := 64, fields := [F.sgStat_LOCK, F.sgStat_TDONE, F.sgStat_ALIGNED, F.sgStat_SKEWFAIL, F.sgStat_EYEFAIL, F.sgStat_WORDFAIL, F.sgStat_GATED] }
  | .sgLane => { base := 0x900020, n1 := 8, s1 := 64, n2 := 8, s2 := 4, fields := [F.sgLane_PHASE, F.sgLane_EYE, F.sgLane_SKEW] }
  | .swIctl => { base := 0x901000, n1 := 8, s1 := 64, fields := [F.swIctl_OWNER, F.swIctl_EN, F.swIctl_RELCHK, F.swIctl_OVRPOL, F.swIctl_PXCNT] }
  | .swWin => { base := 0x901004, n1 := 8, s1 := 64, fields := [F.swWin_IBASE, F.swWin_BPP, F.swWin_PSHIFT, F.swWin_IDEPTH] }
  | .swLine => { base := 0x901008, n1 := 8, s1 := 64, fields := [F.swLine_NEXT, F.swLine_QUEUED, F.swLine_SLOT, F.swLine_MARK] }
  | .swRel => { base := 0x90100C, n1 := 8, s1 := 64, fields := [F.swRel_RELEASED] }
  | .swStat => { base := 0x901010, n1 := 8, s1 := 64, fields := [F.swStat_OVRCNT, F.swStat_ORPHAN, F.swStat_CLR] }
  | .swHist => { base := 0x901020, n1 := 8, s1 := 64, n2 := 4, s2 := 4, fields := [F.swHist_LINE, F.swHist_COMPLETE, F.swHist_SHORT, F.swHist_LONG, F.swHist_SKEW, F.swHist_COLLIDED, F.swHist_OVERWROTE, F.swHist_FATE] }
  | .soCtl => { base := 0x902000, n1 := 8, s1 := 64, fields := [F.soCtl_OWNER, F.soCtl_MODE, F.soCtl_RING, F.soCtl_VWIDTH, F.soCtl_NPL] }
  | .soSrc => { base := 0x902004, n1 := 8, s1 := 64, fields := [F.soSrc_FPLANE, F.soSrc_VBASE, F.soSrc_VSTRIDE] }
  | .soLine => { base := 0x902008, n1 := 8, s1 := 64, fields := [F.soLine_LINE] }
  | .soDst => { base := 0x90200C, n1 := 8, s1 := 64, fields := [F.soDst_ADDR] }
  | .soStat => { base := 0x902010, n1 := 8, s1 := 64, fields := [F.soStat_STATE, F.soStat_CAPT, F.soStat_DONE, F.soStat_OVR, F.soStat_TRUNC, F.soStat_ERR, F.soStat_FCNT] }
  | .soLim => { base := 0x902014, n1 := 8, s1 := 64, fields := [F.soLim_MAXREC] }
  | .ringBase => { base := 0x903000, n1 := 8, s1 := 32, fields := [F.ringBase_ADDR] }
  | .ringSize => { base := 0x903004, n1 := 8, s1 := 32, fields := [F.ringSize_SIZE] }
  | .ringWptr => { base := 0x903008, n1 := 8, s1 := 32, fields := [F.ringWptr_WPTR] }
  | .ringRptr => { base := 0x90300C, n1 := 8, s1 := 32, fields := [F.ringRptr_RPTR] }
  | .ringStat => { base := 0x903010, n1 := 8, s1 := 32, fields := [F.ringStat_DROP, F.ringStat_FULL, F.ringStat_CLR] }
  | .sensorOstart => { base := 0x904000, fields := [F.sensorOstart_WMASK, F.sensorOstart_START, F.sensorOstart_ABORT] }
  | .sensorClaim => { base := 0x904004, fields := [F.sensorClaim_RES, F.sensorClaim_CLAIMANT, F.sensorClaim_LAUNCH, F.sensorClaim_MULTI, F.sensorClaim_CLAIM_FAIL] }
  | .sensorHpres => { base := 0x904008, fields := [F.sensorHpres_PRES, F.sensorHpres_CHG, F.sensorHpres_FILT] }
  | .asBootStat => { base := 0xA00000, fields := [F.asBootStat_BOOTSEL, F.asBootStat_STRAPERR, F.asBootStat_PHASE, F.asBootStat_ERR, F.asBootStat_SOURCE, F.asBootStat_RETRY, F.asBootStat_LOCKOUT, F.asBootStat_FAIL, F.asBootStat_WDROP] }
  | .asBootImg => { base := 0xA00004, fields := [F.asBootImg_ADDR] }
  | .asBootInfo => { base := 0xA00008, fields := [F.asBootInfo_SVN, F.asBootInfo_KEYSLOT] }
  | .asBootVer => { base := 0xA0000C, fields := [F.asBootVer_IMGVER] }
  | .asBootPush => { base := 0xA00010, fields := [F.asBootPush_GO, F.asBootPush_ADDR] }
  | .asBspiCmd => { base := 0xA00100, fields := [F.asBspiCmd_OP, F.asBspiCmd_ADDRB, F.asBspiCmd_DUMMY, F.asBspiCmd_WRITE, F.asBspiCmd_QUAD, F.asBspiCmd_LEN, F.asBspiCmd_GO] }
  | .asBspiAddr => { base := 0xA00104, fields := [F.asBspiAddr_ADDR] }
  | .asBspiBuf => { base := 0xA00108, fields := [F.asBspiBuf_ADDR] }
  | .asBspiStat => { base := 0xA0010C, fields := [F.asBspiStat_BUSY, F.asBspiStat_DONE, F.asBspiStat_ERR] }
  | .asMcSrc => { base := 0xA01000, fields := [F.asMcSrc_ADDR] }
  | .asMcCtl => { base := 0xA01004, fields := [F.asMcCtl_TARGET, F.asMcCtl_GO] }
  | .asMcStat => { base := 0xA01008, fields := [F.asMcStat_BUSY, F.asMcStat_DONE, F.asMcStat_ERR, F.asMcStat_CSVALID] }
  | .asMcVer => { base := 0xA0100C, fields := [F.asMcVer_MCVER] }
  | .asMcInfo => { base := 0xA01010, fields := [F.asMcInfo_MTDEPTH, F.asMcInfo_SVN, F.asMcInfo_LOADS] }
  | .asMcPerr => { base := 0xA01014, fields := [F.asMcPerr_WORD, F.asMcPerr_SEQ, F.asMcPerr_MULTI, F.asMcPerr_VALID] }
  | .asMcRomver => { base := 0xA01018, fields := [F.asMcRomver_ROMVER] }
  | .asMcDigest => { base := 0xA01040, n1 := 16, s1 := 4, fields := [F.asMcDigest_BYTES] }
  | .asOtp => { base := 0xA02000, n1 := 128, s1 := 4, fields := [F.asOtp_WORD] }
  | .asOtpCtl => { base := 0xA02200, fields := [F.asOtpCtl_OP, F.asOtpCtl_GO, F.asOtpCtl_VALUE] }
  | .asOtpData => { base := 0xA02204, fields := [F.asOtpData_DATA] }
  | .asOtpStat => { base := 0xA02208, fields := [F.asOtpStat_BUSY, F.asOtpStat_DONE, F.asOtpStat_ERR] }
  | .asMeas => { base := 0xA03000, n1 := 8, s1 := 64, n2 := 16, s2 := 4, fields := [F.asMeas_BYTES] }
  | .asExtd => { base := 0xA03200, n1 := 16, s1 := 4, fields := [F.asExtd_BYTES] }
  | .asExtctl => { base := 0xA03240, fields := [F.asExtctl_IDX, F.asExtctl_GO, F.asExtctl_BUSY, F.asExtctl_DONE, F.asExtctl_REFUSED, F.asExtctl_MLOCK] }
  | .asAttReq => { base := 0xA03300, fields := [F.asAttReq_ADDR] }
  | .asAttCtl => { base := 0xA03304, fields := [F.asAttCtl_GO, F.asAttCtl_BUSY, F.asAttCtl_DONE, F.asAttCtl_REMOTE, F.asAttCtl_DEV, F.asAttCtl_ERR] }
  | .asAttSrv => { base := 0xA03308, fields := [F.asAttSrv_SERVED, F.asAttSrv_NEW, F.asAttSrv_NOTREADY] }
  | .lodgeCtl => { base := 0xB00000, fields := [F.lodgeCtl_HFILT, F.lodgeCtl_ADDR4, F.lodgeCtl_LOCK] }
  | .lodgeCmd => { base := 0xB00004, fields := [F.lodgeCmd_ACT] }
  | .lodgeStat => { base := 0xB00008, fields := [F.lodgeStat_SAFE, F.lodgeStat_FAULTN, F.lodgeStat_RELEASE, F.lodgeStat_FREL, F.lodgeStat_HOLDUP, F.lodgeStat_CARRY, F.lodgeStat_RECBUSY, F.lodgeStat_ACTED, F.lodgeStat_CAUSE, F.lodgeStat_LOST, F.lodgeStat_HOLDF, F.lodgeStat_TWARN, F.lodgeStat_TTRIP] }
  | .lodgeFslot => { base := 0xB00010, fields := [F.lodgeFslot_NEXT, F.lodgeFslot_FULL, F.lodgeFslot_BASE] }
  | .lodgeBootcnt => { base := 0xB00014, fields := [F.lodgeBootcnt_COUNT] }
  | .lodgeUser => { base := 0xB00018, fields := [F.lodgeUser_DATA] }
  | .lodgeQspi => { base := 0xB0001C, fields := [F.lodgeQspi_WREN, F.lodgeQspi_PP, F.lodgeQspi_SUSP, F.lodgeQspi_RESM] }
  | .lodgeTherm => { base := 0xB00020, fields := [F.lodgeTherm_TEMP, F.lodgeTherm_WARN, F.lodgeTherm_TRIP] }
  | .lodgeAct => { base := 0xB00040, n1 := 16, s1 := 4, fields := [F.lodgeAct_ACT] }
  | .wdCfg => { base := 0xB00100, n1 := 4, s1 := 16, fields := [F.wdCfg_EN, F.wdCfg_WARN, F.wdCfg_EXPIRE] }
  | .wdKick => { base := 0xB00104, n1 := 4, s1 := 16, fields := [F.wdKick_KEY] }
  | .wdStat => { base := 0xB00108, n1 := 4, s1 := 16, fields := [F.wdStat_C, F.wdStat_EXP, F.wdStat_BADKICK] }
  | .gpCtl => { base := 0xC00000, n1 := 384, s1 := 8, fields := [F.gpCtl_PULL, F.gpCtl_KEEPER, F.gpCtl_SLEW, F.gpCtl_OE, F.gpCtl_OUT, F.gpCtl_SAFE] }
  | .gpOwn => { base := 0xC00004, n1 := 384, s1 := 8, fields := [F.gpOwn_AGENT, F.gpOwn_HOLDER, F.gpOwn_ID] }
  | .pinsIn => { base := 0xC01000, n1 := 12, s1 := 4, fields := [F.pinsIn_LEVEL] }
  | .bankStat => { base := 0xC01100, n1 := 12, s1 := 4, fields := [F.bankStat_VLVL, F.bankStat_CHG] }
  | .pinsClaim => { base := 0xC01200, fields := [F.pinsClaim_RES, F.pinsClaim_CLAIMANT, F.pinsClaim_KIND, F.pinsClaim_MULTI, F.pinsClaim_CLAIM_FAIL] }
  | .pinsCtl => { base := 0xC01204, fields := [F.pinsCtl_SAFELOCK] }

/-- The families of each 1 MiB block (R568). -/
def blockFams : Nat → List Fam
  | 0 => [.sysId, .sysRegerr, .sysSeqStat, .sysSeqEvl, .sysSeqEvc, .sysClkstat, .sysSsc, .sysPwrctl, .sysPwrstat, .sysWpwr, .sysWakelo, .sysWakehi, .sysRstcause, .sysSeqrel, .sysSeqEntry]
  | 1 => [.dbSrc, .dbRaw, .dbInsvc, .dbClaim, .dbComplete, .dbPend, .dbCtl, .dbErr]
  | 2 => [.mantelCtl, .mantelCntlo, .mantelCnthi, .mantelSteplo, .mantelStephi, .mantelSync, .mantelSynccfg, .mantelClaim, .mantelGstop, .encCtl, .encPos, .encZpos, .encTlo, .encThi, .encStat, .lcCtl, .lcRatio, .lcMinper, .lcLastlo, .lcLasthi, .lcStat, .grpCtl, .grpSlo, .grpStat, .outCtl, .leCtl, .leTlo, .leThi, .lePer, .leArg]
  | 3 => [.arrayTopo, .arrayBound, .arrayWown, .arrayClaim, .arrayHaloStat, .wingPerr, .wingColcnt, .wingCnt, .wingFirst, .chimCnt, .chimFirst]
  | 4 => [.peCtl, .peFlags, .peFault, .peFaultw, .peProg, .chCtl, .chDiv, .chPins, .chExec, .chTxf, .chRxf, .chFstat, .chInj, .chStat, .chIrq, .chEvt, .chSide, .chSpat0, .chSpat1, .porchSync, .porchClaim]
  | 5 => [.annexCfgCtl, .annexCfgData, .annexCfgRdata, .annexCfgStat, .annexCfgErr, .annexRstate0, .annexRstate1, .annexConflict, .annexWtmo, .annexWstat, .annexClaim, .annexImgSrc, .annexImgCtl, .annexImgStat, .annexSafe]
  | 6 => [.cellarCfg, .cellarPwr0, .cellarPwr1, .cellarWake, .cellarEcc, .cellarEccaddr, .cellarStarve, .cellarStarveStat, .cellarClaim, .cellarTags, .cellarTaglim, .cellarEccreq, .cellarLanderr, .cellarPlanCtl, .cellarPlanStat, .cellarPlanFail, .cellarPlanBanks, .dmaCtl, .dmaDesc, .dmaStat, .dmaTmo, .dmaCur]
  | 7 => [.linkCtl, .linkTree, .linkSync, .linkSyncRxlo, .linkSyncRxhi, .linkSyncAtlo, .linkSyncAthi, .linkBulk, .linkBstat, .linkBaddr, .linkEvctl, .linkEvqlo, .linkEvqhi, .linkEvstat, .linkSchimCtl, .linkSchimIn, .linkSchimOut, .linkSchimStat, .linkSeamCtl, .linkSeamSrc, .linkSeamStat, .linkClaim, .linkMgRoute, .linkMgAddr, .linkMgData, .linkMgCtl, .linkRwin, .linkRt, .kpCtl, .kpStat, .kpPeer, .kpDly, .kpErr]
  | 8 => [.pcieId, .pcieSubsys, .pcieCtl, .pcieLink, .pcieObaselo, .pcieObasehi, .pcieOtmo, .pcieErr, .pcieErraddr, .pcieHdb, .pcieHdbSet, .pcieBoot, .pcieBootaddr, .pcieAtt, .pcieAttctl]
  | 9 => [.sgCtl, .sgMap, .sgTrain, .sgCode, .sgGate, .sgStat, .sgLane, .swIctl, .swWin, .swLine, .swRel, .swStat, .swHist, .soCtl, .soSrc, .soLine, .soDst, .soStat, .soLim, .ringBase, .ringSize, .ringWptr, .ringRptr, .ringStat, .sensorOstart, .sensorClaim, .sensorHpres]
  | 10 => [.asBootStat, .asBootImg, .asBootInfo, .asBootVer, .asBootPush, .asBspiCmd, .asBspiAddr, .asBspiBuf, .asBspiStat, .asMcSrc, .asMcCtl, .asMcStat, .asMcVer, .asMcInfo, .asMcPerr, .asMcRomver, .asMcDigest, .asOtp, .asOtpCtl, .asOtpData, .asOtpStat, .asMeas, .asExtd, .asExtctl, .asAttReq, .asAttCtl, .asAttSrv]
  | 11 => [.lodgeCtl, .lodgeCmd, .lodgeStat, .lodgeFslot, .lodgeBootcnt, .lodgeUser, .lodgeQspi, .lodgeTherm, .lodgeAct, .wdCfg, .wdKick, .wdStat]
  | 12 => [.gpCtl, .gpOwn, .pinsIn, .bankStat, .pinsClaim, .pinsCtl]
  | _ => []

end Sys2Proof.Machine
end

