-- ==== Sys2Proof/Machine/State.lean ====
section
/-! DEFINITION. The state of the PFX-6541: plain data. Registers stand in one sparse table by their offset from
0x4000_0000 (an unlisted register reads as its reset value); what is no register has a field of its own. -/

namespace Sys2Proof.Machine

/-- Why the machine stops with a fault. No command of this model raises one: every command the spec describes takes a
next state. -/
inductive Fault where
  /-- Never raised; safe. -/
  | unreachable
  deriving DecidableEq, Repr

/-- Why a command has no meaning. -/
inductive Refusal where
  /-- Raised by `exec` for a command whose meaning is not written yet; safe. -/
  | notModelled (mnemonic : String)
  deriving DecidableEq, Repr

/-! ### Registers -/

/-- One register: its family and its member numbers. -/
structure Reg where
  fam : Fam
  i : Nat := 0
  j : Nat := 0
  deriving DecidableEq, Repr

/-- Offset of a register from 0x4000_0000. -/
def Reg.off (r : Reg) : Nat := r.fam.info.base + r.fam.info.s1 * r.i + r.fam.info.s2 * r.j

/-- The member of a family at an offset, if there is one. -/
def Fam.at (f : Fam) (off : Nat) : Option Reg :=
  let x := f.info
  if off < x.base then none
  else
    let d := off - x.base
    let i := if x.s1 = 0 then 0 else if x.n2 = 1 ∨ x.s2 < x.s1 then Nat.min (d / x.s1) (x.n1 - 1) else 0
    let e := d - x.s1 * i
    let j := if x.s2 = 0 then 0 else Nat.min (e / x.s2) (x.n2 - 1)
    if x.s1 * i + x.s2 * j = d then some ⟨f, i, j⟩ else none

/-- The register at an offset (R568); none where the block holds no register (R8). -/
def Reg.ofOff (off : Nat) : Option Reg := (blockFams (off / 0x100000)).findSome? fun f => f.at off

/-- Actions of the Lodge causes after reset (R460). -/
def lodgeActReset (c : Nat) : Nat :=
  if c = 2 then 0b01101 else if c = 3 ∨ c = 4 then 0b01111 else if 8 ≤ c then 0b01100 else 0

/-- The reset word of a register: its fields' reset values (register tables of the spec). -/
def Reg.reset (r : Reg) : Word :=
  let base := r.fam.info.fields.foldl (fun w f => setBits w f.lo f.width f.reset) (0 : Word)
  match r.fam with
  | .lodgeAct => setBits base 0 5 (lodgeActReset r.i)
  | _ => base

/-- What an unlisted offset of the register table reads as. -/
def regDefault (off : Nat) : Word :=
  match Reg.ofOff off with
  | some r => r.reset
  | none => 0

/-! ### Array and sequencers (02, 03, 04, 05, 07, 08) -/

/-- One plane of one unit: bit i is PE i of the wing, or of the halo in the low 64 bits (R6, R29). -/
abbrev Plane := BitVec 8192

/-- The PE registers of one unit (R31), one bit per PE. -/
structure PeRegs where
  c : Plane := 0
  f : Plane := 0
  x : Plane := 0
  t : Plane := 0
  n : Plane := 0
  deriving DecidableEq, Repr

/-- Array instructions (R76) and lane instructions (R101) as routines. -/
inductive LaneOp where
  | ladd | lsub | lmul
  | lmulf (signed : Bool) | lmin (signed : Bool) | lmax (signed : Bool)
  | lfadd | lfsub | lfmul | lfma | lfmin | lfmax
  | lfcmp (cc : Fin 8)
  | lfrcp | lfcvtFi | lfcvtIf
  deriving DecidableEq, Repr

inductive ArrOp where
  | aadd | aaddi | asub | asubi | amul | acmp | acmpi | asel
  | alog (tt : Fin 16) | aset | abit (tt : Fin 16) | ashf (dir : ShiftDir) | acnt | aloc
  | lane (op : LaneOp) (half : Bool)
  deriving DecidableEq, Repr

/-- One operand slot of a routine (R229, offsets 0x10 to 0x1C): base as formed under R68, pointer, stride. -/
structure Slot where
  base : Int
  ptr : Fin 8
  stride : Nat
  deriving DecidableEq, Repr

/-- The fields of a micro-trap frame that the loaded microcode gives (R229), as a changed frame held them, with the OFFSET
beside them. -/
structure FrameMicro where
  lane : Bool
  upc : BitVec 12
  routine : BitVec 16
  row : Nat
  priv : BitVec 128
  offset : Nat
  deriving DecidableEq, Repr

/-- An array or lane instruction in progress: what the micro-trap frame holds of it (R229), and the partial load of a
lane instruction (R100). -/
structure Routine where
  op : ArrOp
  addr : Word
  len : Nat
  mask : BitVec 8
  mode : StepMode
  opword : Word
  rep : Bool
  repa : Bool
  atom : Bool
  te : Bool
  d : Option Slot
  a : Option Slot
  b : Option Slot
  c : Option Slot
  gval : Word
  rm : Nat
  sub : Bool
  lfp : Nat
  /-- the limit of ATOM has been reached: it holds nothing back any more (R139) -/
  atomOver : Bool := false
  /-- firmware wrote the frame while it was suspended: its results are free values (R231), and this is what the frame held of
  the microcode's own fields -/
  altered : Option FrameMicro := none
  /-- the iteration has passed its REP test and its checks -/
  begun : Bool := false
  /-- no iteration has completed yet -/
  first : Bool := true
  /-- micro-operations of the current iteration already issued -/
  offset : Nat := 0
  /-- loaded planes, keyed by (operand, bit, unit) -/
  buf : Sparse Plane := []
  deriving DecidableEq, Repr

/-- A suspended routine: the kept mask (R231), its depth, its frame as the device wrote it, and whether it spilled. -/
structure Suspended where
  routine : Routine
  depth : Nat
  frameAddr : Nat
  frame : List Byte
  spilled : Bool
  deriving DecidableEq, Repr

/-- A lane instruction behind its load stage (R95). -/
structure LaneJob where
  op : LaneOp
  half : Bool
  mask : BitVec 8
  d : Slot
  lfp : Nat
  rm : Nat
  sub : Bool
  buf : Sparse Plane
  deriving DecidableEq, Repr

/-- A Chimney capture in flight (R47, R48): its executing wings, and count and first PE (within the wing) of each. -/
structure Capture where
  mask : BitVec 8
  wings : List (Nat × Nat × Option Nat)
  deriving DecidableEq, Repr

/-- STATE of SYS_SEQ[h]_STAT (R144). -/
inductive RunState where
  | held | running | waiting | halted
  deriving DecidableEq, Repr

/-- One entry of the write buffer (R183): address, size in bytes, data, and whether its write has been handed on and is not
performed yet: an Annex window write that its interface has not accepted, or a remote or PCI Express write that has not left
the device; a remote one has the tag of its request. -/
structure WriteEntry where
  addr : Nat
  size : Nat
  data : Nat
  sent : Bool := false
  tag : Nat := 0
  deriving DecidableEq, Repr

/-- A WAITEV in progress (R200). -/
structure EvWait where
  d : Fin 16
  mask : Word
  limit : Word
  next : Word
  te : Bool
  deriving DecidableEq, Repr

/-- A load whose response has not arrived (R182: remote, PCIe outbound and Annex windows): where it reads, how much,
the register it loads and the state of the instruction it belongs to. -/
structure PendingLoad where
  addr : Nat
  size : Nat
  /-- the load's destination: a G register, a doubleword pair or an F register -/
  fp : Bool
  d : Fin 16
  /-- base register and its value afterwards -/
  upd : Option (Fin 16 × Word)
  instr : Word
  next : Word
  te : Bool
  /-- loads still to be made under REP, this one included -/
  rep : Bool
  deriving DecidableEq, Repr

/-- A write of ARRAY_BOUND, ARRAY_TOPO or ARRAY_WOWN that waits (R55). -/
inductive ArrWrite where
  | wown (v : Word) | bound (v : Word) | topo (v : Word)
  deriving DecidableEq, Repr

/-- One hall sequencer (R118, R144, R183, R197, R203). -/
structure Seq where
  g : Vector Word 16
  f : Vector Word 16
  p : Vector Word 8
  rc : Word
  flg : Word
  fpctl : Word
  wm : Word
  lfp : Word
  epc : Word
  mtf : Word
  vbr : Word
  esr : Word
  ear : Word
  pc : Word
  study : Sparse Byte
  run : RunState
  hcause : Nat
  atomx : Nat
  /-- an instruction with ATOM and REP stands at one of its REP boundaries (R139) -/
  atomRep : Bool
  ev : Word
  wbuf : List WriteEntry
  evq : List (BitVec 16 × Word)
  routine : Option Routine
  susp : List Suspended
  jobs : List LaneJob
  caps : List Capture
  wait : Option EvWait
  wdPend : Bool
  load : Option PendingLoad
  /-- the address of a handler word that waits for earlier buffered writes of its range (R129, R183) -/
  vec : Option Nat
  arrWrites : List ArrWrite
  /-- remote writes of this sequencer whose WRRSP has not arrived (R208) -/
  unacked : Nat
  /-- digest of the image in the writable control store; `none` while the store is invalid (R210, R219) -/
  csDigest : Option (BitVec 512)
  /-- the 4,096 words of 128 bits of the writable control store, word 0 lowest; 0 while it is invalid (R22, R211) -/
  cs : BitVec 524288
  /-- words of the control store whose parity is wrong (R213); only an upset of the part makes one -/
  csBad : List Nat
  /-- doublewords of Study with an uncorrectable error (R125); only an upset of the part makes one -/
  studyBad : List Nat
  deriving DecidableEq, Repr

/-- Reset values of a sequencer (R118, R144): `h` names it. -/
def Seq.reset (h : Fin 4) : Seq where
  g := (Vector.replicate 16 0).set 15 0x00040000
  f := Vector.replicate 16 0
  p := Vector.replicate 8 0x00010000
  rc := 0
  flg := 0
  fpctl := 0
  wm := if h = 0 then 0xFF else 0
  lfp := 0xFDA
  epc := 0
  mtf := 0x0003C000
  vbr := 0xF0000000
  esr := 0
  ear := 0
  pc := 0xF0000000
  study := []
  run := if h = 0 then .running else .held
  hcause := 0
  atomx := 0
  atomRep := false
  ev := 0
  wbuf := []
  evq := []
  routine := none
  susp := []
  jobs := []
  caps := []
  wait := none
  wdPend := false
  load := none
  vec := none
  arrWrites := []
  unacked := 0
  csDigest := none
  cs := 0
  csBad := []
  studyBad := []

/-- The array (R29 to R31, R50, R51). Units: 0 is HW, 1 to 8 are W0 to W7, 9 is HE. -/
structure Arr where
  /-- planes, keyed by 4096 * unit + plane -/
  planes : Sparse Plane
  pe : Vector PeRegs 10
  /-- BPE of each wing's bays -/
  bpe : Vector (BitVec 256) 8
  /-- bays whose stored parity disagrees, keyed as `planes`; only an upset of the part makes one -/
  badPar : Sparse (BitVec 256)
  deriving DecidableEq, Repr

/-- All ones over the PEs of a unit: 8,192 in a wing, 64 in a halo (R22). -/
def unitOnes (u : Nat) : Plane := if u = 0 ∨ u = 9 then BitVec.ofNat 8192 (2 ^ 64 - 1) else BitVec.allOnes 8192

/-- PE registers after a wing clear (R31). -/
def PeRegs.clear (u : Nat) : PeRegs := { x := unitOnes u }

def Arr.reset : Arr where
  planes := []
  pe := Vector.ofFn fun u : Fin 10 => PeRegs.clear u
  bpe := Vector.replicate 8 0
  badPar := []

/-! ### Cellar, Landing and DMA (09) -/

/-- State of a Cellar bank (R240): WAKING remembers whether it wakes from OFF, which zero-fills. -/
inductive BankState where
  | on | retain | off
  | waking (fromOff : Bool)
  deriving DecidableEq, Repr

/-- Cellar and Landing state that no register holds. -/
structure Cellar where
  bank : Vector BankState 32
  /-- protected words with a correctable error (R236, R246), by the key of their first byte; only upsets make one -/
  weak : List Nat
  /-- protected words with an uncorrectable error; only upsets make one -/
  bad : List Nat
  /-- a held change of CELLAR_CFG.ILV (R234) -/
  ilvReq : Option Nat
  /-- the Planisher's next window, the banks of its pass, and the windows it has abandoned in it (R257, R258, R265) -/
  planNext : Nat × Nat
  planBanks : Word
  planRetry : List (Nat × Nat)
  deriving DecidableEq, Repr

def Cellar.reset : Cellar where
  bank := Vector.replicate 32 .on
  weak := []
  bad := []
  ilvReq := none
  planNext := (0, 0)
  planBanks := 0xFFFFFFFF
  planRetry := []

/-- A DMA descriptor (R250). -/
structure Desc where
  kind : Nat
  irq : Bool
  chain : Bool
  len : Nat
  src : Word
  dst : Word
  rows : Nat
  sstride : Word
  dstride : Word
  next : Word
  deriving DecidableEq, Repr

/-- A DMA channel's engine (R250 to R254, R266): the descriptor being executed, the row and byte of its next unit, the tag of
the burst it waits for (4096 and 4097: an Annex read or write), the bytes of the unit already read (as a number, and how many)
and how many of them are written, its remote writes not yet acknowledged, and the limit and the Max Read
Request Size taken at its start. -/
structure DmaCh where
  desc : Option Desc := none
  row : Nat := 0
  pos : Nat := 0
  wait : Option Nat := none
  held : Nat := 0
  got : Nat := 0
  put : Nat := 0
  acks : Nat := 0
  tmo : Nat := 0
  mrrs : Nat := 512
  deriving DecidableEq, Repr

/-- Who holds a tagged request (R256). -/
inductive ReqWho where
  | load (h : Fin 4)
  | store (h : Fin 4)
  | dma (c : Fin 48)
  | manage (requester : Nat)
  | attest
  deriving DecidableEq, Repr

/-- A request that has left the device over Tyashlink or PCI Express and whose response or timeout is awaited (R256,
R416, R443): the target device and the data of a write, the port it left by (6: none), `due` the tick of its timeout (none
without a limit); `again` marks a NOT_READY request to be reissued, `dead` a burst of a channel that has stopped (R253). -/
structure Req where
  tag : Nat
  who : ReqWho
  pcie : Bool
  write : Bool
  addr : Nat
  len : Nat
  port : Nat
  due : Option Nat
  again : Bool := false
  dev : Nat := 0
  data : Nat := 0
  hdr : LinkHdr := {}
  dead : Bool := false
  deriving DecidableEq, Repr

/-! ### Sensor receivers, inlets and outlets (10) -/

/-- A line being received, or ended and not yet written: its number and slot (R276, R278), what R282 and R271 found, how it
ended (R274), and the words of each logical lane. -/
structure Line where
  n : Nat
  slot : Nat
  late : Bool
  skew : Bool
  short : Bool := false
  long : Bool := false
  words : List (List (BitVec 16)) := []
  deriving DecidableEq, Repr

/-- The words that one lane has brought of a line, newest first, and whether its EOL has come (R273, R274). -/
structure LaneLine where
  words : List (BitVec 16) := []
  eol : Bool := true
  deriving DecidableEq, Repr

/-- What a group holds of one physical lane (R271, R273): its deskew and the words that wait in it, the last ten words
behind it, both newest first, its words of the line in reception, and, while a SOL is not yet complete on every lane, the
words since that lane's code word: how many, and those of the new line. -/
structure RxLane where
  delay : Nat := 0
  late : List (BitVec 16) := []
  last : List (BitVec 16) := []
  cur : LaneLine := {}
  sol : Option (Nat × LaneLine) := none
  deriving DecidableEq, Repr

/-- A receiver group with its inlet: training in progress, its lanes, queued marks (number and slot), the line in
reception, lines ended and not handed over, lines with the plane writer (with COLLIDED), and, while a write of WIN waits for
the next hand-over, the value still in effect (R285). -/
structure Inlet where
  training : Bool := false
  lanes : Vector RxLane 8 := Vector.replicate 8 {}
  marks : List (Nat × Nat) := []
  rx : Option Line := none
  ended : List Line := []
  writer : List (Line × Bool) := []
  win : Option Word := none
  deriving DecidableEq, Repr

/-- An outlet job in progress (R288 to R294): a COMPACT job with the records still to be written, or a PLANE job with the
address of its next burst, the rest of the plane being copied, and the planes still to be read. -/
inductive OutKind where
  | compact (ring : Nat) (recs : List (BitVec 64))
  | plane (dst : Nat) (bytes : List Byte) (planes : List Nat)
  deriving DecidableEq, Repr

/-! ### Porch engines (11) -/

/-- An instruction in a channel's latch or in Saved (R305): its word, whether it was injected, and its phase: stalled in its
refill, or in its flush with what a SHX has shifted out (R317). -/
structure PHeld where
  word : BitVec 24
  inj : Bool
  refill : Bool := false
  flush : Bool := false
  outv : Word := 0
  deriving DecidableEq, Repr

/-- A porch channel (R304, R305, R323): what no register holds. PC and EN stand in CH_EXEC and CH_CTL. -/
structure PorchCh where
  acc : Nat := 0
  osr : Word := 0
  isr : Word := 0
  ocnt : Nat := 32
  icnt : Nat := 0
  s0 : Word := 0
  s1 : Word := 0
  tof : Bool := false
  evl : Bool := false
  gate : Bool := false
  latch : Option PHeld := none
  saved : Option PHeld := none
  dwell : Nat := 0
  ofifo : List Word := []
  ififo : List Word := []
  /-- a queued injection and its RESUME -/
  inj : Option (BitVec 24 × Bool) := none
  fault : Bool := false
  deriving DecidableEq, Repr

/-- What the porch channels drive (R308): level, direction bit, and driven as a side pin, for each GP pin. -/
structure GpDrive where
  out : BitVec 384 := 0
  dir : BitVec 384 := 0
  side : BitVec 384 := 0
  deriving DecidableEq, Repr

/-! ### The Annex (12) -/

/-- A request at a region's window interface (R346): who made it, where, how wide, the data of a write, whether it has
reached the interface, and whether it is a burst of a channel that has stopped (R253). -/
structure WinReq where
  who : ReqWho
  region : Nat
  offset : Nat
  size : Nat
  data : Option Nat
  reached : Bool := false
  dead : Bool := false
  deriving DecidableEq, Repr

/-- What a region's logic holds while LIVE (R338): flip-flops, the levels and enables it puts on its pins, what its drivers put
on the column lines and global nets (nets from bit 2,048 on), its spans into other regions, and the words last read by the
ports of its block RAMs; and, from when it left LIVE, the level of each pin that it drove then (R345). The contents of its
block RAMs are its frames 0x402 to 0x449 (R352). -/
structure Logic where
  ff : BitVec 2048 := 0
  out : BitVec 12 := 0
  oe : BitVec 12 := 0
  drv : BitVec 2064 := 0
  span : Nat := 0
  read : Vector (BitVec 36) 4 := Vector.replicate 4 0
  keptOut : BitVec 12 := 0
  keptOe : BitVec 12 := 0
  deriving DecidableEq, Repr

/-- The Annex (R350 to R352): write and read FIFOs of the configuration port, frames keyed by 2048 * region + frame, the
region whose frames are being cleared, window requests, interrupt outputs, answers still owed after a timeout, and the logic
of each region. -/
structure Annex where
  wfifo : List Word := []
  /-- writes of ANNEX_CFG_DATA that the block holds because the FIFO is full, with their writers (R350) -/
  held : List (Requester × Word) := []
  rfifo : List Word := []
  frames : Sparse (BitVec 1024) := []
  clearing : Option Nat := none
  wins : List WinReq := []
  irq : Word := 0
  owed : Vector Nat 32 := Vector.replicate 32 0
  logic : Vector Logic 32 := Vector.replicate 32 {}
  deriving DecidableEq, Repr

/-- An Annex image load under way (R360): the image's address, its bytes read so far, the regions it has opened, and the
COMMITs held back. -/
structure ImgLoad where
  src : Nat
  seen : List Byte
  opened : List Nat := []
  held : List Word := []
  deriving DecidableEq, Repr

/-- What a microcode load has read of its image (R217): header, key, and ciphertext, tag and signature as far as it has come. -/
structure McRead where
  hd : List Byte
  key : List Byte
  body : List Byte := []
  deriving DecidableEq, Repr

/-- Jobs of the Assay's verification engine (R510), each with the sequencer that wrote GO. A microcode load that has begun
holds what it has read (R217), an image load how far it has come (R360). -/
inductive VerJob where
  | microcode (h : Fin 4) (read : Option McRead := none)
  | annex (h : Fin 4) (load : Option ImgLoad := none)
  deriving DecidableEq, Repr

/-! ### The Mantel (13) -/

/-- An armed launch entry (R372 to R374, R398): its pending tick, the settings it was armed with, the firings already
counted, and, of a pending firing that is late and that LATEPOL fires, the nanosecond of its late test. -/
structure Armed where
  tick : Nat
  action : Nat
  arg : Word
  group : Nat
  latePol : Bool
  irq : Bool
  period : Nat
  reps : Nat
  fired : Nat := 0
  late : Option Nat := none
  deriving DecidableEq, Repr

/-- A line-clock generator (R389, R390): accumulator, whether it follows the raw schedule until it locks, consecutive events
within one edge spacing of that schedule, the nanosecond of the last counted edge, the mean edge spacing (0: none yet), and the
nanosecond of the predicted event, the last two in 1/65,536. -/
structure LineGen where
  acc : Int := 0
  raw : Bool := false
  near : Nat := 0
  edge : Option Nat := none
  mean : Nat := 0
  next : Option Int := none
  deriving DecidableEq, Repr

/-- What of the Mantel no register holds: armed entries, pulses in progress (output, entry, tick of the trailing edge),
line-clock generators, the nanosecond of each encoder's last counted edge, of each generator's last line, of the last SYNC
frame and of the last slewing step (R369), a step that waits for its TCLK edge (R370), the count before the last edge (R379),
and the high words kept for each requester class (R368), keyed 16 * class + pair. -/
structure Mantel where
  armed : Vector (Option Armed) 256 := Vector.replicate 256 none
  pulses : List (Nat × Nat × Nat) := []
  lc : Vector LineGen 4 := Vector.replicate 4 {}
  edgeAt : Vector (Option Nat) 4 := Vector.replicate 4 none
  lineAt : Vector (Option Nat) 4 := Vector.replicate 4 none
  syncAt : Option Nat := none
  slewAt : Nat := 0
  stepDue : Bool := false
  edge : Nat := 0
  shadow : Sparse Word := []
  deriving DecidableEq, Repr

/-! ### Tyashlink (14) -/

/-- A frame's content by class (R406, R408). Data of BULK frames are a little-endian number of `len` bytes. -/
inductive LinkBody where
  | hello (port id : Nat) (idv join : Bool)
  | dlyreq
  | dlyrsp (turn : Word)
  | sync (count : BitVec 64) (frac : BitVec 4)
  | seam (plane : Nat) (east : Bool) (planes : List (BitVec 64))
  | bulk (op tag len status : Nat) (addr : Nat) (data : Nat)
  deriving DecidableEq, Repr

/-- A frame that this device sends. Until it leaves, a DLYRSP holds the arrival of its DLYREQ in 1/16 tick (R421). -/
structure Frame where
  hdr : LinkHdr
  body : LinkBody
  deriving DecidableEq, Repr

/-- A port (R402 to R411). To send: EVENTs, frames, the SEQs of frames to replay, the blocks left of the frame in progress and
its body, and unacknowledged frames with SEQ and tick. Numbers: the next SEQ, the SEQ last accepted and whether there is
one, a NAK owed, replays since the acknowledged SEQ last advanced, credits by class, and credits to return. Its stream:
slots since an ALIGN, blocks since an IDLE block, the slots of the last tick. Its training: whether the lanes are aligned, the
nanosecond at which the present stage began, and that of a failure (R402). Then whether its HELLO has been sent, whether a delay
is being measured and when the DLYREQ left, in 1/16 tick (R421). -/
structure LinkPort where
  evtq : List (BitVec 64) := []
  waiting : List Frame := []
  replayQ : List Nat := []
  tx : List Block := []
  txBody : Option LinkBody := none
  sent : List (Nat × Frame × Nat) := []
  seq : Nat := 0
  rxSeq : Nat := 255
  rxAny : Bool := false
  nak : Bool := false
  replays : Nat := 0
  credits : Vector Nat 5 := #v[2, 2, 4, 32, 32]
  ret : Vector Nat 5 := Vector.replicate 5 0
  slot : Nat := 0
  since : Nat := 0
  out : List (Block × Block) := []
  aligned : Bool := false
  stageAt : Nat := 0
  failed : Option Nat := none
  helloOut : Bool := false
  measuring : Bool := false
  t1 : Word := 0
  deriving DecidableEq, Repr

/-- The system Chimney round (R424): the round, the device's own contribution, the SCHIM_UP held of each port with its
round, whether SCHIM_UP has been sent, and the tick of its timeout. -/
structure Schim where
  round : Nat := 0
  count : Nat := 0
  orv : Bool := false
  ups : List (Nat × Nat × Nat × Bool) := []
  upSent : Bool := false
  due : Option Nat := none
  deriving DecidableEq, Repr

/-- Tyashlink state that no register holds: ports, event queue, requests this device sends to itself, the system Chimney,
the settings of the running seam exchange and a write to LINK_SEAM_SRC that waits for its end, the tick of the next SYNC
frame, and the tags of timed-out DMA bursts (R254). -/
structure Link where
  ports : Vector LinkPort 6 := Vector.replicate 6 {}
  evq : List (BitVec 64) := []
  self : List Frame := []
  schim : Schim := {}
  seamSrc : Word := 0
  seamNew : Option Word := none
  syncDue : Nat := 0
  lateTags : List (Nat × Fin 48) := []
  deriving DecidableEq, Repr

/-! ### PCI Express (15) -/

/-- A TLP that the port sends (R437, R443, R444): a read request with its tag; a write request, the last of a requester's write
with that requester; a vector's MSI-X message; an error message, ERR_COR, ERR_NONFATAL or ERR_FATAL. -/
inductive Tlp where
  | read (tag addr len : Nat)
  | write (addr : Nat) (data : List Byte) (ends : Option ReqWho)
  | message (v : Fin 64) (addr : BitVec 64) (data : Word)
  | error (kind : Fin 3)
  deriving DecidableEq, Repr

/-- The port's state that no register of the device holds: readiness (R438), the configuration space and the MSI-X table as
words, pending bits, the OR of the sources of each vector as last seen (R444), the TLPs not yet sent, and whether a discard
(source 650) and an outbound error (source 651) have been reported since PCIE_ERR.VALID was last cleared. -/
structure Pcie where
  ready : Bool := false
  cfg : Sparse Word := []
  table : Sparse Word := []
  pba : BitVec 64 := 0
  last : BitVec 64 := 0
  tlps : List Tlp := []
  discard : Bool := false
  outErr : Bool := false
  deriving DecidableEq, Repr

/-- What the last command that answers a requester outside the sequencers returned: data, an Unsupported Request, a
Completer Abort, Configuration Request Retry Status, or a poisoned completion. -/
inductive Answer where
  | data (v : Nat)
  | unsupported | abort | retry | poisoned
  deriving DecidableEq, Repr

/-! ### The Lodge, power and reset (16, 17) -/

/-- A queued fault record (R461, R465): cause, actions, Mantel count and the other fields of the record at acceptance; ENTRY
is taken when it is written (DEDUCED, log entry 48). -/
structure FaultRec where
  cause : Nat
  acts : Nat
  count : BitVec 64
  bootcnt : Word := 0
  seqState : Nat := 0
  devid : Nat := 0
  temp : Nat := 0
  user : Word := 0
  deriving DecidableEq, Repr

/-- One SPI transaction with the boot flash (R464, R507, R521): command byte, address bytes as sent, dummy clocks, data bytes
sent, how many are received, and whether the data phase uses four lines. -/
structure SpiTx where
  op : Nat
  addr : List Byte := []
  dummy : Nat := 0
  data : List Byte := []
  recv : Nat := 0
  quad : Bool := false
  deriving DecidableEq, Repr

/-- The Lodge: queued fault records, the SPI transactions last made on the BSPI_* pins (for a fault record, for a read by the
boot ROM, or by the flash port: R464, R507, R521), the cause whose WRST action is due, the start of each watchdog's period,
and whether WARN has acted since C last changed (R468). -/
structure Lodge where
  recQ : List FaultRec := []
  spi : List SpiTx := []
  wrst : Option Nat := none
  wdStart : Vector Nat 4 := Vector.replicate 4 0
  warned : Vector Bool 4 := Vector.replicate 4 false
  deriving DecidableEq, Repr

/-- A warm reset in force (R491, R492): from WRST_N, from the Lodge with its cause, or from the exit from DEEP; and the banks and
wings whose wake clears (R486) it waits for. -/
structure Warm where
  pin : Bool := false
  lodge : Option Nat := none
  deep : Bool := false
  banks : Word := 0
  wings : Nat := 0
  deriving DecidableEq, Repr

/-- Power and reset: POR_N low, a warm reset in force, banks ON before DEEP (R486), and the spread profile applied (R482). -/
structure Power where
  por : Bool := false
  warm : Option Warm := none
  deepBanks : Word := 0
  ssc : Word := 0
  deriving DecidableEq, Repr

/-! ### The Assay (18) -/

/-- Jobs of the signing engine (R510): an extension with its index and data, a local quote, a PCI Express quote, and a
Tyashlink quote with the request's frame. -/
inductive SigJob where
  | extend (i : Nat) (d : Nat) (refused : Bool)
  | own
  | host
  | remote (port : Nat) (hdr : LinkHdr) (tag : Nat) (req : Nat)
  deriving DecidableEq, Repr

/-- A remote attestation request of this device (R519): its 64 bytes, target, where its quote goes, how long it is, which
bytes have arrived, and whether it has been issued (it waits for a tag before). -/
structure RemoteAtt where
  req : Nat
  dev : Nat
  qaddr : Nat
  len : Nat
  got : List (Nat × Nat) := []
  issued : Bool := false
  deriving DecidableEq, Repr

/-- Where boot step 7 stands in the flash (R539, R542): the read of a bank (B or A), pre-empted `cuts` times; the erase; the
program of page k; and the read-back. `issued`: its transactions are on the pins. -/
inductive LedgerStep where
  | read (bankB : Bool) (issued : Bool) (cuts : Nat)
  | erase (issued : Bool)
  | page (k : Nat) (issued : Bool)
  | check (issued : Bool) (cuts : Nat)
  deriving DecidableEq, Repr

/-- Where the boot ROM of H0 stands (R503): not running; at its start after a release; step 1 as a flash read that has been
pre-empted `cuts` times, or as the wait for a push; steps 2 and 3; steps 4 to 6 begun or not; step 7, its write made once more
or not; step 8 at its extension k; and recovery (R506). -/
inductive BootStage where
  | off
  | start
  | read (issued : Bool) (cuts : Nat)
  | push
  | check
  | copy
  | microcode (begun : Bool)
  | annex (begun : Bool)
  | cards (begun : Bool)
  | ledger (again : Bool) (step : LedgerStep)
  | measure (k : Nat) (begun : Bool)
  | recovery
  deriving DecidableEq, Repr

/-- What the boot ROM holds between its steps: the image's address, its header and signed digest, the digest signed in its Annex
image, the digest of each card header read (zero for none) with the mask of good ones, the ledger role, the bytes that a flash
read has received, whether the Lodge has ended the transaction on the flash pins (R507), the ledger banks as read (R539), and the
bank and the bytes of the ledger record that it writes, whether no bank was valid, and whether the write was cut off (R542). -/
structure Boot where
  stage : BootStage := .off
  img : Nat := 0
  hdr : List Byte := []
  dg : BitVec 512 := 0
  anx : Nat := 0
  cards : List (BitVec 512) := []
  heads : Nat := 0
  role : Nat := 0
  rx : List Byte := []
  cut : Bool := false
  bankA : List Byte := []
  bankB : List Byte := []
  ledger : Option (Nat × List Byte) := none
  lost : Bool := false
  harmed : Bool := false
  deriving DecidableEq, Repr

/-- The Assay's signing jobs in order, the Mantel count and the measurements as they stood when the quote being signed
started (R517), the remote request in progress, the OTP operation running: OP, VALUE, DATA (R514), and CMD, ADDR and BUF of
the flash port's transaction as they stood at its GO (R521). -/
structure Assay where
  sigQ : List SigJob := []
  snap : Option (BitVec 64 × List (BitVec 512)) := none
  att : Option RemoteAtt := none
  otp : Option (Nat × Nat × Word) := none
  bspi : Word × Word × Word := (0, 0, 0)
  /-- the boot ROM of H0 (R503) -/
  boot : Boot := {}
  deriving DecidableEq, Repr

/-! ### The whole state -/

/-- The state of the block. -/
structure State where
  /-- commands that wait, first in first out -/
  pending : List Instr
  /-- MODEL's own field: index of the next free value -/
  free : Nat
  /-- nanoseconds since POR_N rose -/
  ns : Nat
  /-- the Mantel count (R366) -/
  count : BitVec 64
  /-- every register, by offset from 0x4000_0000 -/
  regs : Sparse Word
  /-- Landing and Cellar bytes, by address -/
  mem : Sparse Byte
  seqs : Vector Seq 4
  arr : Arr
  cellar : Cellar
  dma : Vector DmaCh 48
  /-- requests that hold a tag (R256) -/
  reqs : List Req
  inlet : Vector Inlet 8
  /-- outlet jobs in progress, in the order of their starts (R292), by wing -/
  outJobs : List (Nat × OutKind)
  chans : Vector PorchCh 512
  gp : GpDrive
  annex : Annex
  mantel : Mantel
  link : Link
  pcie : Pcie
  lodge : Lodge
  power : Power
  assay : Assay
  /-- MODEL's own field: what the last command that answers an outside requester returned -/
  answer : Option Answer
  /-- jobs of the verification engine in order of arrival -/
  verQ : List VerJob
  /-- answers to requests that left a requester, delivered at the end of the running command; none is an error -/
  replies : List (ReqWho × Option Nat)
  /-- sources raised by a happening that no status bit records (log entry 23) -/
  latched : List Nat
  /-- the same as the forwarding to MSI-X sees them, which service does not affect (R457) -/
  fwd : List Nat
  /-- sources in service, each with the sequencer that claimed it (R454) -/
  service : List (Nat × Fin 4)
  /-- the hearth PLL is locked and the clocks derived from it run (R479) -/
  hlock : Bool
  /-- Lodge causes that became true in the running command and are accepted at its end (R460) -/
  lodgeQ : List Nat
  deriving DecidableEq, Repr

/-- The machine right after a cold power-up, at the first fetch of H0 (R490). -/
def State.reset : State where
  pending := []
  free := 0
  ns := 0
  count := 0
  regs := []
  mem := []
  seqs := Vector.ofFn Seq.reset
  arr := Arr.reset
  cellar := Cellar.reset
  dma := Vector.replicate 48 {}
  reqs := []
  inlet := Vector.replicate 8 {}
  outJobs := []
  chans := Vector.replicate 512 {}
  gp := {}
  annex := {}
  mantel := {}
  link := {}
  pcie := {}
  lodge := {}
  power := {}
  assay := { boot := { stage := .start } }
  answer := none
  verQ := []
  replies := []
  latched := []
  fwd := []
  service := []
  hlock := true
  lodgeQ := []

end Sys2Proof.Machine
end

