-- ==== Sys2Proof/Machine/Ops.lean ====
section
/-! DEFINITION. The named operations over registers, sequencers and memory, and the taking of an exception by a
sequencer (05_hall_sequencers.md R127 to R131). -/

namespace Sys2Proof.Machine

/-! ### Registers -/

/-- A register by family and member numbers. -/
abbrev rg (f : Fam) (i : Nat := 0) (j : Nat := 0) : Reg := ⟨f, i, j⟩

/-- The stored word of a register. -/
def State.reg (s : State) (r : Reg) : Word := sparseGet regDefault s.regs r.off

/-- The state with a register's stored word replaced. -/
def State.setReg (s : State) (r : Reg) (w : Word) : State := { s with regs := sparseSet regDefault s.regs r.off w }

/-- A field of a register, as a number. -/
def State.getF (s : State) (r : Reg) (f : Field) : Nat := bits (s.reg r) f.lo f.width

/-- A one-bit field of a register, as a truth value. -/
def State.flag (s : State) (r : Reg) (f : Field) : Bool := s.getF r f = 1

/-- The state with a field of a register replaced. -/
def State.setF (s : State) (r : Reg) (f : Field) (v : Nat) : State := s.setReg r (setBits (s.reg r) f.lo f.width v)

/-- The field of a written word. -/
def Field.of (f : Field) (v : Word) : Nat := bits v f.lo f.width

/-- A register back at its reset value. -/
def State.resetReg (s : State) (r : Reg) : State := s.setReg r r.reset

/-- First-capture registers (R12, R14, R15): with `valid` 0 the capture fills the register and sets `valid`; with
`valid` 1 only `multi` is set. -/
def State.capture (s : State) (r : Reg) (valid multi : Field) (fill : Word → Word) : State :=
  if s.flag r valid then s.setF r multi 1
  else s.setReg r (setBits (fill (s.reg r)) valid.lo valid.width 1)

/-- SYS_REGERR.SRC value of a requester (R13). -/
def reqCode : Requester → Nat
  | .seq h => h.val
  | .host => 4
  | .remote => 5
  | .dma _ => 6
  | .lodge => 7

/-- OWNER code of a requester (R249): 1 to 4 for H0 to H3, 5 for the host; none for a requester that owns nothing. -/
def reqOwner : Requester → Option Nat
  | .seq h => some (h.val + 1)
  | .host => some 5
  | _ => none

/-- A discarded write is recorded in SYS_REGERR (R11, R12). -/
def State.regErr (s : State) (r : Requester) (off : Nat) : State :=
  s.capture (rg .sysRegerr) F.sysRegerr_VALID F.sysRegerr_MULTI fun w => setBits (setBits w 0 24 off) 24 4 (reqCode r)

/-! ### Free values -/

/-- A free word, and the state that has used it (log entry 2). -/
def State.fresh (s : State) : Word × State := (Config.freeWord s.free, { s with free := s.free + 1 })

/-! ### Sequencers -/

/-- Sequencer h. -/
def State.seq (s : State) (h : Fin 4) : Seq := s.seqs[h]

/-- The state with sequencer h changed. -/
def State.modSeq (s : State) (h : Fin 4) (f : Seq → Seq) : State := { s with seqs := s.seqs.set h (f (s.seqs[h])) }

/-- A general register. -/
def State.gr (s : State) (h : Fin 4) (i : Fin 16) : Word := (s.seq h).g[i]

/-- A general register written. -/
def State.setG (s : State) (h : Fin 4) (i : Fin 16) (v : Word) : State :=
  s.modSeq h fun q => { q with g := q.g.set i v }

/-- A floating-point register. -/
def State.fr (s : State) (h : Fin 4) (i : Fin 16) : Word := (s.seq h).f[i]

/-- A floating-point register written. -/
def State.setFr (s : State) (h : Fin 4) (i : Fin 16) (v : Word) : State :=
  s.modSeq h fun q => { q with f := q.f.set i v }

/-- A plane pointer written; reserved bits read 0 (R122). -/
def State.setP (s : State) (h : Fin 4) (k : Fin 8) (base stride : Nat) : State :=
  s.modSeq h fun q => { q with p := q.p.set k (BitVec.ofNat 32 (base % 4096 + 65536 * (stride % 256))) }

/-- BASE of a plane pointer (R122). -/
def State.pBase (s : State) (h : Fin 4) (k : Fin 8) : Nat := bits ((s.seq h).p[k]) 0 12

/-- STRIDE of a plane pointer (R122). -/
def State.pStride (s : State) (h : Fin 4) (k : Fin 8) : Nat := bits ((s.seq h).p[k]) 16 8

/-- Program counter written. -/
def State.setPc (s : State) (h : Fin 4) (a : Word) : State := s.modSeq h fun q => { q with pc := a }

/-- FLG bit numbers (R121). -/
def flgZ : Nat := 0
def flgN : Nat := 1
def flgC : Nat := 2
def flgV : Nat := 3
def flgIE : Nat := 8
def flgTE : Nat := 9
def flgTP : Nat := 10
def flgEXL : Nat := 11
def flgMIP : Nat := 12

/-- One bit of FLG. -/
def State.flgBit (s : State) (h : Fin 4) (n : Nat) : Bool := bit (s.seq h).flg n

/-- One bit of FLG written. -/
def State.setFlg (s : State) (h : Fin 4) (n : Nat) (v : Bool) : State :=
  s.modSeq h fun q => { q with flg := setBits q.flg n 1 (b2n v) }

/-- Running priority (R121). -/
def State.pri (s : State) (h : Fin 4) : Nat := bits (s.seq h).flg 16 5

/-! ### The address map (R565) -/

/-- The rows of the sequencer address map. -/
inductive Region where
  | study | landing | cellar | regs | annex | remote | pcie | rom
  deriving DecidableEq, Repr

/-- The row that holds an address. -/
def regionOf (a : Nat) : Option Region :=
  if a < 0x00040000 then some .study
  else if 0x10000000 ≤ a ∧ a < 0x10040000 then some .landing
  else if 0x20000000 ≤ a ∧ a < 0x23000000 then some .cellar
  else if 0x40000000 ≤ a ∧ a < 0x40D00000 then some .regs
  else if 0x60000000 ≤ a ∧ a < 0x70000000 then some .annex
  else if 0x80000000 ≤ a ∧ a < 0xC0000000 then some .remote
  else if 0xC0000000 ≤ a ∧ a < 0xE0000000 then some .pcie
  else if 0xF0000000 ≤ a ∧ a < 0xF0010000 then some .rom
  else none

/-- The row that holds all `n` bytes at `a` (R566). -/
def regionOfRange (a n : Nat) : Option Region :=
  if n = 0 then regionOf a
  else if regionOf a = regionOf (a + n - 1) then regionOf a else none

/-- Rows from which instructions are fetched (R126). -/
def Region.fetchable : Region → Bool
  | .study | .landing | .cellar | .rom => true
  | _ => false

/-! ### Cellar and Landing bytes -/

/-- Bytes of a bank, 1.5 MiB (R232). -/
def bankBytes : Nat := 1572864

/-- Interleave width of CELLAR_CFG.ILV (R233). -/
def State.ilvWidth (s : State) : Nat := 32 / 2 ^ s.getF (rg .cellarCfg) F.cellarCfg_ILV

/-- Bank and byte within the bank of a Cellar offset (R233). -/
def bankOf (w o : Nat) : Nat × Nat :=
  let rsize := w * bankBytes
  let g := (o % rsize) / 256
  (o / rsize * w + g % w, g / w * 256 + o % 256)

/-- Where the byte at a Landing or Cellar address is stored: Landing bytes under their address, Cellar bytes under
their bank and place in it, so that a change of ILV moves no data (R234). -/
def State.cell (s : State) (a : Nat) : Nat :=
  if a < 0x20000000 then a
  else
    let b := bankOf s.ilvWidth (a - 0x20000000)
    0x20000000 + bankBytes * b.1 + b.2

/-- What a byte of Landing or Cellar that nothing has written reads as (R243: zero-filled at cold power-up). -/
def memDefault (_ : Nat) : Byte := 0

/-- One byte of Landing or Cellar. -/
def State.memByte (s : State) (a : Nat) : Byte := sparseGet memDefault s.mem (s.cell a)

/-- One byte of Landing or Cellar written. -/
def State.setMemByte (s : State) (a : Nat) (b : Byte) : State :=
  { s with mem := sparseSet memDefault s.mem (s.cell a) b }

/-- `n` bytes of Landing or Cellar from `a`. -/
def State.memBytes (s : State) (a n : Nat) : List Byte := (span a n).map s.memByte

/-- `n` bytes of Landing or Cellar as a little-endian number (R3). -/
def State.memNum (s : State) (a n : Nat) : Nat := numLE (s.memBytes a n)

/-- Bytes written in ascending address order. -/
def State.setMemBytes (s : State) (a : Nat) : List Byte → State
  | [] => s
  | b :: bs => (s.setMemByte a b).setMemBytes (a + 1) bs

/-- A little-endian number of `n` bytes written. -/
def State.setMemNum (s : State) (a n v : Nat) : State := s.setMemBytes a (bytesLE n v)

/-- The Cellar bank of an address; none for the Landing. -/
def State.bankAt (s : State) (a : Nat) : Option Nat :=
  if a < 0x20000000 then none else some (bankOf s.ilvWidth (a - 0x20000000)).1

/-- The state of the bank of an address; the Landing is always on. -/
def State.bankSt (s : State) (a : Nat) : BankState :=
  match s.bankAt a with
  | none => .on
  | some b => (s.cellar.bank[b]?).getD .off

/-- Is a bank state WAKING? -/
def BankState.isWaking : BankState → Bool
  | .waking _ => true
  | _ => false

/-- Is a bank state RETAIN or OFF? -/
def BankState.isDown : BankState → Bool
  | .retain | .off => true
  | _ => false

/-- Are all banks of the `n` bytes at `a` ON? An access touches at most two banks (R235). -/
def State.banksOn (s : State) (a n : Nat) : Bool := s.bankSt a = .on && s.bankSt (a + n - 1) = .on

/-- The protected word that holds a byte: 64 bits in the Cellar, 32 in the Landing (R236, R246), named by the key of its
first byte. -/
def State.eccWord (s : State) (a : Nat) : Nat :=
  if a < 0x20000000 then a / 4 * 4 else s.cell a / 8 * 8

/-- The protected words of `n` bytes at `a`, each with the address of its first accessed byte. -/
def State.eccWords (s : State) (a n : Nat) : List (Nat × Nat) :=
  (span a n).foldl (fun l x => if l.any (fun p => p.1 = s.eccWord x) then l else l ++ [(s.eccWord x, x)]) []

/-- Does a read of `n` bytes at `a` meet an uncorrectable error (R236, R246)? -/
def State.eccBad (s : State) (a n : Nat) : Bool :=
  !s.cellar.bad.isEmpty && (s.eccWords a n).any fun p => s.cellar.bad.contains p.1

/-- The uncorrectable error of the word that holds the byte at `x` is captured in CELLAR_ECCADDR and CELLAR_ECCREQ (R236, R239,
R263). -/
def State.eccCaptureAt (s : State) (req x : Nat) : State :=
  let land := decide (x < 0x20000000)
  let off := if land then (x - 0x10000000) / 4 * 4 else (x - 0x20000000) / 8 * 8
  let first := !s.flag (rg .cellarEccaddr) F.cellarEccaddr_VALID
  let s := s.capture (rg .cellarEccaddr) F.cellarEccaddr_VALID F.cellarEccaddr_MULTI fun w =>
    setBits (setBits w 0 26 off) 26 1 (b2n land)
  if first then s.setF (rg .cellarEccreq) F.cellarEccreq_REQ req else s

/-- The uncorrectable errors among protected words are captured in ascending order, each one an error of its own (R236;
DEDUCED, log entry 96). -/
def State.eccCaptureWords (s : State) (req : Nat) (ws : List (Nat × Nat)) : State :=
  (ws.filter fun p => s.cellar.bad.contains p.1).foldl (fun s p => s.eccCaptureAt req p.2) s

/-- Those of a read of `n` bytes at `a`. -/
def State.eccCapture (s : State) (req a n : Nat) : State :=
  if s.cellar.bad.isEmpty then s else s.eccCaptureWords req (s.eccWords a n)

/-- Corrected errors among protected words are counted (R236, R263). -/
def State.eccCountWords (s : State) (ws : List (Nat × Nat)) : State :=
  if s.cellar.weak.isEmpty then s
  else
    let k := (ws.filter fun p => s.cellar.weak.contains p.1).length
    s.setF (rg .cellarEcc) F.cellarEcc_CECNT (satAdd (s.getF (rg .cellarEcc) F.cellarEcc_CECNT) k 65535)

/-- A read of `n` bytes at `a` counts its corrected errors. -/
def State.eccCount (s : State) (a n : Nat) : State :=
  if s.cellar.weak.isEmpty then s else s.eccCountWords (s.eccWords a n)

/-- A write gives every protected word it covers consistent check bits (R236). -/
def State.eccClean (s : State) (a n : Nat) : State :=
  if s.cellar.weak.isEmpty && s.cellar.bad.isEmpty then s
  else
    let ws := (s.eccWords a n).map (·.1)
    { s with cellar := { s.cellar with
        weak := s.cellar.weak.filter fun x => !ws.contains x
        bad := s.cellar.bad.filter fun x => !ws.contains x } }

/-- The words that a write of `n` bytes covers in part: it reads them and merges (R236, R246). -/
def State.mergeWords (s : State) (a n : Nat) : List (Nat × Nat) :=
  (s.eccWords a n).filter fun p =>
    let size := if p.2 < 0x20000000 then 4 else 8
    let base := p.2 / size * size
    !(decide (a ≤ base) && decide (base + size ≤ a + n))

/-- Does such a merge meet an uncorrectable error? -/
def State.eccMergeBad (s : State) (a n : Nat) : Bool :=
  !s.cellar.bad.isEmpty && (s.mergeWords a n).any fun p => s.cellar.bad.contains p.1

/-- One access that writes (R236): a merge that finds an uncorrectable error does not write and is captured; a corrected one is
counted. The flag tells whether it was written. -/
def State.ramAccess (s : State) (req a : Nat) (bs : List Byte) : State × Bool :=
  let n := bs.length
  if s.eccMergeBad a n then (s.eccCaptureWords req (s.mergeWords a n), false)
  else
    let s := if s.cellar.weak.isEmpty then s else s.eccCountWords (s.mergeWords a n)
    ((s.eccClean a n).setMemBytes a bs, true)

/-- `bs` from address `a` cut at the multiples of `u`. -/
def cutBytes (u : Nat) : Nat → Nat → List Byte → List (Nat × List Byte)
  | 0, _, _ => []
  | n + 1, a, bs =>
    if bs.isEmpty then []
    else
      let k := u - a % u
      (a, bs.take k) :: cutBytes u n (a + k) (bs.drop k)

/-- The accesses that a write of `n` bytes at `a` makes: in the Cellar one within a granule for 1 to 8 bytes and one for each
32-byte row of a burst (R235); in the Landing one within a block for 1 to 8 bytes (R245) and one for each 8-byte row of a burst
(R244; DESIGN CHOICE, log entry 97). -/
def accessUnit (a n : Nat) : Nat :=
  if a < 0x20000000 then (if n ≤ 8 then 65536 else 8) else if n ≤ 8 then 256 else 32

def ramAccesses (a : Nat) (bs : List Byte) : List (Nat × List Byte) := cutBytes (accessUnit a bs.length) bs.length a bs

/-- A write of bytes to Landing or Cellar by requester `req` (R239), access by access in address order; the flag tells whether
all of it was written. -/
def State.ramWrite (s : State) (req a : Nat) (bs : List Byte) : State × Bool :=
  if s.cellar.bad.isEmpty && s.cellar.weak.isEmpty then (s.setMemBytes a bs, true)
  else (ramAccesses a bs).foldl (fun t p =>
    let u := t.1.ramAccess req p.1 p.2
    (u.1, t.2 && u.2)) (s, true)

/-- The `n` bytes at `a` cut at the multiples of `u`: address and length of each part. -/
def cutSpan (u : Nat) : Nat → Nat → Nat → List (Nat × Nat)
  | 0, _, _ => []
  | f + 1, a, n =>
    if n = 0 then []
    else
      let k := Nat.min n (u - a % u)
      (a, k) :: cutSpan u f (a + k) (n - k)

/-- The accesses that a read of `n` bytes at `a` makes, cut like those of a write (R235, R244, R245). -/
def readAccesses (a n : Nat) : List (Nat × Nat) := cutSpan (accessUnit a n) n a n

/-- One access that reads (R236): an uncorrectable error is captured, otherwise the corrected ones are counted. The flag tells
whether it was read. -/
def State.readAccess (s : State) (req a n : Nat) : State × Bool :=
  if s.eccBad a n then (s.eccCapture req a n, false) else (s.eccCount a n, true)

/-- A read of `n` bytes of Landing or Cellar by requester `req`, access by access in address order; none with an uncorrectable
error (R236, R246). -/
def State.ramRead (s : State) (req a n : Nat) : State × Option (List Byte) :=
  if s.cellar.bad.isEmpty && s.cellar.weak.isEmpty then (s, some (s.memBytes a n))
  else
    let t := (readAccesses a n).foldl (fun t p =>
      let u := t.1.readAccess req p.1 p.2
      (u.1, t.2 && u.2)) (s, true)
    (t.1, if t.2 then some (s.memBytes a n) else none)

/-! ### Study -/

/-- What a byte of Study that nothing has written reads as (DESIGN CHOICE, log entry 9). -/
def studyDefault (_ : Nat) : Byte := 0

/-- `n` bytes of Study of sequencer h as a little-endian number. -/
def State.studyNum (s : State) (h : Fin 4) (a n : Nat) : Nat :=
  numLE ((span a n).map fun x => sparseGet studyDefault (s.seq h).study x)

/-- Bytes into a Study. -/
def studyPut (l : Sparse Byte) (a : Nat) : List Byte → Sparse Byte
  | [] => l
  | b :: bs => studyPut (sparseSet studyDefault l a b) (a + 1) bs

/-- Bytes written to Study of sequencer h; whole doublewords written get consistent check bits (R125). -/
def State.setStudy (s : State) (h : Fin 4) (a : Nat) (bs : List Byte) : State :=
  s.modSeq h fun q => { q with
    study := studyPut q.study a bs
    studyBad := q.studyBad.filter fun d => !(a ≤ 8 * d && 8 * d + 8 ≤ a + bs.length) }

/-- Does an access to `n` bytes of Study meet an uncorrectable error (R125)? -/
def State.studyBad (s : State) (h : Fin 4) (a n : Nat) : Bool :=
  (s.seq h).studyBad.any fun d => decide (8 * d < a + n) && decide (a < 8 * d + 8)

/-- An 8-aligned Study address that holds a pushed pair (R129). -/
def stackOk (a : Word) : Bool := a.toNat % 8 = 0 && a.toNat < 0x40000

/-! ### Exceptions -/

/-- Halting a sequencer (R131): it issues nothing further; the Lodge accepts cause 0xC + h (R460) when this command
ends. -/
def State.haltSeq (s : State) (h : Fin 4) (cause : Nat) : State :=
  let s := s.modSeq h fun q => { q with run := .halted, hcause := cause, routine := none, wait := none, load := none, vec := none }
  { s with lodgeQ := s.lodgeQ ++ [0xC + h.val] }

/-- The handler address at `a`: an aligned word of Study, Landing, Cellar or boot ROM; none where R129 halts. -/
def State.vectorWord (s : State) (h : Fin 4) (a : Nat) : Option Word :=
  match regionOf a with
  | some .study => if s.studyBad h a 4 then none else some (BitVec.ofNat 32 (s.studyNum h a 4))
  | some .landing => if s.eccBad a 4 then none else some (BitVec.ofNat 32 (s.memNum a 4))
  | some .cellar =>
    if s.banksOn a 4 && !s.eccBad a 4 then some (BitVec.ofNat 32 (s.memNum a 4)) else none
  | some .rom => some (BitVec.ofNat 32 (numLE ((span (a - 0xF0000000) 4).map Config.romByte)))
  | _ => none

/-- The load of a handler address from Cellar or Landing counts and captures errors like any load (R129, R236). -/
def State.vectorErr (s : State) (h : Fin 4) (a : Nat) : State :=
  match regionOf a with
  | some .landing => (s.ramRead h.val a 4).1
  | some .cellar => if s.banksOn a 4 then (s.ramRead h.val a 4).1 else s
  | _ => s

/-- FLG after entry to vector `v` (R129). -/
def entryFlg (flg : Word) (v : Nat) (micro : Bool) : Word :=
  let f := setBits (setBits (setBits flg flgTE 1 0) flgTP 1 0) flgMIP 1 (b2n micro)
  if v ≤ 15 then setBits f flgEXL 1 1 else setBits f 16 5 (v - 16 + 1)

/-- Does entry to vector `v` write ESR (R129)? -/
def vectorHasSyndrome (v : Nat) : Bool := (1 ≤ v && v ≤ 6) || (8 ≤ v && v ≤ 10)

/-- The handler address at `a` is read, and the pc goes there; where it cannot be read the sequencer halts (R129, R131). -/
def State.readVector (s : State) (h : Fin 4) (a : Nat) : State :=
  match s.vectorWord h a with
  | none => (s.vectorErr h a).haltSeq h 4
  | some w => (s.vectorErr h a).setPc h w

/-- Does the write buffer of h hold a write to the row of the address map that holds `a` (R183)? -/
def State.buffers (s : State) (h : Fin 4) (a : Nat) : Bool := (s.seq h).wbuf.any fun e => regionOf e.addr = regionOf a

/-- Entry to vector `v` (R129): EPC and FLG are pushed below G15, EPC takes the return address `ret`, the status changes,
and the pc goes to the handler, whose word is read behind the buffered writes of its range (R183); a bad stack or vector halts
(R131). `micro` marks a micro-trap. -/
def State.enter (s : State) (h : Fin 4) (v : Nat) (ret : Word) (micro : Bool) (detail : Nat) (ear : Option Word) : State :=
  let q := s.seq h
  let sp := q.g[15] - 8
  let s := s.setG h 15 sp
  if !stackOk sp then s.haltSeq h 2
  else
    let s := s.setStudy h sp.toNat (bytesLE 4 q.epc.toNat ++ bytesLE 4 q.flg.toNat)
    let s := s.modSeq h fun q' => { q' with
      epc := ret
      flg := entryFlg q.flg v micro
      esr := if vectorHasSyndrome v then BitVec.ofNat 32 (v + 256 * detail) else q'.esr
      ear := if vectorHasSyndrome v then ear.getD q'.ear else q'.ear
      run := .running
      wait := none
      atomRep := false }
    let at' := (q.vbr.toNat + 4 * v) % 2 ^ 32
    if s.buffers h at' then s.modSeq h fun q' => { q' with vec := some at' } else s.readVector h at'

/-- A synchronous exception of the instruction at the pc (R127, R131): with EXL = 1 the sequencer halts. -/
def State.raise (s : State) (h : Fin 4) (v detail : Nat) (ear : Option Word) : State :=
  if s.flgBit h flgEXL then s.haltSeq h 1 else s.enter h v (s.seq h).pc false detail ear

/-- Vectors (R127). -/
def vecUD : Nat := 1
def vecBF : Nat := 2
def vecAF : Nat := 3
def vecFS : Nat := 4
def vecFE : Nat := 5
def vecLA : Nat := 6
def vecWD : Nat := 7
def vecTR : Nat := 8
def vecSC : Nat := 9
def vecMP : Nat := 10

/-! ### Returning from an exception -/

/-- RETI's pops (R130): pc from EPC, EPC and FLG from the stack; none when G15 is not an 8-aligned Study address. A PRI that no
level has, 17 to 31, is popped as it stands (DESIGN CHOICE, log entry 120). -/
def State.popEntry (s : State) (h : Fin 4) : Option State :=
  let q := s.seq h
  let sp := q.g[15]
  if !stackOk sp then none
  else
    let epc := BitVec.ofNat 32 (s.studyNum h sp.toNat 4)
    let flg := BitVec.ofNat 32 (s.studyNum h (sp.toNat + 4) 4)
    let s := s.setG h 15 (sp + 8)
    some (s.modSeq h fun q' => { q' with pc := q.epc, epc := epc, flg := flg &&& 0x001F1F0F#32 })

end Sys2Proof.Machine
end

