-- ==== Sys2Proof/Machine/Array.lean ====
section
/-! DEFINITION. The array: planes, parity, neighbour reads, micro-operations and the Chimney
(02_array_and_chimney.md R29 to R51). Units: 0 is HW, 1 to 8 are W0 to W7, 9 is HE. -/

namespace Sys2Proof.Machine

/-! ### Planes and parity -/

/-- What a plane that nothing has written reads as (R31: a wing clear leaves 0). -/
def planeDefault (_ : Nat) : Plane := 0

/-- What the parity marks of an unlisted plane read as: no mismatch. -/
def parDefault (_ : Nat) : BitVec 256 := 0

/-- A plane of a unit, without a parity check. -/
def State.plane (s : State) (u p : Nat) : Plane := sparseGet planeDefault s.arr.planes (4096 * u + p)

/-- A plane of a unit replaced. -/
def State.setPlane (s : State) (u p : Nat) (v : Plane) : State :=
  { s with arr := { s.arr with planes := sparseSet planeDefault s.arr.planes (4096 * u + p) v } }

/-- PE registers of a unit. -/
def State.pe (s : State) (u : Nat) : PeRegs := (s.arr.pe[u]?).getD {}

/-- PE registers of a unit replaced. -/
def State.setPe (s : State) (u : Nat) (r : PeRegs) : State :=
  { s with arr := { s.arr with pe := s.arr.pe.setIfInBounds u r } }

/-- A request for an array clock ends IDLE (R484). -/
def State.wakeArray (s : State) : State :=
  if s.getF (rg .sysPwrstat) F.sysPwrstat_STATE = 1 then
    (s.setF (rg .sysPwrstat) F.sysPwrstat_STATE 0).setF (rg .sysPwrctl) F.sysPwrctl_REQ 0
  else s

/-- New bits where the mask is 1, old bits elsewhere. -/
def selX (x new old : Plane) : Plane := (new &&& x) ||| (old &&& ~~~x)

/-- Bays (groups of 32 PEs) of a unit that have a PE in the mask. -/
def baysOf (x : Plane) : BitVec 256 :=
  BitVec.ofNat 256 ((List.range 256).foldl
    (fun acc b => if (x.toNat >>> (32 * b)) % 2 ^ 32 = 0 then acc else acc + 2 ^ b) 0)

/-- Bays whose stored parity disagrees for a plane of a unit (R50). -/
def State.parBad (s : State) (u p : Nat) : BitVec 256 := sparseGet parDefault s.arr.badPar (4096 * u + p)

/-- A write makes the parity of the bays written consistent (R50). -/
def State.fixPar (s : State) (u p : Nat) (x : Plane) : State :=
  if s.arr.badPar.isEmpty then s
  else { s with arr := { s.arr with
    badPar := sparseSet parDefault s.arr.badPar (4096 * u + p) (s.parBad u p &&& ~~~baysOf x) } }

/-- A write of a plane in the PEs of a mask (R50: a bay with no PE in the mask is not written). -/
def State.writePlane (s : State) (u p : Nat) (x v : Plane) : State :=
  (s.setPlane u p (selX x v (s.plane u p))).fixPar u p x

/-- Effects of a parity mismatch found by a read (R51); several bays of one read are captured in ascending order
(DESIGN CHOICE, log entry 20). -/
def State.parError (s : State) (u p port bay : Nat) : State :=
  if u = 0 ∨ u = 9 then
    if s.flag (rg .arrayHaloStat) F.arrayHaloStat_HPERR then s.setF (rg .arrayHaloStat) F.arrayHaloStat_HMULTI 1
    else
      let s := s.setF (rg .arrayHaloStat) F.arrayHaloStat_PLANE p
      let s := s.setF (rg .arrayHaloStat) F.arrayHaloStat_SIDE (if u = 9 then 1 else 0)
      s.setF (rg .arrayHaloStat) F.arrayHaloStat_HPERR 1
  else
    let w := u - 1
    let b := (s.arr.bpe[w]?).getD 0
    let s := { s with arr := { s.arr with bpe := s.arr.bpe.setIfInBounds w (b ||| BitVec.ofNat 256 (2 ^ bay)) } }
    s.capture (rg .wingPerr w) F.wingPerr_VALID F.wingPerr_MULTI fun v =>
      setBits (setBits (setBits v 0 12 p) 12 8 bay) 20 1 port

/-- The parity check of a read of plane `p` of unit `u` through port 0 (array reads) or 1 (inlet/outlet) (R50). -/
def State.checkPar (s : State) (u p port : Nat) : State :=
  if s.arr.badPar.isEmpty then s
  else forN 256 (fun bay s => if (s.parBad u p).getLsbD bay then s.parError u p port bay else s) s

/-! ### Wings -/

/-- Bit w of a wing mask. -/
def wingIn (mask : BitVec 8) (w : Nat) : Bool := mask.getLsbD w

/-- Is wing w ON (SYS_WPWR)? -/
def State.wingOn (s : State) (w : Nat) : Bool := bits (s.reg (rg .sysWpwr)) w 1 = 1

/-- Does a unit execute under an effective mask (R43)? -/
def unitExec (mask : BitVec 8) (u : Nat) : Bool :=
  if u = 0 then wingIn mask 0 else if u = 9 then wingIn mask 7 else wingIn mask (u - 1)

/-- Is wing w being cleared (SYS_WPWR.CLEARING)? -/
def State.wingClearing (s : State) (w : Nat) : Bool := bits (s.reg (rg .sysWpwr)) (8 + w) 1 = 1

/-- The executing units, west to east. -/
def execUnits (mask : BitVec 8) : List Nat := (List.range 10).filter (unitExec mask)

/-- Owner of wing w (R59). -/
def State.wingOwner (s : State) (w : Nat) : Nat := s.getF (rg .arrayWown) (F.arrayWown_OWN w)

/-- Mode of boundary k (R41): 0 JOIN, 1 ZERO, 2 WRAP. -/
def State.boundMode (s : State) (k : Nat) : Nat := s.getF (rg .arrayBound) (F.arrayBound_B k)

/-- Is the array in 2D mode (R57)? -/
def State.twoD (s : State) : Bool := s.flag (rg .arrayTopo) F.arrayTopo_MODE

/-- NSEDGE bit of wing w (R57). -/
def State.nsedge (s : State) (w : Nat) : Bool := (s.getF (rg .arrayTopo) F.arrayTopo_NSEDGE >>> w) % 2 = 1

/-! ### Neighbours (R39 to R42) -/

/-- NDIR of a micro-operation (R36). -/
inductive NDir where
  | none | e | w | e32 | w32 | north | south
  deriving DecidableEq, Repr

/-- The lowest wing of the segment of wing w (R41). -/
def segLo (mode : Nat → Nat) : Nat → Nat
  | 0 => 0
  | w + 1 => if mode (w + 1) = 0 then segLo mode w else w + 1

/-- The highest wing of the segment of wing `7 - n`. -/
def segHi (mode : Nat → Nat) : Nat → Nat
  | 0 => 7
  | n + 1 => if mode (7 - n) = 0 then segHi mode n else 7 - (n + 1)

/-- The unit whose B operand a read from unit `u` finds across its east (or west) boundary; none where it is 0
(R42). -/
def acrossUnit (mode : Nat → Nat) (east : Bool) (u : Nat) : Option Nat :=
  if east then
    if u = 9 then none
    else if mode u = 0 then some (u + 1)
    else if mode u = 2 ∧ u ≠ 0 then some (segLo mode (u - 1) + 1) else none
  else
    if u = 0 then none
    else if mode (u - 1) = 0 then some (u - 1)
    else if mode (u - 1) = 2 ∧ u ≠ 9 then some (segHi mode (7 - (u - 1)) + 1) else none

/-- PEs in a unit (R22). -/
def unitWidth (u : Nat) : Nat := if u = 0 ∨ u = 9 then 64 else 8192

/-- The low `n` bits. -/
def lowMask (n : Nat) : Plane := BitVec.ofNat 8192 (2 ^ n - 1)

/-- Array columns 0 to n - 1 of every row of a wing in 2D mode. -/
def colsBelow (n : Nat) : Plane := BitVec.ofNat 8192 ((2 ^ n - 1) * ((2 ^ 8192 - 1) / (2 ^ 128 - 1)))

/-- The 64 bits of a halo, bit r moved to column 0 of row r. -/
def haloSpread (v : Plane) : Plane :=
  BitVec.ofNat 8192 ((List.range 64).foldl (fun a r => a + (v.toNat >>> r) % 2 * 2 ^ (128 * r)) 0)

/-- Column c of a wing gathered into 64 bits, row r to bit r. -/
def colGather (v : Plane) (c : Nat) : Plane :=
  BitVec.ofNat 8192 ((List.range 64).foldl (fun a r => a + (v.toNat >>> (128 * r + c)) % 2 * 2 ^ r) 0)

/-- 1D: what every PE of unit `u` reads at distance `d` east or west; `b` gives the offered operands. -/
def nbr1D (mode : Nat → Nat) (east : Bool) (d u : Nat) (b : Nat → Plane) : Plane :=
  let n := unitWidth u
  let inner := if east then b u >>> d else b u <<< d
  let outer := match acrossUnit mode east u with
    | none => 0
    | some v => if east then (b v &&& lowMask d) <<< (n - d) else b v >>> (unitWidth v - d)
  (inner ||| outer) &&& unitOnes u

/-- 2D along the row (R40, R42). -/
def nbrRow (mode : Nat → Nat) (east : Bool) (d u : Nat) (b : Nat → Plane) : Plane :=
  if u = 0 ∨ u = 9 then
    match acrossUnit mode east u with
    | none => 0
    | some v => colGather (b v) (if east then d - 1 else 128 - d)
  else
    let inner := if east then (b u >>> d) &&& colsBelow (128 - d) else (b u &&& colsBelow (128 - d)) <<< d
    let outer := match acrossUnit mode east u with
      | none => 0
      | some v =>
        if v = 0 ∨ v = 9 then haloSpread (b v) <<< (if east then 128 - d else d - 1)
        else if east then (b v &&& colsBelow d) <<< (128 - d)
        else (b v >>> (128 - d)) &&& colsBelow d
    inner ||| outer

/-- 2D across rows: NORTH reads row r - 1, SOUTH row r + 1; `wrap` is NSEDGE (R40). -/
def nbrCol (wrap north : Bool) (u : Nat) (v : Plane) : Plane :=
  let k := if u = 0 ∨ u = 9 then 1 else 128
  let n := unitWidth u
  let inner := if north then v <<< k else v >>> k
  let outer := if !wrap then 0 else if north then v >>> (n - k) else v <<< (n - k)
  (inner ||| outer) &&& unitOnes u

/-- What the PEs of unit `u` read in a direction (R39 to R43). -/
def State.neighbour (s : State) (dir : NDir) (u : Nat) (b : Nat → Plane) : Plane :=
  let along (east : Bool) (d : Nat) := if s.twoD then nbrRow s.boundMode east d u b else nbr1D s.boundMode east d u b
  let wing := if u = 0 then 0 else if u = 9 then 7 else u - 1
  match dir with
  | .none => 0
  | .e => along true 1
  | .w => along false 1
  | .e32 => along true 32
  | .w32 => along false 32
  | .north => if s.twoD then nbrCol (s.nsedge wing) true u (b u) else 0
  | .south => if s.twoD then nbrCol (s.nsedge wing) false u (b u) else 0

/-! ### The Chimney (R46 to R49) -/

/-- Number of 1 bits among the low 2^k bits. -/
def popCount : Nat → Nat → Nat
  | 0, v => v % 2
  | k + 1, v => if v = 0 then 0 else popCount k (v % 2 ^ (2 ^ k)) + popCount k (v / 2 ^ (2 ^ k))

/-- Lowest 1 bit among the low 2^k bits of a nonzero number. -/
def lowBit : Nat → Nat → Nat
  | 0, _ => 0
  | k + 1, v => if v % 2 ^ (2 ^ k) ≠ 0 then lowBit k (v % 2 ^ (2 ^ k)) else 2 ^ k + lowBit k (v / 2 ^ (2 ^ k))

/-- Count and first of one wing's presented bits. -/
def wingResult (v : Plane) : Nat × Option Nat :=
  (popCount 13 v.toNat, if v = 0 then none else some (lowBit 13 v.toNat))

/-- A capture of the bits that each wing presents; wings that are OFF or being cleared present nothing (R46). -/
def State.startCapture (s : State) (h : Fin 4) (mask : BitVec 8) (bits : Nat → Plane) : State :=
  let ws := (List.range 8).filter (wingIn mask)
  let res := ws.map fun w =>
    (w, wingResult (if s.wingOn w && !s.wingClearing w then bits (w + 1) else 0))
  s.modSeq h fun q => { q with caps := q.caps ++ [{ mask, wings := res }] }

/-- CNT and FIRST words of a result (R47, R65, R66). -/
def cntWord (count : Nat) : Word := BitVec.ofNat 32 (count + (if count = 0 then 0 else 2 ^ 17) + 2 ^ 31)

def firstWord (first : Option Nat) : Word :=
  match first with
  | some i => BitVec.ofNat 32 (i + 2 ^ 31)
  | none => BitVec.ofNat 32 (2 ^ 30 + 2 ^ 31)

/-- The total of a capture: count and array-wide first index (R47). -/
def Capture.total (c : Capture) : Nat × Option Nat :=
  c.wings.foldl (fun (n, f) (w, k, i) => (n + k, match f with | some x => some x | none => i.map (8192 * w + ·)))
    (0, none)

/-- A capture's results become valid: the wing results of its wings and the total of its sequencer (R47, R48). -/
def State.putCapture (s : State) (h : Fin 4) (c : Capture) : State :=
  let s := c.wings.foldl (fun s (w, k, i) =>
    (s.setReg (rg .wingCnt w) (cntWord k)).setReg (rg .wingFirst w) (firstWord (i.map (8192 * w + ·)))) s
  let t := c.total
  (s.setReg (rg .chimCnt h) (cntWord t.1)).setReg (rg .chimFirst h) (firstWord t.2)

/-- The oldest capture of a sequencer completes (R48: in issue order). -/
def State.completeCapture (s : State) (h : Fin 4) : State :=
  match (s.seq h).caps with
  | [] => s
  | c :: cs => (s.modSeq h fun q => { q with caps := cs }).putCapture h c

/-- Every capture of a sequencer completes. -/
def State.completeCaptures (s : State) (h : Fin 4) : State :=
  forN (s.seq h).caps.length (fun _ s => s.completeCapture h) s

/-! ### Micro-operations (R36, R37) -/

/-- First or second operand. -/
inductive Opnd where
  | plane (p : Nat) | c | f | x | t | n | zero | one
  deriving DecidableEq, Repr

/-- Destination. -/
inductive Dest where
  | plane (p : Nat) | c | f | t | x | none
  deriving DecidableEq, Repr

/-- Chimney capture (R46). -/
inductive Cap where
  | none | result | f | parity
  deriving DecidableEq, Repr

/-- A micro-operation (R36). -/
structure Uop where
  a : Opnd
  b : Opnd := .zero
  add : Bool := false
  tt : Nat := 0xC
  invb : Bool := false
  dest : Dest
  ndir : NDir := .none
  cap : Cap := .none
  active : Bool := false
  deriving DecidableEq, Repr

/-- An operand of every PE of a unit. -/
def State.operand (s : State) (u : Nat) : Opnd → Plane
  | .plane p => s.plane u p
  | .c => (s.pe u).c
  | .f => (s.pe u).f
  | .x => (s.pe u).x
  | .t => (s.pe u).t
  | .n => (s.pe u).n
  | .zero => 0
  | .one => unitOnes u

/-- The parity check of an operand that is a plane; a plane named by both ports is one error (R51). -/
def State.checkOperand (s : State) (u : Nat) (o : Opnd) (other : Option Opnd) : State :=
  match o with
  | .plane p => if other = some (.plane p) then s else s.checkPar u p 0
  | _ => s

/-- The 4-bit truth table applied bit by bit: result TT[2A + B]. -/
def ttApply (tt : Nat) (a b : Plane) : Plane :=
  let pick (k : Nat) (v : Plane) : Plane := if (tt >>> k) % 2 = 1 then v else 0
  pick 0 (~~~a &&& ~~~b) ||| pick 1 (~~~a &&& b) ||| pick 2 (a &&& ~~~b) ||| pick 3 (a &&& b)

/-- Bit-by-bit majority. -/
def majP (a b c : Plane) : Plane := (a &&& b) ||| (a &&& c) ||| (b &&& c)

/-- A register or plane destination written where X is 1; X itself everywhere (R37). -/
def State.putDest (s : State) (u : Nat) (d : Dest) (x r : Plane) : State :=
  let p := s.pe u
  match d with
  | .plane n => s.writePlane u n x r
  | .c => s.setPe u { p with c := selX x r p.c }
  | .f => s.setPe u { p with f := selX x r p.f }
  | .t => s.setPe u { p with t := selX x r p.t }
  | .x => s.setPe u { p with x := r }
  | .none => s

/-- One micro-operation in one executing unit. Of several parity errors of one micro-operation, those of the units are
captured west to east (HW, W0 to W7, HE), and within a unit those of read A before those of read B, the bays of one read in
ascending order (R51; DESIGN CHOICE, log entry 20). `bs` are the B operands of all executing units, `nb` what this unit reads
from its neighbours. Answers the state and the result r. -/
def State.uopUnit (s : State) (o : Uop) (u : Nat) (bs : Nat → Plane) (nb : Plane) : State × Plane :=
  let s := (s.checkOperand u o.a none).checkOperand u o.b (some o.a)
  let a := s.operand u o.a
  let b := bs u
  let b' := if o.invb then ~~~b else b
  let p := s.pe u
  let r := (if o.add then a ^^^ b' ^^^ p.c else ttApply o.tt a b) &&& unitOnes u
  let s := if o.add then s.setPe u { p with c := selX p.x (majP a b' p.c) p.c } else s
  let s := s.putDest u o.dest p.x r
  let s := if o.ndir = .none then s else s.setPe u { s.pe u with n := nb }
  (s, r)

/-- BPE of every bay of wing w, presented by the bay's first PE (R46). -/
def State.parityBits (s : State) (w : Nat) : Plane :=
  let v := ((s.arr.bpe[w]?).getD 0).toNat
  BitVec.ofNat 8192 ((List.range 256).foldl (fun a b => a + (v >>> b) % 2 * 2 ^ (32 * b)) 0)

/-- One micro-operation of sequencer h over an effective mask (R36, R43, R44). All operands and neighbour reads are of
the planes and registers before it (R33). -/
def State.uop (s : State) (h : Fin 4) (mask : BitVec 8) (o : Uop) : State :=
  let s0 := s
  let bs (u : Nat) : Plane := if unitExec mask u then s0.operand u o.b else 0
  let go (acc : State × List (Nat × Plane)) (u : Nat) :=
    let nb := if o.ndir = .none then 0 else s0.neighbour o.ndir u bs
    let r := acc.1.uopUnit o u bs nb
    (r.1, acc.2 ++ [(u, r.2)])
  let out := (execUnits mask).foldl go (s, [])
  let s := out.1
  let act (u : Nat) (v : Plane) : Plane := if o.active then v &&& (s0.pe u).x else v
  match o.cap with
  | .none => s
  | .result => s.startCapture h mask fun u => act u (((out.2.find? (·.1 = u)).map (·.2)).getD 0)
  | .f => s.startCapture h mask fun u => act u (s.pe u).f
  | .parity => s.startCapture h mask fun u => s.parityBits (u - 1)

/-- The same change in every executing unit. -/
def State.forUnits (s : State) (mask : BitVec 8) (f : Nat → State → State) : State :=
  (execUnits mask).foldl (fun s u => f u s) s

/-! ### Wing clear, spill (R31, R137, R228) -/

/-- The halo beside a wing, if it has one. -/
def haloOf (w : Nat) : List Nat := if w = 0 then [0] else if w = 7 then [9] else []

/-- Plane memory, parity marks and PE registers of a unit at their clear values. -/
def State.clearUnit (s : State) (u : Nat) : State :=
  let s := { s with arr := { s.arr with
    planes := s.arr.planes.filter fun e => e.1 / 4096 ≠ u
    badPar := s.arr.badPar.filter fun e => e.1 / 4096 ≠ u } }
  s.setPe u (PeRegs.clear u)

/-- A wing clear ends (R31, R56): the wing and its halo hold their clear values, and the wing results are reset. -/
def State.clearWing (s : State) (w : Nat) : State :=
  let s := ((w + 1) :: haloOf w).foldl State.clearUnit s
  let s := { s with arr := { s.arr with
    bpe := s.arr.bpe.setIfInBounds w 0 } }
  let s := s.setReg (rg .sysWpwr) (setBits (s.reg (rg .sysWpwr)) (8 + w) 1 0)
  (s.resetReg (rg .wingCnt w)).resetReg (rg .wingFirst w)

/-- The lazy spill: C, F, X, T, N of the units of a mask into spill set `depth`; C becomes 0 (R137, R228). -/
def State.spill (s : State) (mask : BitVec 8) (depth : Nat) : State :=
  s.forUnits mask fun u s =>
    let p := s.pe u
    let put (k : Nat) (v : Plane) (s : State) := s.writePlane u (4064 + 5 * depth + k) (unitOnes u) v
    ((put 0 p.c s |> put 1 p.f |> put 2 p.x |> put 3 p.t |> put 4 p.n)).setPe u { p with c := 0 }

/-- The spilled PE state restored (R130); its planes are read through port A, so their parity is checked (R50): all five of a
unit, C, F, X, T, N, before the next unit's (DESIGN CHOICE, log entry 20). -/
def State.unspill (s : State) (mask : BitVec 8) (depth : Nat) : State :=
  s.forUnits mask fun u s =>
    let s := forN 5 (fun k s => s.checkPar u (4064 + 5 * depth + k) 0) s
    let get (k : Nat) := s.plane u (4064 + 5 * depth + k)
    s.setPe u { c := get 0, f := get 1, x := get 2, t := get 3, n := get 4 }

end Sys2Proof.Machine
end

