-- ==== Sys2Proof/Machine/RegBase.lean ====
section
/-! DEFINITION. What every register write has in common: the access codes (00_scope.md R9, R10) and the ownership rule
of OWNER fields (09_cellar_landing_dma.md R249). -/

namespace Sys2Proof.Machine

/-- The new word of a register under the access codes of its fields; `lock` is its lock bit (R9, R16). -/
def accessWrite (lock : Bool) (fs : List Field) (old v : Word) : Word :=
  fs.foldl (fun w f =>
    let o := f.of old
    let n := f.of v
    match f.acc with
    | .rw => setBits w f.lo f.width n
    | .ro => w
    | .w1c => setBits w f.lo f.width (o - (o &&& n))
    | .w1s => setBits w f.lo f.width (o ||| n)
    | .wo => w
    | .rwl => if lock then w else setBits w f.lo f.width n) old

/-- A write with no behaviour of its own (R9). -/
def State.writeDefault (s : State) (x : Reg) (v : Word) (lock : Bool := false) : State :=
  s.setReg x (accessWrite lock x.fam.info.fields (s.reg x) v)

/-- What a write of an OWNER field asks for (R249). -/
inductive ClaimRes where
  | claim | keep | release | refuse | nothing
  deriving DecidableEq, Repr

/-- The table of R249: code of the writer, current owner, written OWNER value. -/
def ownerRuleOf (o : Option Nat) (cur new : Nat) : ClaimRes :=
  match o with
  | none => .refuse
  | some w =>
    if new = w then (if cur = 0 then .claim else if cur = w then .keep else .refuse)
    else if new = 0 then (if cur = 0 then .nothing else if cur = w then .release else .refuse)
    else .refuse

/-- The rule for a requester with its own code. -/
def ownerRule (r : Requester) (cur new : Nat) : ClaimRes := ownerRuleOf (reqOwner r) cur new

/-- Does a requester own a resource whose OWNER field holds `cur`? -/
def owns (r : Requester) (cur : Nat) : Bool := reqOwner r = some cur

/-- Is the requester the same agent class that an owner code names, when a claim is tested beside other fields: the code of
the requester, 0 for a requester that owns nothing. -/
def ownCode (r : Requester) : Nat := (reqOwner r).getD 0

/-- Registers of a list back at their reset values. -/
def State.resetRegs (s : State) (l : List Reg) : State := l.foldl State.resetReg s

/-- Every member of a family. -/
def Fam.members (f : Fam) : List Reg :=
  (List.range f.info.n1).flatMap fun i => (List.range f.info.n2).map fun j => ⟨f, i, j⟩

/-- Ticks (ns) of a time in microseconds and milliseconds. -/
def usTicks (n : Nat) : Nat := 1000 * n
def msTicks (n : Nat) : Nat := 1000000 * n

/-- A source raised by a happening that no status bit records (log entry 23). -/
def State.latch (s : State) (src : Nat) : State :=
  let add (l : List Nat) : List Nat := if l.contains src then l else l ++ [src]
  { s with latched := add s.latched, fwd := add s.fwd }

/-- Such a source lowered. -/
def State.unlatch (s : State) (src : Nat) : State :=
  { s with latched := s.latched.filter (· ≠ src), fwd := s.fwd.filter (· ≠ src) }


/-- Is the requester a sequencer? -/
def fromSeq : Requester → Bool
  | .seq _ => true
  | _ => false

/-- Is the supply of bank b absent, so that its pins read 0 (R546)? -/
def State.supplyGone (s : State) (b : Nat) : Bool := s.getF (rg .bankStat b) F.bankStat_VLVL = 0

/-- Is the supply of bank b not valid, absent or out of range, so that its outputs are high impedance (R494, R546)? -/
def State.supplyOff (s : State) (b : Nat) : Bool := s.supplyGone b || s.getF (rg .bankStat b) F.bankStat_VLVL = 3

end Sys2Proof.Machine
end

