-- ==== Sys2Proof/Machine/ArrayRegs.lean ====
section
/-! DEFINITION. Registers of the array: ownership, boundaries, topology and error records (02_array_and_chimney.md R25, R26,
R51, R53 to R66). -/

namespace Sys2Proof.Machine

/-- A refusal in ARRAY_CLAIM (R54, R60). -/
def State.arrayRefuse (s : State) (code res : Nat) : State :=
  s.capture (rg .arrayClaim) F.arrayClaim_CLAIM_FAIL F.arrayClaim_MULTI fun w => setBits (setBits w 0 8 res) 8 4 code

/-- Several refusals of one write, in ascending order of RES (R54). -/
def State.arrayRefuseAll (s : State) (code : Nat) (l : List Nat) : State := l.foldl (fun s r => s.arrayRefuse code r) s

/-- Does a suspended routine of sequencer h name wing w (R26)? -/
def State.seqNames (s : State) (h : Fin 4) (w : Nat) : Bool := (s.seq h).susp.any fun t => t.routine.mask.getLsbD w

/-- Is sequencer number n halted? -/
def State.halted (s : State) (n : Nat) : Bool := (s.seq (Fin.ofNat 4 n)).run = .halted

/-- May sequencer h give wing w another owner (R26, R53)? A halted owner's routines do not hold the wing. A write that waits
(R55) when its own writer halts still takes effect: the test is of the owner alone (DESIGN CHOICE, log entry 95). -/
def State.ownRight (s : State) (h : Fin 4) (w : Nat) : Bool :=
  s.halted (s.wingOwner w) || (s.wingOwner w = h.val && !s.seqNames h w)

/-- A change of ARRAY_WOWN by sequencer h (R26, R53, R54). -/
def State.wownApply (s : State) (h : Fin 4) (v : Word) : State :=
  let asked (w : Nat) : Bool := bits v (2 * w) 2 ≠ s.wingOwner w
  let t := forN 8 (fun w t => if asked w && s.ownRight h w then t.setF (rg .arrayWown) (F.arrayWown_OWN w) (bits v (2 * w) 2) else t) s
  t.arrayRefuseAll h.val ((List.range 8).filter fun w => asked w && !s.ownRight h w)

/-- May sequencer h change boundary k (R53)? -/
def State.boundRight (s : State) (h : Fin 4) (k : Nat) : Bool :=
  (k = 0 || s.wingOwner (k - 1) = h.val) && (k = 8 || s.wingOwner k = h.val)

/-- A change of ARRAY_BOUND (R53, R54). -/
def State.boundApply (s : State) (h : Fin 4) (v : Word) : State :=
  let asked (k : Nat) : Bool := bits v (2 * k) 2 ≠ s.boundMode k
  let t := forN 9 (fun k t => if asked k && s.boundRight h k then t.setF (rg .arrayBound) (F.arrayBound_B k) (bits v (2 * k) 2) else t) s
  t.arrayRefuseAll h.val (((List.range 9).filter fun k => asked k && !s.boundRight h k).map (0x10 + ·))

/-- A change of ARRAY_TOPO (R53, R54). -/
def State.topoApply (s : State) (h : Fin 4) (v : Word) : State :=
  let x := rg .arrayTopo
  let asked (w : Nat) : Bool := bit v (8 + w) != bit (s.reg x) (8 + w)
  let own (w : Nat) : Bool := s.wingOwner w = h.val
  let mode := F.arrayTopo_MODE.of v ≠ s.getF x F.arrayTopo_MODE
  let all := (List.range 8).all own
  let t := forN 8 (fun w t => if asked w && own w then t.setReg x (setBits (t.reg x) (8 + w) 1 (bits v (8 + w) 1)) else t) s
  let t := if mode && all then t.setF x F.arrayTopo_MODE (F.arrayTopo_MODE.of v) else t
  t.arrayRefuseAll h.val
    (((List.range 8).filter fun w => asked w && !own w).map (8 + ·) ++ (if mode && !all then [0x20] else []))

/-- A write of the three registers takes its place among those of its sequencer that wait (R55); any other requester is
refused (R54). -/
def State.arrayQueue (s : State) (r : Requester) (a : ArrWrite) : State :=
  match r with
  | .seq h => s.modSeq h fun q => { q with arrWrites := q.arrWrites ++ [a] }
  | _ => s.arrayRefuse (reqCode r) 0x21

/-- The oldest waiting write takes effect, at an instruction boundary with the lane pipeline empty (R26, R55). -/
def State.arrayTakes (s : State) (h : Fin 4) : State :=
  let q := s.seq h
  match q.arrWrites with
  | [] => s
  | a :: rest =>
    if q.routine.isSome || !q.jobs.isEmpty then s
    else
      let s := s.modSeq h fun q => { q with arrWrites := rest }
      match a with
      | .wown v => s.wownApply h v
      | .bound v => s.boundApply h v
      | .topo v => s.topoApply h v

/-- Do writes of the three registers, or of SYS_WPWR, stand before the next array or lane instruction of h (R55, R488)? -/
def State.arrayWaits (s : State) (h : Fin 4) : Bool :=
  !(s.seq h).arrWrites.isEmpty || (s.seq h).wbuf.any fun e =>
    (decide (0x40300000 ≤ e.addr) && decide (e.addr < 0x4030000C)) || decide (e.addr = 0x40000000 + (rg .sysWpwr).off)

/-- Reserved encodings (R54). -/
def arrayReserved (x : Reg) (v : Word) : Bool :=
  match x.fam with
  | .arrayBound => (List.range 9).any fun k => bits v (2 * k) 2 = 3
  | _ => false

/-- Writes of the block (R54, R62 to R64). -/
def State.arrayWrite (s : State) (r : Requester) (x : Reg) (v : Word) : State :=
  match x.fam with
  | .arrayWown => s.arrayQueue r (.wown v)
  | .arrayBound => s.arrayQueue r (.bound v)
  | .arrayTopo => s.arrayQueue r (.topo v)
  | .arrayHaloStat =>
    let s := s.writeDefault x v
    let s := if F.arrayHaloStat_HPERR.of v = 1 then s.setF x F.arrayHaloStat_HMULTI 0 else s
    if F.arrayHaloStat_CLRCNT.of v = 1 then s.setF x F.arrayHaloStat_SEAMCOL 0 else s
  | .wingPerr =>
    let s := s.writeDefault x v
    if F.wingPerr_VALID.of v = 1 then
      { s.setF x F.wingPerr_MULTI 0 with arr := { s.arr with bpe := s.arr.bpe.setIfInBounds x.i 0 } }
    else s
  | .wingColcnt => if F.wingColcnt_CLR.of v = 1 then s.setF x F.wingColcnt_COUNT 0 else s
  | _ => s.writeDefault x v

end Sys2Proof.Machine
end

