-- ==== Sys2Proof/Machine/PcieCfg.lean ====
section
/-! DEFINITION. The configuration space of the PCI Express function: header, BARs, and the Power Management, PCI Express, MSI-X
and AER capabilities (15_pcie_host_port.md R437 to R440, R445). The spec names the fields and the standard; their places are
the standard's, the capabilities' offsets the model's (PRESUMED, log entry 17). -/

namespace Sys2Proof.Machine

def State.modPcie (s : State) (f : Pcie → Pcie) : State := { s with pcie := f s.pcie }

/-- The words that are not 0 after reset: capability list and pointers, 64-bit memory BARs (R440), Power Management at 0x40,
PCI Express at 0x50, MSI-X with 64 vectors at 0x90, AER at 0x100. -/
def cfgDefault (k : Nat) : Word :=
  match k with
  | 1 => 0x00100000
  | 4 => 0x00000004
  | 6 | 8 => 0x0000000C
  | 13 => 0x00000040
  | 16 => 0x00035001
  | 17 => 0x00000008
  | 20 => 0x00029010
  | 21 => 0x00008001
  | 22 => 0x00002810
  | 23 => 0x00000844
  | 31 => 0x0000001E
  | 32 => 0x00000004
  | 36 => 0x003F0011
  | 37 => 0x00F00000
  | 38 => 0x00F01000
  | 64 => 0x00020001
  | 67 => 0x00062030
  | 69 => 0x00002000
  | _ => 0

/-- Bits that a write sets: COMMAND, cache line size, the bases of BAR0 (16 MiB), BAR2 (256 KiB) and BAR4 (64 MiB), interrupt
line, PCI Express controls, MSI-X Enable and Function Mask, AER masks, severity and control. -/
def cfgRw (k : Nat) : Word :=
  match k with
  | 1 => 0x00000146
  | 3 => 0x000000FF
  | 4 => 0xFF000000
  | 6 => 0xFFFC0000
  | 8 => 0xFC000000
  | 5 | 7 | 9 => 0xFFFFFFFF
  | 15 => 0x000000FF
  | 22 => 0x000078FF
  | 24 => 0x000000C3
  | 32 => 0x0000000F
  | 36 => 0xC0000000
  | 66 | 67 => 0x001FF030
  | 69 => 0x000031C1
  | 70 => 0x00000140
  | _ => 0

/-- Bits that a 1 clears: STATUS, device status, AER status. -/
def cfgW1c (k : Nat) : Word :=
  match k with
  | 1 => 0xF9000000
  | 22 => 0x000F0000
  | 65 => 0x001FF030
  | 68 => 0x000031C1
  | _ => 0

/-- Word k of the configuration space as stored. -/
def State.cfgWord (s : State) (k : Nat) : Word := sparseGet cfgDefault s.pcie.cfg k

def State.setCfg (s : State) (k : Nat) (v : Word) : State := s.modPcie fun p => { p with cfg := sparseSet cfgDefault p.cfg k v }

/-- Bits of a word are set. -/
def State.orCfg (s : State) (k : Nat) (v : Word) : State := s.setCfg k (s.cfgWord k ||| v)

/-- Does the function take inbound memory requests: Memory Space Enable is 1 and it is not in D3hot (R437, R445; PRESUMED, log
entry 17)? -/
def State.hostOpen (s : State) : Bool := bit (s.cfgWord 1) 1 && !s.flag (rg .pcieLink) F.pcieLink_D3

/-- Bus Master Enable, MSI-X Enable and Function Mask (R443, R444). -/
def State.bme (s : State) : Bool := bit (s.cfgWord 1) 2
def State.msixEn (s : State) : Bool := bit (s.cfgWord 36) 31
def State.fmask (s : State) : Bool := bit (s.cfgWord 36) 30

/-- Max Payload Size and Max Read Request Size in bytes (R437). -/
def State.maxPayload (s : State) : Nat := 128 * 2 ^ bits (s.cfgWord 22) 5 3
def State.maxRead (s : State) : Nat := 128 * 2 ^ bits (s.cfgWord 22) 12 3

/-- What a read returns: identifiers from the PCIE registers (R439), the D-state, and the link's rate and width. -/
def State.cfgRead (s : State) (k : Nat) : Word :=
  let link := s.reg (rg .pcieLink)
  match k with
  | 0 => BitVec.ofNat 32 (Config.vendorId.toNat + 65536 * 0x6541)
  | 2 => BitVec.ofNat 32 (Config.siliconRev.toNat + 256 * 0x118000)
  | 11 => s.reg (rg .pcieSubsys)
  | 17 => setBits (s.cfgWord 17) 0 2 (if F.pcieLink_D3.of link = 1 then 3 else 0)
  | 24 => setBits (setBits (s.cfgWord 24) 16 4 (F.pcieLink_SPEED.of link)) 20 6 (F.pcieLink_WIDTH.of link)
  | _ => s.cfgWord k

/-- The bits that the byte enables of a request select. -/
def beMask (be : BitVec 4) : Word :=
  BitVec.ofNat 32 (((List.range 4).map fun i => if be.getLsbD i then 0xFF * 256 ^ i else 0).sum)

/-- Device control as written: a Max Payload Size above 256 or a Max Read Request Size above 512 leaves the field as it was
(R437; PRESUMED, log entry 17). -/
def devCtl (old v : Word) : Word :=
  let v := if 1 < bits v 5 3 then setBits v 5 3 (bits old 5 3) else v
  if 2 < bits v 12 3 then setBits v 12 3 (bits old 12 3) else v

/-- A write of a word. -/
def State.cfgStore (s : State) (k : Nat) (be : BitVec 4) (v : Word) : State :=
  let m := beMask be
  let old := s.cfgWord k
  let w := ((old &&& ~~~(cfgRw k &&& m)) ||| (v &&& cfgRw k &&& m)) &&& ~~~(v &&& cfgW1c k &&& m)
  s.setCfg k (if k = 22 then devCtl old w else w)

/-! ### AER (R445) -/

/-- Errors of the uncorrectable status register that this port can meet. -/
def aerPoisoned : Nat := 12
def aerTimeout : Nat := 14
def aerAbort : Nat := 15
def aerUnexpected : Nat := 16
def aerMalformed : Nat := 18
def aerUnsupported : Nat := 20

/-- The header of the TLP behind an error goes into the Header Log; no command carries it, so it is free (log entries 2 and 17). -/
def State.headerLog (s : State) : State := forN 4 (fun k s => s.fresh.2.setCfg (71 + k) s.fresh.1) s

/-- Is a first error recorded: does the First Error Pointer name a status bit that is set? -/
def State.aerFirst (s : State) : Bool := bit (s.cfgWord 65) (bits (s.cfgWord 70) 0 5)

/-- The error message that an error sends, if any: 0 ERR_COR, 1 ERR_NONFATAL, 2 ERR_FATAL. The masks and the enables of device
control and SERR# Enable hold it back. -/
def State.aerMessage (s : State) (b : Nat) (adv fatal : Bool) : Option (Fin 3) :=
  let en (k : Nat) : Bool := bit (s.cfgWord 22) k
  let serr := bit (s.cfgWord 1) 8
  if bit (s.cfgWord 66) b then none
  else if adv then (if en 0 && !bit (s.cfgWord 69) 13 then some 0 else none)
  else if b = aerUnsupported && !en 3 && !serr then none
  else if fatal then (if en 2 || serr then some 2 else none)
  else if en 1 || serr then some 1 else none

/-- An uncorrectable error is logged: its bit and device status; where no mask stands before it and no first error is recorded, the
first error's number and, but for a timeout, the Header Log. One of non-fatal severity on a request that gets an answer is
advisory, and is logged as a correctable error too. An error message follows where it is enabled. -/
def State.aerLog (s : State) (b : Nat) (advisory : Bool) : State :=
  let fatal := bit (s.cfgWord 67) b
  let adv := advisory && !fatal
  let send := s.aerMessage b adv fatal
  let s := if bit (s.cfgWord 66) b || (adv && bit (s.cfgWord 69) 13) || s.aerFirst then s
    else
      let s := s.setCfg 70 (setBits (s.cfgWord 70) 0 5 b)
      if b = aerTimeout then s else s.headerLog
  let s := s.orCfg 65 (1#32 <<< b)
  let s := if adv then s.orCfg 68 0x2000 else s
  let s := if b = aerUnsupported then s.orCfg 22 0x80000 else s
  let s := s.orCfg 22 (if fatal then 0x40000 else if adv then 0x10000 else 0x20000)
  match send with
  | some k => s.modPcie fun p => { p with tlps := p.tlps ++ [.error k] }
  | none => s

end Sys2Proof.Machine
end

