-- ==== Sys2Proof/Machine/Cellar.lean ====
section
/-! DEFINITION. The Cellar's power, errors and Planisher, the tag pool and the DMA channels' registers
(09_cellar_landing_dma.md R232 to R266). -/

namespace Sys2Proof.Machine

/-! ### Bank power (R240 to R243) -/

/-- The state of bank b. -/
def State.bank (s : State) (b : Nat) : BankState := (s.cellar.bank[b]?).getD .off

def State.setBank (s : State) (b : Nat) (v : BankState) : State :=
  { s with cellar := { s.cellar with bank := s.cellar.bank.setIfInBounds b v } }

/-- The state that CELLAR_PWR0 or CELLAR_PWR1 asks for bank b: 0 ON, 1 RETAIN, 2 OFF. -/
def State.bankReq (s : State) (b : Nat) : Nat :=
  if b < 16 then s.getF (rg .cellarPwr0) (F.cellarPwr0_BANK b) else s.getF (rg .cellarPwr1) (F.cellarPwr1_BANK (b - 16))

/-- Is bank b WAKING? -/
def State.bankWaking (s : State) (b : Nat) : Bool :=
  match s.bank b with
  | .waking _ => true
  | _ => false

/-- CELLAR_WAKE (R262). -/
def State.wakeWord (s : State) : Word :=
  BitVec.ofNat 32 (((List.range 32).map fun b => if s.bankWaking b then 2 ^ b else 0).sum)

/-- Bytes of bank b lose their contents: they read as zero-filled when the bank has woken (R241). -/
def State.zeroBank (s : State) (b : Nat) : State :=
  let lo := 0x20000000 + bankBytes * b
  let outside (k : Nat) : Bool := k < lo || lo + bankBytes ≤ k
  { s with
    mem := s.mem.filter fun e => outside e.1
    cellar := { s.cellar with weak := s.cellar.weak.filter outside, bad := s.cellar.bad.filter outside } }

/-- A request of ON for bank b: from RETAIN or OFF it wakes (R240). -/
def State.bankOn (s : State) (b : Nat) : State :=
  match s.bank b with
  | .off => s.setBank b (.waking true)
  | .retain => s.setBank b (.waking false)
  | _ => s

/-- A write of CELLAR_PWR0 (first = 0) or CELLAR_PWR1 (first = 16) (R240). A change to RETAIN or OFF waits for the
accesses already granted (BANK_POWER_DOWN). -/
def State.pwrWrite (s : State) (x : Reg) (first : Nat) (v : Word) : State :=
  forN 16 (fun k s => if bits v (2 * k) 2 = 0 then s.bankOn (first + k) else s) (s.writeDefault x v)

/-- A change to RETAIN or OFF takes effect at bank b (R240); contents that R240 calls lost are gone, and an OFF bank that
RETAIN is requested for stays OFF (DESIGN CHOICE, log entry 24). A change during a March test is a cut of its window
(`planDrop`). -/
def State.bankDown (s : State) (b : Nat) : State :=
  match s.bank b, s.bankReq b with
  | .on, 1 => s.setBank b .retain
  | .on, 2 | .retain, 2 => (s.zeroBank b).setBank b .off
  | _, _ => s

/-- A wake ends (R241): the bank is ON, source 748 rises, and a change requested meanwhile is applied (R240). -/
def State.bankWakeEnd (s : State) (b : Nat) : State :=
  match s.bank b with
  | .waking fromOff =>
    let s := if fromOff then s.zeroBank b else s
    ((s.setBank b .on).latch 748).bankDown b
  | _ => s

/-- Entry to DEEP (R243): every ON bank goes OFF, and so does one that is WAKING, which wakes again at the exit (DEDUCED, log
entry 125). -/
def State.banksDeep (s : State) : State :=
  forN 32 (fun b s => match s.bank b with
    | .on | .waking _ => (s.zeroBank b).setBank b .off
    | _ => s) s

/-! ### Error registers (R236, R263) -/

/-- CELLAR_ECC written: CLR zeroes CECNT (R263). -/
def State.eccWrite (s : State) (v : Word) : State :=
  let s := s.writeDefault (rg .cellarEcc) v
  if F.cellarEcc_CLR.of v = 1 then s.setF (rg .cellarEcc) F.cellarEcc_CECNT 0 else s

/-- CELLAR_LANDERR written: clearing LAND_COLLIDE clears COUNT (R263). -/
def State.landErrWrite (s : State) (v : Word) : State :=
  let s := s.writeDefault (rg .cellarLanderr) v
  if F.cellarLanderr_LAND_COLLIDE.of v = 1 then s.setF (rg .cellarLanderr) F.cellarLanderr_COUNT 0 else s

/-- A port B write dropped (R247): capture and count; the level of source 747 follows LAND_COLLIDE. -/
def State.landDrop (s : State) (req a : Nat) : State :=
  let s := s.capture (rg .cellarLanderr) F.cellarLanderr_LAND_COLLIDE F.cellarLanderr_MULTI fun w =>
    setBits (setBits w 0 18 ((a - 0x10000000) / 4 * 4)) 18 4 req
  s.setF (rg .cellarLanderr) F.cellarLanderr_COUNT (satAdd (s.getF (rg .cellarLanderr) F.cellarLanderr_COUNT) 1 255)

/-- A port B write into the Landing beside writes of port A: `hit` names the words that port A writes in the same ACLK (R247).
An access with such a word is dropped whole, captured with its lowest such word and counted; the other accesses of a burst are
performed. The flags tell whether an access was dropped, and whether every other one was written. -/
def State.landWrite (s : State) (req a : Nat) (bs : List Byte) (hit : List (BitVec 16)) : State × Bool × Bool :=
  if hit.isEmpty then
    let t := s.ramWrite req a bs
    (t.1, false, t.2)
  else (ramAccesses a bs).foldl (fun (t : State × Bool × Bool) p =>
    match (span ((p.1 - 0x10000000) / 4) ((p.1 % 4 + p.2.length + 3) / 4)).find? fun w => hit.contains (BitVec.ofNat 16 w) with
    | some w => (t.1.landDrop req (0x10000000 + 4 * w), true, t.2.2)
    | none =>
      let u := t.1.ramAccess req p.1 p.2
      (u.1, t.2.1, t.2.2 && u.2)) (s, false, true)

/-- A starvation report (R238): one of the five classes of R237 rule 3 or the Planisher, which R239 encodes as 4 to 9, and the
bank. -/
def State.starve (s : State) (cls : Fin 6) (b : Nat) : State :=
  if s.getF (rg .cellarStarve) F.cellarStarve_LIMIT = 0 then s
  else s.capture (rg .cellarStarveStat) F.cellarStarveStat_VALID F.cellarStarveStat_MULTI fun w =>
    setBits (setBits w 0 4 (4 + cls.val)) 4 5 b

/-! ### Tags (R256, R264) -/

/-- Tags held now. -/
def State.inuse (s : State) : Nat := s.reqs.length

/-- Is a request a DMA channel's? -/
def Req.isDma (q : Req) : Bool :=
  match q.who with
  | .dma _ => true
  | _ => false

/-- The lowest tag that a new request may take: 4,032 to 4,095 are kept for sequencers, and DMA channels together hold at
most DMAMAX (R256); none while it waits. -/
def State.freeTag (s : State) (who : ReqWho) : Option Nat :=
  let used (t : Nat) : Bool := s.reqs.any fun q => q.tag = t
  let free := lowest (fun t => !used t)
  match who with
  | .load _ | .store _ => free 4096
  | .dma _ =>
    if (s.reqs.filter Req.isDma).length < s.getF (rg .cellarTaglim) F.cellarTaglim_DMAMAX then free 4032 else none
  | _ => free 4032

/-- A request takes its place in the pool; HIGH follows INUSE (R264). -/
def State.addReq (s : State) (q : Req) : State :=
  let s := { s with reqs := s.reqs ++ [q] }
  s.setF (rg .cellarTags) F.cellarTags_HIGH (Nat.max (s.getF (rg .cellarTags) F.cellarTags_HIGH) s.inuse)

/-- The request that holds a tag. -/
def State.findReq (s : State) (tag : Nat) : Option Req := s.reqs.find? fun q => q.tag = tag

/-- A tag comes back. -/
def State.dropReq (s : State) (tag : Nat) : State := { s with reqs := s.reqs.filter fun q => q.tag ≠ tag }

/-- CELLAR_TAGS as it reads (R264). -/
def State.tagsWord (s : State) : Word := setBits (s.reg (rg .cellarTags)) 0 13 s.inuse

/-- CLRHIGH (R264). -/
def State.tagsWrite (s : State) (v : Word) : State :=
  if F.cellarTags_CLRHIGH.of v = 1 then s.setF (rg .cellarTags) F.cellarTags_HIGH s.inuse else s

/-! ### DMA channels (R248 to R255) -/

/-- A DMA channel's engine. -/
def State.dmaCh (s : State) (c : Fin 48) : DmaCh := s.dma[c]

def State.modDma (s : State) (c : Fin 48) (f : DmaCh → DmaCh) : State := { s with dma := s.dma.set c (f (s.dma[c])) }

/-- STATE of a channel: 0 IDLE, 1 ACTIVE, 2 ERROR (R266). -/
def State.dmaState (s : State) (c : Fin 48) : Nat := s.getF (rg .dmaStat c) F.dmaStat_STATE

/-- A refused claim, write or launch start is captured (R249). -/
def State.dmaRefuse (s : State) (c : Fin 48) (code : Nat) (launch : Bool) : State :=
  s.capture (rg .cellarClaim) F.cellarClaim_CLAIM_FAIL F.cellarClaim_MULTI fun w =>
    setBits (setBits (setBits w 0 6 c.val) 6 4 code) 10 1 (b2n launch)

/-- The bursts that a stopped channel has issued complete, and their tags come back with their responses or timeouts (R253);
no answer reaches the channel. -/
def State.dmaOrphan (s : State) (c : Fin 48) : State :=
  { s with
    pcie := { s.pcie with tlps := s.pcie.tlps.map fun t => match t with
      | .write a l w => .write a l (if w = some (.dma c) then none else w)
      | t => t }
    reqs := s.reqs.map fun q => if q.who = .dma c then { q with dead := true } else q
    annex := { s.annex with wins := s.annex.wins.map fun q => if q.who = .dma c then { q with dead := true } else q } }

/-- A channel error ends the chain (R251, R255): source 576 + c is asserted in ERROR whatever IRQ holds. A start pending then falls to a
channel in ERROR, where a start is ignored (R253; DEDUCED, log entry 25). -/
def State.dmaFail (s : State) (c : Fin 48) (err : Nat) : State :=
  let s := s.setF (rg .dmaStat c) F.dmaStat_STATE 2
  let s := s.setF (rg .dmaStat c) F.dmaStat_ERR err
  let s := s.setF (rg .dmaStat c) F.dmaStat_PEND 0
  (s.modDma c fun _ => {}).dmaOrphan c

/-- A descriptor as the 32 bytes at its address spell it (R250). -/
def Desc.ofWords (w0 w1 src dst w4 ss ds next : Word) : Desc where
  kind := bits w0 0 2
  irq := bit w0 2
  chain := bit w0 3
  len := bits w1 0 24
  src := src
  dst := dst
  rows := bits w4 0 16
  sstride := ss
  dstride := ds
  next := next &&& 0xFFFFFFE0

/-- Reserved encodings and nonzero reserved fields of a descriptor (R250, error 0x02). -/
def descReserved (w0 w1 w4 ss ds next : Word) : Bool :=
  bits w0 0 2 = 3 || bits w0 4 28 ≠ 0 || bits w1 24 8 ≠ 0 || bits w1 0 24 = 0 || bits w4 16 16 ≠ 0 ||
    bits next 0 5 ≠ 0 || (bits w0 0 2 ≠ 1 && (bits w4 0 16 ≠ 0 || ss ≠ 0 || ds ≠ 0))

/-- May a DMA channel touch the `n` bytes at `a` (R248, R251)? Registers only as aligned words (R7). -/
def dmaRangeOk (a n : Nat) : Bool :=
  match regionOfRange a n with
  | some .landing | some .cellar | some .annex | some .remote | some .pcie => decide (a + n ≤ 2 ^ 32)
  | some .regs => a % 4 = 0 && n % 4 = 0
  | _ => false

/-- Address of row `r` of a source or destination. -/
def rowAddr (base stride : Word) (r : Nat) : Nat := (base + stride * BitVec.ofNat 32 r).toNat

/-- The range check of a descriptor: error 0x03 for the source, 0x04 for the destination (R251, R255). -/
def Desc.rangeErr (d : Desc) : Option Nat :=
  let rows := List.range (d.rows + 1)
  if d.kind ≠ 2 && rows.any fun r => !dmaRangeOk (rowAddr d.src d.sstride r) d.len then some 3
  else if rows.any fun r => !dmaRangeOk (rowAddr d.dst d.dstride r) d.len then some 4
  else none

/-- Reading the descriptor whose address CELLAR_DMA[c]_CUR holds (R251): a WAKING bank makes the channel wait. -/
def State.dmaFetch (s : State) (c : Fin 48) : State :=
  let a := (s.reg (rg .dmaCur c)).toNat
  match regionOfRange a 32 with
  | some .landing | some .cellar =>
    match s.bankSt a with
    | .retain | .off => s.dmaFail c 1
    | .waking _ => s
    | .on =>
      match s.ramRead 5 a 32 with
      | (s, none) => s.dmaFail c 5
      | (s, some _) =>
        let w (k : Nat) : Word := BitVec.ofNat 32 (s.memNum (a + 4 * k) 4)
        if descReserved (w 0) (w 1) (w 4) (w 5) (w 6) (w 7) then s.dmaFail c 2
        else
          let d := Desc.ofWords (w 0) (w 1) (w 2) (w 3) (w 4) (w 5) (w 6) (w 7)
          match d.rangeErr with
          | some e => s.dmaFail c e
          | none => s.modDma c fun k => { desc := some d, tmo := k.tmo, mrrs := k.mrrs }
  | _ => s.dmaFail c 1

/-- A chain begins at the address in CELLAR_DMA[c]_DESC and with the limit in CELLAR_DMA[c]_TMO (R253, R266); ERR keeps its
code. -/
def State.dmaBegin (s : State) (c : Fin 48) : State :=
  let s := s.modDma c fun k => { k with tmo := s.getF (rg .dmaTmo c) F.dmaTmo_TIMEOUT, mrrs := s.maxRead }
  let s := s.setF (rg .dmaStat c) F.dmaStat_STATE 1
  let s := s.setReg (rg .dmaCur c) (s.reg (rg .dmaDesc c))
  s.dmaFetch c

/-- START (R253). -/
def State.dmaStart (s : State) (c : Fin 48) : State :=
  match s.dmaState c with
  | 0 => s.dmaBegin c
  | 1 =>
    if s.flag (rg .dmaStat c) F.dmaStat_PEND then s.setF (rg .dmaStat c) F.dmaStat_OVR 1
    else s.setF (rg .dmaStat c) F.dmaStat_PEND 1
  | _ => s

/-- ABORT (R253): the channel returns to IDLE; the tags of its bursts come back with their responses or timeouts. Source
576 + c is asserted while ERR holds the 0x09 of an abort of an ACTIVE channel (R451). -/
def State.dmaAbort (s : State) (c : Fin 48) : State :=
  let active := s.dmaState c = 1
  let s := s.setF (rg .dmaStat c) F.dmaStat_PEND 0
  let s := s.setF (rg .dmaStat c) F.dmaStat_STATE 0
  let s := s.setF (rg .dmaStat c) F.dmaStat_ERR (if active then 9 else 0)
  (s.modDma c fun _ => {}).dmaOrphan c

/-- The chain ends (R252): DONE, and a pending start is taken (R253). -/
def State.dmaChainEnd (s : State) (c : Fin 48) : State :=
  let s := s.setF (rg .dmaStat c) F.dmaStat_DONE 1
  let s := s.setF (rg .dmaStat c) F.dmaStat_STATE 0
  let s := s.modDma c fun _ => {}
  if s.flag (rg .dmaStat c) F.dmaStat_PEND then (s.setF (rg .dmaStat c) F.dmaStat_PEND 0).dmaBegin c else s

/-- A descriptor's writes are all performed (R252). -/
def State.dmaDescDone (s : State) (c : Fin 48) (d : Desc) : State :=
  let s := if d.irq then s.latch (576 + c.val) else s
  if d.chain then ((s.modDma c fun k => { tmo := k.tmo, mrrs := k.mrrs }).setReg (rg .dmaCur c) d.next).dmaFetch c
  else s.dmaChainEnd c

/-- A write of CELLAR_DMA[c]_CTL (R249, R253). -/
def State.dmaCtlWrite (s : State) (r : Requester) (c : Fin 48) (v : Word) : State :=
  let x := rg .dmaCtl c
  let other (s : State) : State :=
    let s := s.setF x F.dmaCtl_PRI (F.dmaCtl_PRI.of v)
    if F.dmaCtl_ABORT.of v = 1 then s.dmaAbort c
    else if F.dmaCtl_START.of v = 1 then s.dmaStart c else s
  match ownerRule r (s.getF x F.dmaCtl_OWNER) (F.dmaCtl_OWNER.of v) with
  | .claim => other (s.setF x F.dmaCtl_OWNER (F.dmaCtl_OWNER.of v))
  | .keep => other s
  | .release =>
    let s := if s.dmaState c = 1 then s.dmaAbort c else s
    s.setF x F.dmaCtl_OWNER 0
  | .nothing => s
  | .refuse => s.dmaRefuse c (reqCode r) false

/-- A write of CELLAR_DMA[c]_DESC or CELLAR_DMA[c]_TMO, by the owner only (R266). Both are read only at a start. -/
def State.dmaOwnedWrite (s : State) (r : Requester) (x : Reg) (c : Fin 48) (v : Word) : State :=
  if owns r (s.getF (rg .dmaCtl c) F.dmaCtl_OWNER) then s.writeDefault x v else s.dmaRefuse c (reqCode r) false

/-- A write of CELLAR_DMA[c]_STAT: clearing DONE lowers source 576 + c (log entry 23). -/
def State.dmaStatWrite (s : State) (c : Fin 48) (v : Word) : State :=
  let s := s.writeDefault (rg .dmaStat c) v
  if F.dmaStat_DONE.of v = 1 then s.unlatch (576 + c.val) else s

/-- A launch entry owned by `owner` starts channel c (R249). -/
def State.dmaLaunch (s : State) (c : Fin 48) (owner code : Nat) : State :=
  if owner ≠ 0 && s.getF (rg .dmaCtl c) F.dmaCtl_OWNER = owner then s.dmaStart c else s.dmaRefuse c code true

/-- A late response of a channel (R254). -/
def State.dmaLate (s : State) (c : Fin 48) : State :=
  s.setF (rg .dmaStat c) F.dmaStat_LATE (satAdd (s.getF (rg .dmaStat c) F.dmaStat_LATE) 1 255)

/-! ### Interleave (R234) -/

/-- A write of CELLAR_CFG: the change is held until ILV_CHANGE (R234). -/
def State.cfgWrite (s : State) (v : Word) : State :=
  let n := F.cellarCfg_ILV.of v
  { s with cellar := { s.cellar with
      ilvReq := if n = s.getF (rg .cellarCfg) F.cellarCfg_ILV then none else some n } }

/-- Is no Cellar access outstanding or queued, and no bank waking (R234)? -/
def State.cellarQuiet (s : State) : Bool :=
  (List.range 32).all (fun b => !s.bankWaking b) &&
    (List.finRange 4).all fun h => (s.seq h).wbuf.all fun e => regionOf e.addr ≠ some .cellar

/-- A held change of ILV takes effect (R234). -/
def State.ilvChange (s : State) : State :=
  match s.cellar.ilvReq with
  | none => s
  | some n =>
    if s.cellarQuiet then
      let s := s.setF (rg .cellarCfg) F.cellarCfg_ILV n
      { s with cellar := { s.cellar with ilvReq := none } }
    else s

/-! ### The Planisher (R257 to R259, R265) -/

/-- Is bank b visited in this pass: its bit was 1 at the pass's start and the bank is ON (R265)? -/
def State.planVisits (s : State) (b : Nat) : Bool := bit s.cellar.planBanks b && decide (s.bank b = .on)

/-- The first window to visit at or after window `w` of bank `b`; none at the end of the banks. -/
def State.planFrom (s : State) (b w : Nat) : Option (Nat × Nat) :=
  if b < 32 && w < 384 && s.planVisits b then some (b, w)
  else ((List.range 32).find? fun k => decide (b < k) && s.planVisits k).map fun k => (k, 0)

/-- Protected words of the window, by the key of their first byte. -/
def inWindow (b w k : Nat) : Bool :=
  let lo := 0x20000000 + bankBytes * b + 4096 * w
  decide (lo ≤ k) && decide (k < lo + 4096)

/-- A March failure (R259): captured; source 749 follows VALID. -/
def State.marchFail (s : State) (b row bitNo : Nat) : State :=
  s.capture (rg .cellarPlanFail) F.cellarPlanFail_VALID F.cellarPlanFail_MULTI fun w =>
    setBits (setBits (setBits w 0 5 b) 5 16 row) 21 9 bitNo

/-- The rows of a window up to `top`: their single-bit errors are counted, and gone where the rows are written back (R236, R257). -/
def State.planCount (s : State) (b w top : Nat) (back : Bool) : State :=
  let here (k : Nat) : Bool := inWindow b w k && decide (k < top)
  let n := (s.cellar.weak.filter here).length
  let s := s.setF (rg .cellarEcc) F.cellarEcc_CECNT (satAdd (s.getF (rg .cellarEcc) F.cellarEcc_CECNT) n 65535)
  if back then { s with cellar := { s.cellar with weak := s.cellar.weak.filter fun k => !here k } } else s

/-- The Cellar address of the byte at place `p` of bank b (R233). -/
def State.bankAddr (s : State) (b p : Nat) : Nat :=
  let g := s.ilvWidth
  0x20000000 + (b / g) * (g * bankBytes) + ((p / 256) * g + b % g) * 256 + p % 256

/-- What reading the rows of a window in ascending order finds (R236), and whether it goes on: single-bit errors are counted, and
what is written back has fresh check bits, a scrub's rows one by one and a March test's at its end; the first row with an
uncorrectable error is recorded in CELLAR_PLAN_FAIL and CELLAR_ECCADDR, with a free BIT (log entry 2), and the window is
skipped. -/
def State.planRead (s : State) (b w : Nat) (scrub : Bool) : State × Bool :=
  let lo := 0x20000000 + bankBytes * b
  match lowest (fun i => s.cellar.bad.any fun k => inWindow b w k && (k - lo) / 32 = 128 * w + i) 128 with
  | some i =>
    let row := lo + 32 * (128 * w + i)
    let s := s.planCount b w row scrub
    let s := (List.range 4).foldl (fun s j =>
      if s.cellar.bad.contains (row + 8 * j) then s.eccCaptureAt 9 (s.bankAddr b (row + 8 * j - lo)) else s) s
    let t := s.fresh
    (t.2.marchFail b (128 * w + i) (t.1.toNat % 288), false)
  | none => (s.planCount b w (lo + 4096 * (w + 1)) true, true)

/-- A scrub of a window (R257). -/
def State.scrub (s : State) (b w : Nat) : State := (s.planRead b w true).1

/-- A March test of a window (R257, R259): `fail` names the first failing row of the window and its lowest failing bit. The
shadow, which the first read fills, comes back. -/
def State.march (s : State) (b w : Nat) (fail : Option (Nat × Nat)) : State :=
  match s.planRead b w false, fail with
  | (s, true), some (row, n) => s.marchFail b (128 * w + row) n
  | (s, _), _ => s

/-- What a March test that is left without a write-back leaves in its window: free bytes (log entry 98). -/
def State.freeWindow (s : State) (b w : Nat) : State :=
  let lo := 0x20000000 + bankBytes * b + 4096 * w
  let k := s.free
  let mem := forN 4096 (fun i m =>
    sparseSet memDefault m (lo + i) ((Config.freeWord (k + i / 4) >>> (8 * (i % 4))).setWidth 8)) s.mem
  { s with mem := mem, free := k + 1024 }

/-- A window abandoned (R258): counted, and to be tried again in the pass. A failure that the test had found before is captured
(R259). A sequencer's access finds its data in the shadow, which is written back; a change of the bank's state leaves no
write-back. -/
def State.planDrop (s : State) (b w : Nat) (cut : PlanCut) (fail : Option (Nat × Nat)) : State :=
  let whole := (s.planRead b w false).2
  let s := s.march b w fail
  if !whole then s
  else
    let s := { s with cellar := { s.cellar with planRetry := s.cellar.planRetry ++ [(b, w)] } }
    let s := s.setF (rg .cellarPlanStat) F.cellarPlanStat_ABANDON
      (satAdd (s.getF (rg .cellarPlanStat) F.cellarPlanStat_ABANDON) 1 255)
    if cut = .power then (s.freeWindow b w).bankDown b else s

/-- Does a cut happen to a window of bank b: a change of state only where one is requested (R258)? -/
def State.planCut (s : State) (b : Nat) (cut : PlanCut) : Bool :=
  cut = .sequencer || (cut = .power && s.bankReq b ≠ 0)

/-- A pass ends (R259): PASSES counts it, source 750 rises, windows still abandoned are forgotten, and the next pass takes
CELLAR_PLAN_BANKS as it stands when it begins (R265). -/
def State.planPassEnd (s : State) : State :=
  let s := s.setF (rg .cellarPlanStat) F.cellarPlanStat_PASSES (s.getF (rg .cellarPlanStat) F.cellarPlanStat_PASSES + 1)
  let s := { s with cellar := { s.cellar with
    planNext := (0, 0), planRetry := [], planBanks := s.reg (rg .cellarPlanBanks) } }
  s.latch 750

/-- One window of the pass (R257, R258): the next in order, or, when the order is at its end, the oldest abandoned one; `cut`
says what cut a March test short. -/
def State.planWindow (s : State) (cut : PlanCut) (fail : Option (Nat × Nat)) : State :=
  let mode := s.getF (rg .cellarPlanCtl) F.cellarPlanCtl_MODE
  if mode = 0 then s
  else
    let cl := s.cellar
    let s := if cl.planNext = (0, 0) && cl.planRetry.isEmpty then
      { s with cellar := { cl with planBanks := s.reg (rg .cellarPlanBanks) } } else s
    let pick : Option (Nat × Nat × Bool) :=
      match s.planFrom s.cellar.planNext.1 s.cellar.planNext.2 with
      | some (b, w) => some (b, w, false)
      | none => (s.cellar.planRetry.find? fun p => s.planVisits p.1).map fun p => (p.1, p.2, true)
    match pick with
    | none => if s.cellar.planNext = (0, 0) then s else s.planPassEnd
    | some (b, w, again) =>
      let s := s.setF (rg .cellarPlanStat) F.cellarPlanStat_BANK b
      let s := s.setF (rg .cellarPlanStat) F.cellarPlanStat_WINDOW w
      let retry := s.cellar.planRetry.filter (· ≠ (b, w))
      let next := if again then s.cellar.planNext else if w = 383 then (b + 1, 0) else (b, w + 1)
      let s := { s with cellar := { s.cellar with planRetry := retry, planNext := next } }
      let s := if mode = 1 then s.scrub b w else if s.planCut b cut then s.planDrop b w cut fail else s.march b w fail
      match s.planFrom s.cellar.planNext.1 s.cellar.planNext.2 with
      | some _ => s
      | none => if s.cellar.planRetry.any fun p => s.planVisits p.1 then s else s.planPassEnd

/-- A write of CELLAR_PLAN_BANKS (R265): it takes effect at the start of the next pass, but for the bank under test, whose
remaining windows are skipped where its bit is cleared. The bank under test is the one with windows done and windows still to
do (DEDUCED, log entry 128). -/
def State.planBanksWrite (s : State) (v : Word) : State :=
  let s := s.writeDefault (rg .cellarPlanBanks) v
  let p := s.cellar.planNext
  if p.2 ≠ 0 && !bit (s.reg (rg .cellarPlanBanks)) p.1 then
    { s with cellar := { s.cellar with
        planNext := (p.1 + 1, 0), planRetry := s.cellar.planRetry.filter fun e => e.1 ≠ p.1 } }
  else s

/-! ### Register accesses -/

/-- Writes of the block with a behaviour of their own. -/
def State.cellarWrite (s : State) (r : Requester) (x : Reg) (v : Word) : State :=
  match x.fam with
  | .cellarCfg => s.cfgWrite v
  | .cellarPwr0 => s.pwrWrite x 0 v
  | .cellarPwr1 => s.pwrWrite x 16 v
  | .cellarEcc => s.eccWrite v
  | .cellarLanderr => s.landErrWrite v
  | .cellarTags => s.tagsWrite v
  | .cellarPlanBanks => s.planBanksWrite v
  | .dmaCtl => s.dmaCtlWrite r (Fin.ofNat 48 x.i) v
  | .dmaDesc | .dmaTmo => s.dmaOwnedWrite r x (Fin.ofNat 48 x.i) v
  | .dmaStat => s.dmaStatWrite (Fin.ofNat 48 x.i) v
  | _ => s.writeDefault x v

/-- Reserved encodings of the block's fields (R11). -/
def cellarReserved (x : Reg) (v : Word) : Bool :=
  match x.fam with
  | .cellarPwr0 | .cellarPwr1 => (List.range 16).any fun k => bits v (2 * k) 2 = 3
  | .cellarTaglim => decide (4032 < F.cellarTaglim_DMAMAX.of v)
  | .cellarPlanCtl => F.cellarPlanCtl_MODE.of v = 3
  | .dmaCtl => decide (5 < F.dmaCtl_OWNER.of v)
  | _ => false

/-- Registers of the block that show state held elsewhere. -/
def State.cellarRead (s : State) (x : Reg) : Word :=
  match x.fam with
  | .cellarWake => s.wakeWord
  | .cellarTags => s.tagsWord
  | _ => s.reg x

/-- Levels of the DMA channels' sources 576 to 623, asserted in ERROR, while ERR tells of an abort (R253) and by the happening of
R250, and of sources 744 to 751 (R260); 748 and 750 are latched (log entry 23). -/
def State.cellarSource (s : State) (src : Nat) : Bool :=
  if src < 624 then
    s.latched.contains src || s.dmaState (Fin.ofNat 48 (src - 576)) = 2 ||
      s.getF (rg .dmaStat (src - 576)) F.dmaStat_ERR = 9
  else match src with
  | 744 =>
    let n := s.getF (rg .cellarEcc) F.cellarEcc_CETHR
    n ≠ 0 && decide (n ≤ s.getF (rg .cellarEcc) F.cellarEcc_CECNT)
  | 745 => s.flag (rg .cellarEccaddr) F.cellarEccaddr_VALID
  | 746 => s.flag (rg .cellarStarveStat) F.cellarStarveStat_VALID
  | 747 => s.flag (rg .cellarLanderr) F.cellarLanderr_LAND_COLLIDE
  | 749 => s.flag (rg .cellarPlanFail) F.cellarPlanFail_VALID
  | 751 => s.flag (rg .cellarClaim) F.cellarClaim_CLAIM_FAIL
  | _ => s.latched.contains src

end Sys2Proof.Machine
end

