-- ==== Sys2Proof/Machine/Otp.lean ====
section
/-! DEFINITION. OTP, key slots and the Assay's reads of images (18_boot_and_assay.md R511 to R513, 09 R242), and the
CRC-32C of R350. -/

namespace Sys2Proof.Machine

/-! ### CRC-32C (12_annex_fabric.md R350) -/

/-- One bit of the reflected CRC. -/
def crcBit (c : Word) : Word := if bit c 0 then (c >>> 1) ^^^ 0x82F63B78 else c >>> 1

/-- One byte. -/
def crcByte (c : Word) (b : Byte) : Word := forN 8 (fun _ c => crcBit c) (c ^^^ b.setWidth 32)

/-- CRC-32C: polynomial 0x1EDC_6F41, reflected, initial value and final XOR 0xFFFF_FFFF. -/
def crc32c (bs : List Byte) : Word := (bs.foldl crcByte 0xFFFFFFFF) ^^^ 0xFFFFFFFF

/-! ### The boot flash -/

/-- A flash address of `n` bytes as it is sent, the most significant byte first (R464, R507, R521). -/
def flashAddr (n a : Nat) : List Byte := (bytesLE n a).reverse

/-- Transactions on the BSPI_* pins. -/
def State.onFlash (s : State) (l : List SpiTx) : State := { s with lodge := { s.lodge with spi := l } }

/-- Words as bytes, little-endian. -/
def wordBytes (ws : List Word) : List Byte := ws.flatMap fun w => bytesLE 4 w.toNat

/-! ### OTP (R511 to R513) -/

/-- OTP word k. -/
def State.otp (s : State) (k : Nat) : Word := s.reg (rg .asOtp k)

/-- Words that read as 0: the reserved ones, K_MC and SEED (R511). -/
def otpHidden (k : Nat) : Bool := (67 ≤ k && k ≤ 83) || 102 ≤ k

/-- One bit of FLAGS, word 66. -/
def State.otpFlag (s : State) (n : Nat) : Bool := bit (s.otp 66) n

/-- ANNEX_SIGNED, ADDR4, KMC_VALID, SEED_VALID and SEALED of FLAGS (R511). -/
def otpAnnexSigned : Nat := 8
def otpAddr4 : Nat := 9
def otpKmcValid : Nat := 10
def otpSeedValid : Nat := 11
def otpSealed : Nat := 12

/-- Little-endian number of OTP words from k. -/
def State.otpNum (s : State) (k n : Nat) : Nat := ((List.range n).map fun i => (s.otp (k + i)).toNat * 2 ^ (32 * i)).sum

/-- The key slot that accepts a public key: programmed, unrevoked, with its digest (R513). -/
def State.keySlot (s : State) (key : List Byte) : Option Nat :=
  lowest (fun k => s.otpFlag k && !s.otpFlag (4 + k) && decide ((Config.sha3 key).toNat = s.otpNum (16 * k) 16)) 4

/-- The rollback count: index of the highest set bit plus 1 (R512). -/
def State.rollback (s : State) : Nat :=
  let v := s.otpNum 64 2
  (List.range 64).foldl (fun a i => if v.testBit i then i + 1 else a) 0

/-! ### Image reads -/

/-- What a read of an image answers: bytes, a wait for a waking bank, or an error (R236, R242). -/
inductive ImgRead where
  | bytes (l : List Byte)
  | wait
  | error
  deriving DecidableEq, Repr

/-- Do `n` bytes at `a` lie wholly within the Landing or wholly within the Cellar? -/
def inRam (a n : Nat) : Bool :=
  match regionOfRange a n with
  | some .landing | some .cellar => true
  | _ => false

/-- States of the banks that `n` bytes at `a` touch. -/
def State.bankStates (s : State) (a n : Nat) : List BankState :=
  (List.range (n / 256 + 2)).map fun k => s.bankSt (Nat.min (a + 256 * k) (a + n - 1))

/-- A read of `n` bytes by requester class `req` (R239), up to 8 bytes at a time in ascending order; it stops at the first
uncorrectable error (R217). -/
def State.imgRead (s : State) (req a n : Nat) : State × ImgRead :=
  let bs := s.bankStates a n
  if bs.any BankState.isDown then (s, .error)
  else if bs.any BankState.isWaking then (s, .wait)
  else if s.cellar.bad.isEmpty && s.cellar.weak.isEmpty then (s, .bytes (s.memBytes a n))
  else
    let t := (cutSpan 8 n a n).foldl (fun t p => if t.2 then t.1.readAccess req p.1 p.2 else t) (s, true)
    (t.1, if t.2 then .bytes (s.memBytes a n) else .error)

/-- Bytes of a part of an image. -/
def part (l : List Byte) (off n : Nat) : List Byte := (l.drop off).take n

/-- A little-endian field of an image. -/
def field (l : List Byte) (off n : Nat) : Nat := numLE (part l off n)

/-- Are the bytes of a part all 0? -/
def zeroPart (l : List Byte) (off n : Nat) : Bool := (part l off n).all (· = 0)

end Sys2Proof.Machine
end

