-- ==== Sys2Proof/Machine/Wire.lean ====
section
/-! DEFINITION. Blocks, frames and EVENT slots of a Tyashlink port as bits: the layouts, the CRC-32C and the CRC-16
(14_tyashlink.md R404 to R408). -/

namespace Sys2Proof.Machine

/-! ### Headers (R405) -/

/-- The header of a frame of class `cls`: SOF bytes 1–7. -/
def hdrBits (cls : Nat) (h : LinkHdr) : BitVec 56 :=
  BitVec.ofNat 56 (cls % 8 + 2 ^ 3 * h.dst.toNat + 2 ^ 13 * h.src.toNat + 2 ^ 23 * b2n h.rt + 2 ^ 24 * h.rhops.toNat +
    2 ^ 28 * h.route.toNat + 2 ^ 52 * h.hops.toNat)

/-- CLASS of a header. -/
def hdrClass (b : BitVec 56) : Nat := b.toNat % 8

/-- The other fields of a header. -/
def hdrOf (b : BitVec 56) : LinkHdr :=
  { dst := b.extractLsb' 3 10, src := b.extractLsb' 13 10, rt := b.getLsbD 23, rhops := b.extractLsb' 24 4
    route := b.extractLsb' 28 24, hops := b.extractLsb' 52 4 }

/-- Entry j of a source route. -/
def routeEntry (r : BitVec 24) (j : Nat) : Nat := (r.toNat >>> (3 * j)) % 8

/-- A reserved value in a header. -/
def hdrReserved (b : BitVec 56) : Bool :=
  decide (3 < hdrClass b) || decide (8 < (hdrOf b).rhops.toNat) ||
    (List.range 8).any fun j => decide (5 < routeEntry (hdrOf b).route j)

/-! ### Payloads (R406, R408) -/

/-- CLASS of a body. -/
def LinkBody.wireClass : LinkBody → Nat
  | .hello .. | .dlyreq | .dlyrsp .. => 0
  | .sync .. => 1
  | .seam .. => 2
  | .bulk .. => 3

/-- Does a BULK frame carry data: WRITE, ATTEST, ATTRSP, and RDRSP with status OK? -/
def bulkCarries (op status : Nat) : Bool := op = 1 || op = 4 || op = 5 || (op = 2 && status = 0)

/-- The data blocks of a body. -/
def LinkBody.blocks : LinkBody → List (BitVec 64)
  | .hello port id idv join =>
    [BitVec.ofNat 64 (1 + 2 ^ 8 * (port % 8) + 2 ^ 16 * (id % 1024) + 2 ^ 26 * b2n idv + 2 ^ 27 * b2n join)]
  | .dlyreq => [2]
  | .dlyrsp turn => [BitVec.ofNat 64 (3 + 2 ^ 32 * turn.toNat)]
  | .sync count frac => [count, frac.setWidth 64]
  | .seam plane east planes =>
    BitVec.ofNat 64 (plane % 4096 + 2 ^ 12 * ((planes.length - 1) % 32) + 2 ^ 17 * b2n east) :: planes
  | .bulk op tag len status addr data =>
    BitVec.ofNat 64 (op % 16 + 2 ^ 4 * (tag % 4096) + 2 ^ 16 * ((len - 1) % 256) + 2 ^ 24 * (status % 16) +
        2 ^ 32 * (addr % 2 ^ 32)) ::
      (if bulkCarries op status then (List.range ((len + 7) / 8)).map fun i => BitVec.ofNat 64 (data >>> (64 * i)) else [])

/-- Little-endian number of data blocks. -/
def numBlocks : List (BitVec 64) → Nat
  | [] => 0
  | w :: ws => w.toNat + 2 ^ 64 * numBlocks ws

/-- The body that the fields of the data blocks of a class spell. -/
def bodyFields (cls : Nat) (ws : List (BitVec 64)) : Option LinkBody :=
  let f (w : BitVec 64) (lo n : Nat) : Nat := (w.toNat >>> lo) % 2 ^ n
  match cls, ws with
  | 0, [w] =>
    match f w 0 8 with
    | 1 => some (.hello (f w 8 3) (f w 16 10) (w.getLsbD 26) (w.getLsbD 27))
    | 2 => some .dlyreq
    | 3 => some (.dlyrsp (w.extractLsb' 32 32))
    | _ => none
  | 1, [c, d] => some (.sync c (d.extractLsb' 0 4))
  | 2, h :: p :: ps => some (.seam (f h 0 12) (h.getLsbD 17) (p :: ps))
  | 3, h :: ds =>
    let op := f h 0 4
    let status := f h 24 4
    if 5 < op || ((op = 0 || op = 1 || op = 4) && status ≠ 0) then none
    else some (.bulk op (f h 4 12) (f h 16 8 + 1) status (f h 32 32) (numBlocks ds % 256 ^ (f h 16 8 + 1)))
  | _, _ => none

/-- The body of a frame: none where a value is reserved, a bit that is 0 by the layout is 1, or the number of data blocks is
another one (R20, R406, R408). -/
def bodyOf (cls : Nat) (ws : List (BitVec 64)) : Option LinkBody :=
  match bodyFields cls ws with
  | some b =>
    let t := b.blocks
    if t.length = ws.length && t.headD 0 = ws.headD 0 && (cls ≠ 1 || decide (t = ws)) then some b else none
  | none => none

/-! ### Frames (R404) -/

/-- The CRC-32C of a frame: SOF bytes 1–7 and the payload. -/
def frameCrc (h : BitVec 56) (ws : List (BitVec 64)) : Word :=
  crc32c (bytesLE 7 h.toNat ++ ws.flatMap fun w => bytesLE 8 w.toNat)

/-- Types of control blocks. -/
def ctlIdle : Byte := 0x1E
def ctlAlign : Byte := 0x2D
def ctlSof : Byte := 0x78
def ctlEof : Byte := 0x87
def ctlEvt : Byte := 0x4B

/-- Bytes 5–7 of an EOF block and bytes 1–2 of an IDLE block share ACK, ACKV and NAK. -/
def ackBits (ack : Nat) (ackv nak : Bool) : Nat := ack % 256 + 2 ^ 8 * b2n ackv + 2 ^ 9 * b2n nak

/-- An EOF block. -/
def eofBits (crc : Word) (seq ack : Nat) (ackv nak : Bool) : BitVec 56 :=
  BitVec.ofNat 56 (crc.toNat + 2 ^ 32 * (seq % 256) + 2 ^ 40 * ackBits ack ackv nak)

/-- The blocks of a frame. -/
def frameBlocks (seq ack : Nat) (ackv nak : Bool) (h : BitVec 56) (ws : List (BitVec 64)) : List Block :=
  .ctl ctlSof h :: (ws.map .data ++ [.ctl ctlEof (eofBits (frameCrc h ws) seq ack ackv nak)])

/-- The blocks of a frame that arrives with body b. -/
def frameWire (f : FrameIn) (b : LinkBody) : List Block :=
  f.seen.getD (frameBlocks f.seq.toNat f.ack.toNat f.ackv f.nak (hdrBits b.wireClass f.hdr) b.blocks)

/-- A frame with a good CRC-32C: SEQ, ACK, ACKV, NAK, header and data blocks. -/
structure RxFrame where
  seq : Nat
  ack : Nat
  ackv : Bool
  nak : Bool
  hdr : BitVec 56
  data : List (BitVec 64)
  deriving DecidableEq, Repr

/-- Data blocks up to an EOF block that ends the list. -/
def dataThenEof : List Block → Option (List (BitVec 64) × BitVec 56)
  | [.ctl t b] => if t = ctlEof then some ([], b) else none
  | .data w :: bs => (dataThenEof bs).map fun p => (w :: p.1, p.2)
  | _ => none

/-- The frame that blocks spell: none with a block error, a bad CRC-32C or a reserved bit of EOF set (R404). -/
def parseFrame : List Block → Option RxFrame
  | .ctl t h :: bs =>
    match dataThenEof bs with
    | some (ws, e) =>
      let n := e.toNat
      if t = ctlSof && e.extractLsb' 0 32 = frameCrc h ws && n >>> 50 = 0 then
        some { seq := (n >>> 32) % 256, ack := (n >>> 40) % 256, ackv := e.getLsbD 48, nak := e.getLsbD 49, hdr := h, data := ws }
      else none
    | none => none
  | _ => none

/-! ### IDLE and ALIGN blocks (R404) -/

/-- An IDLE block with the credits it returns. -/
def idleBits (ack : Nat) (ackv nak : Bool) (ret : Vector Nat 5) : BitVec 56 :=
  BitVec.ofNat 56 (ackBits ack ackv nak + 2 ^ 16 * numLE (ret.toList.map (BitVec.ofNat 8)))

/-- Credits for class c in an IDLE block. -/
def idleCredit (b : BitVec 56) (c : Nat) : Nat := (b.toNat >>> (16 + 8 * c)) % 256

/-- The ALIGN slot: each block carries its lane's number. -/
def alignSlot : Block × Block := (.ctl ctlAlign 0, .ctl ctlAlign 1)

/-! ### EVENT slots (R407) -/

/-- One bit of the CRC-16. -/
def crc16Bit (c : BitVec 16) : BitVec 16 := if c.getLsbD 15 then (c <<< 1) ^^^ 0x1021 else c <<< 1

/-- CRC-16: polynomial 0x1021, initial value 0xFFFF, not reflected, no final XOR. -/
def crc16 (bs : List Byte) : BitVec 16 :=
  bs.foldl (fun c b => forN 8 (fun _ c => crc16Bit c) (c ^^^ ((b.setWidth 16 : BitVec 16) <<< 8))) 0xFFFF

/-- CRC-16 of an EVENT. -/
def eventCrc (e : BitVec 64) : BitVec 16 := crc16 (bytesLE 8 e.toNat)

/-- The slot of an EVENT. -/
def eventSlot (e : BitVec 64) : Block × Block :=
  (.ctl ctlEvt (e.setWidth 56), .data (BitVec.ofNat 64 (e.toNat / 2 ^ 56 + 2 ^ 8 * (eventCrc e).toNat)))

/-- The 64 bits of the EVENT in a slot. -/
def evSlotWord (e : EventIn) : BitVec 64 := BitVec.ofNat 64 (e.evt.toNat + 2 ^ 56 * (e.data.toNat % 256))

/-- Is the CRC-16 of a slot good? -/
def evGood (e : EventIn) : Bool := e.data.extractLsb' 8 16 = eventCrc (evSlotWord e)

/-- Is a reserved byte of the slot set? -/
def evReserved (e : EventIn) : Bool := e.data.toNat >>> 24 ≠ 0

/-- Fields of an EVENT. -/
def evHops (w : BitVec 64) : Nat := (w.toNat >>> 10) % 16
def evKind (w : BitVec 64) : Nat := (w.toNat >>> 14) % 4
def evCode (w : BitVec 64) : Nat := (w.toNat >>> 16) % 65536
def evPayload (w : BitVec 64) : Word := w.extractLsb' 32 32

/-- An EVENT with HOPS increased by 1 (R418). -/
def evHop (w : BitVec 64) : BitVec 64 := w + 1024

end Sys2Proof.Machine
end

