-- ==== Sys2Proof/Machine/LinkBase.lean ====
section
/-! DEFINITION. Tyashlink ports as transmitters: EVENT and frame queues, routing, requests and their outcomes, the seam
engine's start (14_tyashlink.md R401 to R429), and the outcomes of PCI Express requests (15_pcie_host_port.md R443). -/

namespace Sys2Proof.Machine

/-! ### Ports (R401, R403, R430) -/

def State.lport (s : State) (k : Fin 6) : LinkPort := s.link.ports[k]

def State.modPort (s : State) (k : Fin 6) (f : LinkPort → LinkPort) : State :=
  { s with link := { s.link with ports := s.link.ports.set k (f (s.link.ports[k])) } }

/-- STATE of a port: 0 DISABLED, 1 TRAINING, 2 UP, 3 JOINED. -/
def State.portSt (s : State) (k : Fin 6) : Nat := s.getF (rg .kpStat k) F.kpStat_STATE

/-- JOINED; UP or JOINED. -/
def State.joined (s : State) (k : Fin 6) : Bool := s.portSt k = 3
def State.linked (s : State) (k : Fin 6) : Bool := 2 ≤ s.portSt k

/-- A change of state sets STCHG (R401). -/
def State.setPort (s : State) (k : Fin 6) (st : Nat) : State :=
  if s.portSt k = st then s
  else (s.setF (rg .kpStat k) F.kpStat_STATE st).setF (rg .kpStat k) F.kpStat_STCHG 1

/-- A counter of LINK_P[k]_ERR grows, and ERRV with it (R430, R436). -/
def State.portErr (s : State) (k : Fin 6) (f : Field) : State :=
  let x := rg .kpErr k
  (s.setF x f (satAdd (s.getF x f) 1 (2 ^ f.width - 1))).setF (rg .kpStat k) F.kpStat_ERRV 1

/-- A drop (R413, R418, R419). -/
def State.portDrop (s : State) (k : Fin 6) : State := s.portErr k F.kpErr_DROP

/-- This device's ID and its validity. -/
def State.ownId (s : State) : BitVec 10 := BitVec.ofNat 10 (s.getF (rg .linkCtl) F.linkCtl_ID)
def State.idv (s : State) : Bool := s.flag (rg .linkCtl) F.linkCtl_IDV

/-- The UP port, the DOWN ports, the tree ports (R418). -/
def State.upPort (s : State) (k : Fin 6) : Bool := s.getF (rg .linkTree) F.linkTree_UP = k.val
def State.downPort (s : State) (k : Fin 6) : Bool := (s.getF (rg .linkTree) F.linkTree_DOWN).testBit k
def State.treePort (s : State) (k : Fin 6) : Bool := s.upPort k || s.downPort k

/-! ### EVENTs (R407, R418, R420) -/

/-- The 64 bits of an EVENT (R407). -/
def evWord (origin hops kind code payload : Nat) : BitVec 64 :=
  BitVec.ofNat 64 (origin % 1024 + 2 ^ 10 * (hops % 16) + 2 ^ 14 * (kind % 4) + 2 ^ 16 * (code % 65536) +
    2 ^ 32 * (payload % 2 ^ 32))

/-- An EVENT enters a port's transmit queue of 8, or is dropped (R418). -/
def State.evtSend (s : State) (k : Fin 6) (e : BitVec 64) : State :=
  if (s.lport k).evtq.length < 8 then s.modPort k fun p => { p with evtq := p.evtq ++ [e] } else s.portDrop k

/-- An EVENT on every port that `p` selects. -/
def State.evtSendAll (s : State) (p : Fin 6 → Bool) (e : BitVec 64) : State :=
  (List.finRange 6).foldl (fun s k => if p k then s.evtSend k e else s) s

/-- A locally emitted USER EVENT: every JOINED tree port (R420). -/
def State.emitEvent (s : State) (code payload : Nat) : State :=
  s.evtSendAll (fun k => s.treePort k && s.joined k) (evWord s.ownId.toNat 0 0 code payload)

/-- DISTRESS from the Lodge: every port that is UP or JOINED (R420, R462). -/
def State.emitDistress (s : State) (code payload : Nat) : State :=
  s.evtSendAll s.linked (evWord s.ownId.toNat 0 1 code payload)

/-! ### Frames and their routes (R405, R411 to R413) -/

/-- Position of a frame's class in the order of R411 and in the credit table of R410: LINK, SYNC, SEAM, BULK request, BULK
response. -/
def LinkBody.cls : LinkBody → Fin 5
  | .hello .. | .dlyreq | .dlyrsp .. => 0
  | .sync .. => 1
  | .seam .. => 2
  | .bulk op .. => if op = 2 ∨ op = 3 ∨ op = 5 then 4 else 3

/-- A frame is queued at a port. -/
def State.frameSend (s : State) (k : Fin 6) (f : Frame) : State :=
  s.modPort k fun p => { p with waiting := p.waiting ++ [f] }

/-- LINK_RT's entry for a device. -/
def State.rtEntry (s : State) (dst : BitVec 10) : Nat := bits (s.reg (rg .linkRt (dst.toNat / 8))) (4 * (dst.toNat % 8)) 4

/-- Where a frame goes. -/
inductive RouteTo where
  | consume
  | send (k : Fin 6) (hdr : LinkHdr)
  | drop
  deriving DecidableEq, Repr

/-- R412 and R413: `a` is the port of arrival, 0 at the origin. -/
def State.routeOf (s : State) (hdr : LinkHdr) (a : Nat) (origin : Bool) : RouteTo :=
  if hdr.rt then
    if hdr.rhops = 0 then .consume
    else
      let out := routeEntry hdr.route 0
      let hdr' := { hdr with
        route := (hdr.route >>> 3) ||| BitVec.ofNat 24 (a * 2 ^ 21)
        rhops := hdr.rhops - 1
        hops := if origin then hdr.hops else hdr.hops + 1 }
      if h : out < 6 then (if s.linked ⟨out, h⟩ then .send ⟨out, h⟩ hdr' else .drop) else .drop
  else if !s.idv then .drop
  else if hdr.dst = s.ownId then .consume
  else
    let p := s.rtEntry hdr.dst
    if h : p < 6 then
      if s.joined ⟨p, h⟩ && hdr.hops ≠ 15 then .send ⟨p, h⟩ { hdr with hops := hdr.hops + 1 } else .drop
    else .drop

/-! ### Outcomes of requests (R254, R416, R417, R443) -/

/-- A failed Tyashlink request is reported: BERR of the port it left by, and the first one in LINK_BSTAT and LINK_BADDR
(R416, R430, R433). -/
def State.bulkReport (s : State) (q : Req) (status : Nat) (timeout : Bool) : State :=
  let s := if q.port < 6 then s.setF (rg .kpStat q.port) F.kpStat_BERR 1 else s
  let first := !s.flag (rg .linkBstat) F.linkBstat_VALID
  let s := s.capture (rg .linkBstat) F.linkBstat_VALID F.linkBstat_MULTI fun w =>
    setBits (setBits (setBits (setBits (setBits w 0 10 q.dev) 10 4 status) 14 1 (b2n timeout)) 15 1 (b2n q.write)) 16 3 q.port
  if first then s.setReg (rg .linkBaddr) (BitVec.ofNat 32 q.addr) else s

/-- PCIE_ERR captures (R442, R443): KIND 0 error, 1 timeout, 2 inbound discard. Source 650 or 651 rises whatever PCIE_ERR holds
already (DEDUCED, log entry 110). -/
def State.pcieReport (s : State) (kind addr : Nat) : State :=
  let s := s.modPcie fun p => { p with discard := p.discard || kind = 2, outErr := p.outErr || kind ≠ 2 }
  let first := !s.flag (rg .pcieErr) F.pcieErr_VALID
  let s := s.capture (rg .pcieErr) F.pcieErr_VALID F.pcieErr_MULTI fun w => setBits w 0 2 kind
  if first then s.setReg (rg .pcieErraddr) (BitVec.ofNat 32 addr) else s

/-- A management access ends (R417). -/
def State.manageEnd (s : State) (q : Req) (status : Nat) (timeout : Bool) (data : Nat) : State :=
  let x := rg .linkMgCtl
  let s := (s.setF x F.linkMgCtl_BUSY 0).setF x F.linkMgCtl_DONE 1
  let s := (s.setF x F.linkMgCtl_STATUS status).setF x F.linkMgCtl_TIMEOUT (b2n timeout)
  if !q.write && status = 0 && !timeout then s.setReg (rg .linkMgData) (BitVec.ofNat 32 data) else s

/-- A sequencer's attestation request ends with an error code (R518 to R520). -/
def State.attEnd (s : State) (err : Nat) : State :=
  let x := rg .asAttCtl
  let s := (s.setF x F.asAttCtl_BUSY 0).setF x F.asAttCtl_DONE 1
  let s := s.setF x F.asAttCtl_ERR err
  { s with assay := { s.assay with att := none } }

/-- The outcome of a request reaches its requester (R182, R184, R255, R416, R443). -/
def State.reqEnd (s : State) (q : Req) (status : Nat) (timeout : Bool) (data : Nat) : State :=
  let fail := status ≠ 0 || timeout
  let s := if !fail then s
    else if q.pcie then s.pcieReport (b2n timeout) q.addr
    else s.bulkReport q status timeout
  match q.who with
  | .load _ => { s with replies := s.replies ++ [(q.who, if fail then none else some data)] }
  | .store h => s.modSeq h fun x => { x with unacked := x.unacked - 1 }
  | .dma c =>
    if q.dead then s
    else if fail then s.dmaFail c (if timeout then 7 else if status = 3 then 8 else 6)
    else if q.write then s.modDma c fun d => { d with acks := d.acks - 1 }
    else { s with replies := s.replies ++ [(q.who, some data)] }
  | .manage _ => s.manageEnd q status timeout data
  | .attest => if fail then s.attEnd (if timeout then 6 else 7) else s

/-- Tick of a timeout of `us` microseconds from now; 0 means none. -/
def State.dueUs (s : State) (us : Nat) : Option Nat := if us = 0 then none else some (s.ns + usTicks us)

/-- A Tyashlink request is issued (R256, R414, R417, R519); none where it waits for a tag. One without a route is answered
UNREACHABLE when routed by table (R413); by source it is dropped and its timeout ends it (R412). -/
def State.linkIssue (s : State) (who : ReqWho) (hdr : LinkHdr) (op : Nat) (write : Bool) (addr len data : Nat)
    (due : Option Nat) : Option State :=
  match s.freeTag who with
  | none => none
  | some t =>
    let hdr := { hdr with src := s.ownId }
    let q : Req := { tag := t, who, pcie := false, write, addr, len, port := 6, due, dev := hdr.dst.toNat, data, hdr }
    let body := LinkBody.bulk op t len 0 addr (if write then data else 0)
    match s.routeOf hdr 0 true with
    | .send k hdr' => some ((s.addReq { q with port := k }).frameSend k ⟨hdr', body⟩)
    | .consume =>
      let s := s.addReq q
      some { s with link := { s.link with self := s.link.self ++ [⟨hdr, body⟩] } }
    | .drop => some (if hdr.rt then s.addReq q else s.reqEnd q 4 false 0)

/-- An answer to a BULK request that arrived on port a with header `hdr`: source-routed back along the reverse route, or
table-routed to SRC (R412, R413); one to this device itself is queued for it. -/
def State.bulkAnswer (s : State) (a : Fin 6) (hdr : LinkHdr) (op tag len status addr data : Nat) : State :=
  let back : LinkHdr :=
    if hdr.rt then
      let entries := a.val :: (List.range 7).map fun j => routeEntry hdr.route (7 - j)
      { dst := hdr.src, src := s.ownId, rt := true, rhops := hdr.hops + 1
        route := BitVec.ofNat 24 (entries.foldr (fun e n => e + 8 * n) 0) }
    else { dst := hdr.src, src := s.ownId }
  match s.routeOf back 0 true with
  | .send k h => s.frameSend k ⟨h, .bulk op tag len status addr data⟩
  | .consume => { s with link := { s.link with self := s.link.self ++ [⟨back, .bulk op tag len status addr data⟩] } }
  | .drop => s

/-- The window of a remote address that a requester with owner code `own` may use: target device and remote address
(R414). -/
def State.remoteTarget (s : State) (own a : Nat) : Option (BitVec 10 × Nat) :=
  let x := rg .linkRwin ((a - 0x80000000) / 0x4000000)
  if s.flag x F.linkRwin_VALID && own ≠ 0 && s.getF x F.linkRwin_OWNER = own then
    some (BitVec.ofNat 10 (s.getF x F.linkRwin_DEV), s.getF x F.linkRwin_RBASE * 2 ^ 26 + a % 0x4000000)
  else none

/-- The host address of sequencer address `a` (R443). -/
def State.hostAddr (s : State) (a : Nat) : Nat :=
  (s.reg (rg .pcieObasehi)).toNat * 2 ^ 32 + (s.reg (rg .pcieObaselo)).toNat + (a - 0xC0000000)

/-- A PCI Express request is issued (R443): none where it waits for a tag. A write is posted, holds no tag, is cut at Max
Payload Size and ends when its last TLP is sent; since a sequencer's access is aligned and a burst lies within 256 bytes, none
crosses a 4 KiB boundary. -/
def State.pcieIssue (s : State) (who : ReqWho) (write : Bool) (addr len data : Nat) (due : Option Nat) : Option State :=
  let host := s.hostAddr addr
  let q : Req := { tag := 0, who, pcie := true, write, addr := host, len, port := 6, due, data }
  let put (s : State) (l : List Tlp) : State := s.modPcie fun p => { p with tlps := p.tlps ++ l }
  if !s.bme then some (s.reqEnd q 1 false 0)
  else if write then
    let l := cutBytes s.maxPayload len host (bytesLE len data)
    some (put s (l.zipIdx.map fun (c, i) => .write c.1 c.2 (if i + 1 = l.length then some who else none)))
  else (s.freeTag who).map fun t => put (s.addReq { q with tag := t }) [.read t host len]

/-! ### The seam engine's start (R426, R427) -/

/-- Bit k of an edge plane of wing w (R427). -/
def State.edgePlane (s : State) (w p : Nat) : BitVec 64 :=
  let v := s.plane (w + 1) p
  let at' (k : Nat) : Nat :=
    if s.twoD then 128 * k + (if w = 7 then 127 else 0) else (if w = 7 then 8128 + k else k)
  BitVec.ofNat 64 ((List.range 64).foldr (fun k a => b2n (v.getLsbD (at' k)) + 2 * a) 0)

/-- The edge planes of a wing through the inlet/outlet port; those of a wing that is OFF are free values (R488). -/
def State.edgePlanes (s : State) (w : Nat) : List Nat → State × List (BitVec 64)
  | [] => (s, [])
  | p :: ps =>
    let (s, v) :=
      if s.wingOn w && !s.wingClearing w then (s.checkPar (w + 1) p 1, s.edgePlane w p)
      else ({ s with free := s.free + 1 }, (Config.freePlane s.free).setWidth 64)
    let t := s.edgePlanes w ps
    (t.1, v :: t.2)

/-- The SEAM frames of one side: up to 32 planes each (R426). -/
def State.seamSend (s : State) (k : Fin 6) (east : Bool) (first : Nat) (planes : List (BitVec 64)) : State :=
  let hdr : LinkHdr := { dst := BitVec.ofNat 10 (s.getF (rg .kpPeer k) F.kpPeer_ID), src := s.ownId }
  let s := if planes.isEmpty then s else s.frameSend k ⟨hdr, .seam first east (planes.take 32)⟩
  if planes.length ≤ 32 then s else s.frameSend k ⟨hdr, .seam (first + 32) east (planes.drop 32)⟩

/-- One side of an exchange: skipped with no port, with TXERR on a port that is not JOINED (R426). -/
def State.seamSide (s : State) (port w : Nat) (first n : Nat) : State :=
  if h : port < 6 then
    if s.joined ⟨port, h⟩ then
      let t := s.edgePlanes w (span first n)
      t.1.seamSend ⟨port, h⟩ (w = 7) first t.2
    else s.setF (rg .linkSeamStat) F.linkSeamStat_TXERR 1
  else s

/-- A start of the seam engine (R426). -/
def State.seamStart (s : State) : State :=
  let st := rg .linkSeamStat
  if s.flag st F.linkSeamStat_BUSY then s.setF st F.linkSeamStat_OVR 1
  else
    let s := s.wakeArray.setF st F.linkSeamStat_BUSY 1
    let src := s.reg (rg .linkSeamSrc)
    let s := { s with link := { s.link with seamSrc := src } }
    let n := F.linkSeamSrc_NPL.of src
    let first := F.linkSeamSrc_RBASE.of src + F.linkSeamSrc_SLOT.of src * n
    let ctl := s.reg (rg .linkSeamCtl)
    (s.seamSide (F.linkSeamCtl_WPORT.of ctl) 0 first n).seamSide (F.linkSeamCtl_EPORT.of ctl) 7 first n

/-- A refused claim, write or firing of window m (RES m) or the seam engine (RES 0x10) (R435). -/
def State.linkRefuse (s : State) (res code : Nat) (launch : Bool) : State :=
  s.capture (rg .linkClaim) F.linkClaim_CLAIM_FAIL F.linkClaim_MULTI fun w =>
    setBits (setBits (setBits w 0 8 res) 8 4 code) 12 1 (b2n launch)

/-- A firing of launch entry i, owned by `owner`, under AUTO (R426); the answer tells whether it was refused. -/
def State.seamAuto (s : State) (i owner : Nat) : State × Bool :=
  let ctl := s.reg (rg .linkSeamCtl)
  if F.linkSeamCtl_AUTO.of ctl = 1 && F.linkSeamCtl_ENTRY.of ctl = i then
    if F.linkSeamCtl_OWNER.of ctl = owner && owner ≠ 0 then (s.seamStart, false)
    else (s.linkRefuse 0x10 (owner - 1) true, true)
  else (s, false)

end Sys2Proof.Machine
end

