-- ==== Sys2Proof/Machine/Assay.lean ====
section
/-! DEFINITION. The Assay: microcode loads, OTP operations, measurements, attestation, the flash port and the release of
sequencers (08_microcode_and_control_store.md R214 to R227, 18_boot_and_assay.md R499 to R526). -/

namespace Sys2Proof.Machine

def State.modAssay (s : State) (f : Assay → Assay) : State := { s with assay := f s.assay }

/-! ### Microcode loads (R214 to R219) -/

/-- Length of a microcode image (R214). -/
def mcLen : Nat := 72899

/-- Bit h of CSVALID (R210). -/
def State.csValid (s : State) (h : Fin 4) : Bool := (s.seq h).csDigest.isSome

/-- While no store is valid, MCVER, MTDEPTH and the digest read 0 (R225, R226). -/
def State.mcClean (s : State) : State :=
  if (List.finRange 4).any s.csValid then s
  else
    let s := (s.setReg (rg .asMcVer) 0).setF (rg .asMcInfo) F.asMcInfo_MTDEPTH 0
    s.resetRegs Fam.asMcDigest.members

/-- Stores invalidated and cleared (R211, R217). A routine in progress on such a sequencer runs on, over words of 0 (DEDUCED, log
entry 123). -/
def State.csInvalidate (s : State) (p : Fin 4 → Bool) : State :=
  ((List.finRange 4).foldl (fun s h =>
    if p h then s.modSeq h fun q => { q with csDigest := none, cs := 0, csBad := [] } else s) s).mcClean

/-- The end of a load (R217, R218). -/
def State.mcEnd (s : State) (err : Nat) : State :=
  let x := rg .asMcStat
  let s := ((s.setF x F.asMcStat_BUSY 0).setF x F.asMcStat_DONE 1).setF x F.asMcStat_ERR err
  { s with verQ := s.verQ.filter fun j => match j with | .microcode _ _ => false | _ => true }

/-- The header of a microcode image (R215, R218): 0 or an error code; an SVN above 64 gives 0x04 (DEDUCED, log entry 122). -/
def mcHeaderErr (b : List Byte) : Nat :=
  if part b 0 4 ≠ [0x50, 0x46, 0x4D, 0x43] then 2
  else if field b 4 2 ≠ 1 || field b 6 2 ≠ 0x80 then 3
  else if field b 8 4 = 0 || decide (64 < field b 0xC 4) || field b 0x10 1 = 0 || decide (4 < field b 0x10 1) ||
      field b 0x11 1 ≠ 0 || field b 0x12 2 ≠ 0x1000 || field b 0x14 4 ≠ 0x10000 ||
      !zeroPart b 0x24 28 || !zeroPart b 0x60 32 then 4
  else 0

/-- The digest in ASSAY_MC_DIGEST. -/
def State.mcDigest (s : State) : Nat :=
  ((List.range 16).map fun k => (s.reg (rg .asMcDigest k)).toNat * 2 ^ (32 * k)).sum

/-- A verified image becomes valid in the target stores (R217 stage 10). -/
def State.mcAccept (s : State) (target : Fin 4 → Bool) (hd : List Byte) (dg : BitVec 512) (words : BitVec 524288) :
    State :=
  let s := (List.finRange 4).foldl (fun (s : State) (h : Fin 4) =>
    if target h then s.modSeq h fun q => { q with csDigest := some dg, cs := words, csBad := [] } else s) s
  let s := s.setReg (rg .asMcVer) (BitVec.ofNat 32 (field hd 8 4))
  let x := rg .asMcInfo
  let s := (s.setF x F.asMcInfo_MTDEPTH (field hd 0x10 1)).setF x F.asMcInfo_SVN (field hd 0xC 4)
  let s := s.setF x F.asMcInfo_LOADS (satAdd (s.getF x F.asMcInfo_LOADS) 1 65535)
  (forN 16 (fun k s => s.setReg (rg .asMcDigest k) (BitVec.ofNat 32 (dg.toNat >>> (32 * k)))) s).mcEnd 0

/-- Is sequencer h a target of the running load (R223)? -/
def State.mcTarget (s : State) (h : Fin 4) : Bool := (s.getF (rg .asMcCtl) F.asMcCtl_TARGET).testBit h

/-- Address of the image (R222). -/
def State.mcSrc (s : State) : Nat := (s.reg (rg .asMcSrc)).toNat

/-- Stages 1 to 6 of the first job of the engine, and the clearing of the targets with which stage 7 begins (R217); unchanged
while a bank of the image wakes. They take place as soon as the engine is free for the job (DESIGN CHOICE, log entry 84). -/
def State.mcBegin (s : State) (h : Fin 4) : State :=
  let a := s.mcSrc
  let target := s.mcTarget
  if a % 8 ≠ 0 || !inRam a mcLen then s.mcEnd 1
  else if !s.otpFlag otpKmcValid then s.mcEnd 9
  else if (List.finRange 4).any fun h => target h && !(s.seq h).susp.isEmpty then s.mcEnd 0xA
  else if (s.bankStates a mcLen).any BankState.isWaking then s
  else match s.imgRead 8 a 128 with
    | (s, .bytes hd) =>
      let e := mcHeaderErr hd
      if e ≠ 0 then s.mcEnd e
      else match s.imgRead 8 (a + 128) 2592 with
        | (s, .bytes key) =>
          if (s.keySlot key).isNone then s.mcEnd 5
          else if field hd 0xC 4 < s.rollback then s.mcEnd 7
          else { s.csInvalidate target with verQ := .microcode h (some { hd, key }) :: s.verQ.tail }
        | (s, _) => s.mcEnd 0xC
    | (s, _) => s.mcEnd 0xC

/-- The verification engine takes its first job (R510): a microcode load that has not begun does so. -/
def State.verBegin (s : State) : State :=
  match s.verQ with
  | .microcode h none :: _ => s.mcBegin h
  | _ => s

/-- Bytes of ciphertext and tag, and of those with the signature (R214). -/
def mcBodyLen : Nat := 65552
def mcAllLen : Nat := 70179

/-- Stage 8 with the ciphertext and the tag read (R217, R219): 0 or an error code. -/
def State.mcTagErr (s : State) (m : McRead) : Nat :=
  let cipher := part m.body 0 65536
  let tag := part m.body 65536 16
  let dg := Config.sha3 (m.hd ++ m.key ++ cipher ++ tag)
  let others := (List.finRange 4).any fun h => !s.mcTarget h && s.csValid h
  let kmc := BitVec.ofNat 256 (s.otpNum 68 8)
  if !Config.gcmTagOk kmc (part m.hd 0x18 12) m.hd cipher tag then 8
  else if others && decide (dg.toNat ≠ s.mcDigest) then 0xB
  else 0

/-- The next bytes of the load's present stage, 7 with 8 or 9, at most `n` of them; each is read once (R217). Stage 8 makes its
checks when the tag has been read. -/
def State.mcFeed (s : State) (n : Nat) : State :=
  match s.verQ with
  | .microcode h (some m) :: rest =>
    let len := m.body.length
    let k := Nat.min n ((if len < mcBodyLen then mcBodyLen else mcAllLen) - len)
    if k = 0 then s
    else match s.imgRead 8 (s.mcSrc + 2720 + len) k with
      | (s, .bytes l) =>
        let m := { m with body := m.body ++ l }
        let e := if m.body.length = mcBodyLen then s.mcTagErr m else 0
        if e ≠ 0 then s.mcEnd e else { s with verQ := .microcode h (some m) :: rest }
      | (s, .wait) => s
      | (s, .error) => s.mcEnd 0xC
  | _ => s

/-- Stages 9 and 10 with the whole image read (R217): the signature, and the image accepted. -/
def State.mcFinish (s : State) : State :=
  match s.verQ with
  | .microcode _ (some m) :: _ =>
    if m.body.length ≠ mcAllLen then s
    else
      let cipher := part m.body 0 65536
      let dg := Config.sha3 (m.hd ++ m.key ++ cipher ++ part m.body 65536 16)
      if !Config.mldsaVerify m.key dg (part m.body mcBodyLen 4627) then s.mcEnd 6
      else s.mcAccept s.mcTarget m.hd dg (Config.gcmPlain (BitVec.ofNat 256 (s.otpNum 68 8)) (part m.hd 0x18 12) m.hd cipher)
  | _ => s

/-- MC_LOAD_END: the load that is the verification engine's first job reads what it has not yet read and ends (R217, R510); it
waits while a bank of the rest wakes. -/
def State.mcLoadEnd (s : State) : State := ((s.mcFeed mcAllLen).mcFeed mcAllLen).mcFinish

/-- In a tick the load reads up to 8 bytes (R217; DESIGN CHOICE, log entry 84). -/
def State.mcTick (s : State) : State := s.mcFeed 8

/-- A write of ASSAY_MC_CTL (R216, R223). -/
def State.mcCtlWrite (s : State) (r : Requester) (v : Word) : State :=
  match r with
  | .seq h =>
    if s.flag (rg .asMcStat) F.asMcStat_BUSY then s
    else
      let s := s.writeDefault (rg .asMcCtl) v
      if F.asMcCtl_GO.of v = 1 then
        { s.setF (rg .asMcStat) F.asMcStat_BUSY 1 with verQ := s.verQ ++ [.microcode h none] }
      else s
  | _ => s

/-! ### OTP operations (R514) -/

/-- A write of ASSAY_OTP_CTL. -/
def State.otpCtlWrite (s : State) (v : Word) : State :=
  let s := s.writeDefault (rg .asOtpCtl) v
  let op := F.asOtpCtl_OP.of v
  if F.asOtpCtl_GO.of v = 1 && op ≠ 0 && !s.flag (rg .asOtpStat) F.asOtpStat_BUSY then
    let job := (op, F.asOtpCtl_VALUE.of v, s.reg (rg .asOtpData))
    (s.setF (rg .asOtpStat) F.asOtpStat_BUSY 1).modAssay fun a => { a with otp := some job }
  else s

/-- Bits are set in OTP word k; none is cleared (R511). -/
def State.otpOr (s : State) (k : Nat) (d : Word) : State := s.setReg (rg .asOtp k) (s.otp k ||| d)

/-- Does another programmed, unrevoked slot than k remain? -/
def State.otherSlot (s : State) (k : Nat) : Bool :=
  (List.range 4).any fun j => j ≠ k && s.otpFlag j && !s.otpFlag (4 + j)

/-- ADVANCE (R514): ROLLBACK bits 0 to v − 1. -/
def State.otpAdvance (s : State) (v : Nat) : State × Nat :=
  if 64 < v then (s, 5)
  else if s.getF (rg .asBootInfo) F.asBootInfo_SVN < v then (s, 1)
  else if v ≤ s.rollback then (s, 0)
  else ((s.otpOr 64 (BitVec.ofNat 32 (2 ^ v - 1))).otpOr 65 (BitVec.ofNat 32 ((2 ^ v - 1) / 2 ^ 32)), 0)

/-- REVOKE (R514). -/
def State.otpRevoke (s : State) (k : Nat) : State × Nat :=
  if 3 < k then (s, 5)
  else if k = s.getF (rg .asBootInfo) F.asBootInfo_KEYSLOT || !s.otherSlot k then (s, 2)
  else (s.otpOr 66 (BitVec.ofNat 32 (2 ^ (4 + k))), 0)

/-- PROGRAM (R514); where the read-back differs, which of the bits were set is a free value. -/
def State.otpProgram (s : State) (w : Nat) (d : Word) (ok : Bool) : State × Nat :=
  if s.otpFlag otpSealed then (s, 3)
  else
    let t := s.fresh
    let s := if ok then s.otpOr w d else t.2.otpOr w (d &&& t.1)
    let s := if w = 66 then s.otpOr 66 (BitVec.ofNat 32 (2 ^ otpSealed)) else s
    (s, if ok then 0 else 4)

/-- OTP_DONE: the running operation ends (R514). -/
def State.otpDone (s : State) (ok : Bool) : State :=
  match s.assay.otp with
  | none => s
  | some (op, v, d) =>
    let s := s.modAssay fun a => { a with otp := none }
    let t := match op with
      | 1 => s.otpAdvance v
      | 2 => s.otpRevoke v
      | _ => s.otpProgram v d ok
    let x := rg .asOtpStat
    ((t.1.setF x F.asOtpStat_BUSY 0).setF x F.asOtpStat_DONE 1).setF x F.asOtpStat_ERR t.2

/-! ### Measurements (R515) -/

/-- Measurement i as a number, its first byte lowest. -/
def State.meas (s : State) (i : Nat) : BitVec 512 :=
  BitVec.ofNat 512 ((List.range 16).map fun k => (s.reg (rg .asMeas i k)).toNat * 2 ^ (32 * k)).sum

def State.setMeas (s : State) (i : Nat) (v : BitVec 512) : State :=
  forN 16 (fun k s => s.setReg (rg .asMeas i k) (BitVec.ofNat 32 (v.toNat >>> (32 * k)))) s

/-- The value after an extension with 64-byte data D (R515). -/
def extended (old : BitVec 512) (d : Nat) : BitVec 512 :=
  Config.sha3 (bytesLE 64 old.toNat ++ bytesLE 64 d)

/-- A write of ASSAY_EXTCTL (R515, R526): GO is ignored while BUSY; the lock tested is the one before the write
(DEDUCED, log entry 37). -/
def State.extctlWrite (s : State) (v : Word) : State :=
  let x := rg .asExtctl
  let i := F.asExtctl_IDX.of v
  let refused := (s.getF x F.asExtctl_MLOCK).testBit i
  let d := ((List.range 16).map fun k => (s.reg (rg .asExtd k)).toNat * 2 ^ (32 * k)).sum
  let go := F.asExtctl_GO.of v = 1 && !s.flag x F.asExtctl_BUSY
  let s := s.writeDefault x v
  if go then
    (s.setF x F.asExtctl_BUSY 1).modAssay fun a => { a with sigQ := a.sigQ ++ [.extend i d refused] }
  else s

/-- EXTENSION_END (R510, R515). -/
def State.extensionEnd (s : State) : State :=
  match s.assay.sigQ with
  | .extend i d refused :: rest =>
    let s := s.modAssay fun a => { a with sigQ := rest }
    let x := rg .asExtctl
    let s := s.setF x F.asExtctl_BUSY 0
    if refused then s.setF x F.asExtctl_REFUSED 1
    else (s.setMeas i (extended (s.meas i) d)).setF x F.asExtctl_DONE 1
  | _ => s

/-! ### Attestation (R516 to R520) -/

/-- A request's fields are right (R516). -/
def attFormOk (b : List Byte) : Bool :=
  part b 0 4 = [0x50, 0x46, 0x41, 0x51] && field b 4 2 = 1 && field b 6 1 ≠ 0 && decide (field b 7 1 ≤ 1) &&
    zeroPart b 0xC 4 && zeroPart b 0x30 16

/-- Set bits of MSEL. -/
def mselCount (m : Nat) : Nat := ((List.range 8).filter m.testBit).length

/-- Length of a quote (R517). -/
def quoteLen (b : List Byte) : Nat :=
  144 + 64 * mselCount (field b 6 1) + 4627 + (if field b 7 1 % 2 = 1 then 2592 else 0)

/-- The signed part of a quote (R517), from the count and the measurements of its start. -/
def State.quoteBody (s : State) (b : List Byte) (count : BitVec 64) (meas : List (BitVec 512)) : List Byte :=
  [0x50, 0x46, 0x41, 0x52] ++ bytesLE 2 1 ++ bytesLE 1 (field b 6 1) ++ bytesLE 1 (field b 7 1) ++
    bytesLE 2 (s.ownId.toNat + 1024 * b2n s.idv) ++ bytesLE 2 0 ++ bytesLE 4 (s.reg (rg .lodgeBootcnt)).toNat ++
    bytesLE 8 count.toNat ++ bytesLE 8 (s.otpNum 100 2) ++ part b 0x10 32 ++ bytesLE 64 (s.otpNum 84 16) ++
    bytesLE 4 (s.reg (rg .asMcRomver)).toNat ++ bytesLE 4 (s.reg (rg .asMcVer)).toNat ++ bytesLE 4 s.rollback ++
    bytesLE 4 0 ++
    (List.range 8).flatMap fun i => if (field b 6 1).testBit i then bytesLE 64 ((meas[i]?).getD 0).toNat else []

/-- A whole quote; its signature is hedged, so each takes a fresh number. -/
def State.quote (s : State) (b : List Byte) : State × List Byte :=
  let snap := s.assay.snap.getD (s.count, (List.range 8).map s.meas)
  let body := s.quoteBody b snap.1 snap.2
  let seed := BitVec.ofNat 256 (s.otpNum 76 8)
  let sig := Config.mldsaSign s.free seed (Config.sha3 body)
  let pub := if field b 7 1 % 2 = 1 then bytesLE 2592 (Config.idPublicKey seed).toNat else []
  ({ s with free := s.free + 1 }, body ++ bytesLE 4627 sig.toNat ++ pub)

/-- Checks of a request's address and its read (R518, R520). -/
def State.attRead (s : State) (a : Nat) : State × Except Nat (List Byte) :=
  if a % 8 ≠ 0 || regionOfRange a 64 ≠ some .landing then (s, .error 1)
  else match s.ramRead 8 a 64 with
    | (s, none) => (s, .error 5)
    | (s, some b) =>
      if !attFormOk b then (s, .error 2)
      else if field b 8 4 % 8 ≠ 0 || !inRam (field b 8 4) (quoteLen b) then (s, .error 3)
      else (s, .ok b)

/-- A quote of a sequencer's or the host's request at `a`: its error code (R518, R520). -/
def State.localQuote (s : State) (a : Nat) : State × Nat :=
  match s.attRead a with
  | (s, .error e) => (s, e)
  | (s, .ok b) =>
    if !s.otpFlag otpSeedValid then (s, 4)
    else if (s.bankStates (field b 8 4) (quoteLen b)).any fun k => k ≠ .on then (s, 5)
    else
      let t := s.quote b
      let u := t.1.ramWrite 8 (field b 8 4) t.2
      (u.1, if u.2 then 0 else 5)

/-- Parts of a quote as ATTRSP frames of up to 256 bytes (R408). -/
def State.attParts (s : State) (port : Fin 6) (hdr : LinkHdr) (tag off : Nat) : Nat → List Byte → State
  | 0, _ => s
  | n + 1, l =>
    if l.isEmpty then s
    else
      let p := l.take 256
      (s.bulkAnswer port hdr 5 tag p.length 0 off (numLE p)).attParts port hdr tag (off + 256) n (l.drop 256)

/-- A quote for a remote device (R518): sent in ATTRSP frames, or an ATTRSP with STATUS ERROR. -/
def State.remoteQuote (s : State) (port : Nat) (hdr : LinkHdr) (tag req : Nat) : State :=
  let b := bytesLE 64 req
  let port := Fin.ofNat 6 port
  if !attFormOk b || !s.otpFlag otpSeedValid then s.bulkAnswer port hdr 5 tag 1 1 0 0
  else
    let t := s.quote b
    let s := t.1.attParts port hdr tag 0 64 t.2
    let x := rg .asAttSrv
    (s.setF x F.asAttSrv_SERVED (satAdd (s.getF x F.asAttSrv_SERVED) 1 65535)).setF x F.asAttSrv_NEW 1

/-- QUOTE_DONE: the signing engine finishes the quote it serves (R510, R517, R518). -/
def State.quoteDone (s : State) : State :=
  let pop (s : State) : State := s.modAssay fun a => { a with sigQ := a.sigQ.tail, snap := none }
  match s.assay.sigQ with
  | .own :: _ =>
    let t := s.localQuote (s.reg (rg .asAttReq)).toNat
    (pop t.1).attEnd t.2
  | .host :: _ =>
    let t := s.localQuote (s.reg (rg .pcieAtt)).toNat
    let x := rg .pcieAttctl
    (((pop t.1).setF x F.pcieAttctl_BUSY 0).setF x F.pcieAttctl_DONE 1).setF x F.pcieAttctl_ERR t.2
  | .remote port hdr tag req :: _ => pop (s.remoteQuote port hdr tag req)
  | _ => s

/-- A quote at the head of the queue starts: count and measurements as they stand (R517). -/
def State.quoteStart (s : State) : State :=
  match s.assay.sigQ with
  | [] | .extend _ _ _ :: _ => s
  | _ :: _ =>
    if s.assay.snap.isSome then s
    else s.modAssay fun a => { a with snap := some (s.count, (List.range 8).map s.meas) }

/-- The remote request is issued as soon as a tag is free (R256, R519). -/
def State.attIssue (s : State) : State :=
  match s.assay.att with
  | some q =>
    if q.issued then s
    else
      let hdr : LinkHdr := { dst := BitVec.ofNat 10 q.dev }
      match (s.modAssay fun a => { a with att := some { q with issued := true } }).linkIssue .attest hdr 4 true 0 64 q.req
          (some (s.ns + msTicks 20)) with
      | some s => s
      | none => s
  | none => s

/-- A write of ASSAY_ATT_CTL (R518, R519, R526). -/
def State.attCtlWrite (s : State) (v : Word) : State :=
  let x := rg .asAttCtl
  let busy := s.flag x F.asAttCtl_BUSY
  let s := s.writeDefault x v
  if F.asAttCtl_GO.of v = 1 && !busy then
    let s := s.setF x F.asAttCtl_BUSY 1
    if F.asAttCtl_REMOTE.of v = 1 then
      match s.attRead (s.reg (rg .asAttReq)).toNat with
      | (s, .error e) => s.attEnd e
      | (s, .ok b) => s.modAssay fun a =>
          { a with att := some { req := numLE b, dev := F.asAttCtl_DEV.of v, qaddr := field b 8 4, len := quoteLen b } }
    else s.modAssay fun a => { a with sigQ := a.sigQ ++ [.own] }
  else s

/-- Is every byte of a quote covered by the parts that have arrived (R519)? -/
def attCovered (len : Nat) (got : List (Nat × Nat)) : Bool :=
  (List.range len).all fun i => got.any fun p => decide (p.1 ≤ i) && decide (i < p.1 + p.2)

/-- A part of a remote quote is written at QADDR plus its offset (R519). -/
def State.attPart (s : State) (q : RemoteAtt) (off len data : Nat) : State :=
  if (s.bankStates (q.qaddr + off) len).any fun k => k ≠ .on then s.attEnd 5
  else if !inRam (q.qaddr + off) len then s.attEnd 3
  else
    let t := s.ramWrite 8 (q.qaddr + off) (bytesLE len data)
    if !t.2 then t.1.attEnd 5
    else
      let got := q.got ++ [(off, len)]
      if attCovered q.len got then t.1.attEnd 0
      else t.1.modAssay fun a => { a with att := some { q with got := got } }

/-! ### The flash port (R521) -/

/-- A write of ASSAY_BSPI_CMD by a sequencer: GO while BUSY is ignored. The transaction is the one that the three registers
describe at its GO (DESIGN CHOICE, log entry 113). -/
def State.bspiCmdWrite (s : State) (v : Word) : State :=
  let busy := s.flag (rg .asBspiStat) F.asBspiStat_BUSY
  let s := s.writeDefault (rg .asBspiCmd) v
  if F.asBspiCmd_GO.of v = 1 && !busy then
    (s.setF (rg .asBspiStat) F.asBspiStat_BUSY 1).modAssay fun a =>
      { a with bspi := (s.reg (rg .asBspiCmd), s.reg (rg .asBspiAddr), s.reg (rg .asBspiBuf)) }
  else s

/-- The end of a transaction (R521, R525). -/
def State.bspiEnd (s : State) (err : Nat) : State :=
  let x := rg .asBspiStat
  ((s.setF x F.asBspiStat_BUSY 0).setF x F.asBspiStat_DONE 1).setF x F.asBspiStat_ERR err

/-- The running transaction, with the data bytes it sends. -/
def State.bspiTx (s : State) (sent : List Byte) : SpiTx :=
  let c := s.assay.bspi.1
  let write := F.asBspiCmd_WRITE.of c = 1
  { op := F.asBspiCmd_OP.of c
    addr := flashAddr (match F.asBspiCmd_ADDRB.of c with | 0 => 0 | 1 => 3 | _ => 4) s.assay.bspi.2.1.toNat
    dummy := F.asBspiCmd_DUMMY.of c
    data := if write then sent else []
    recv := if write then 0 else F.asBspiCmd_LEN.of c
    quad := F.asBspiCmd_QUAD.of c = 1 }

/-- BSPI_DONE: `data` are the bytes that the flash returned. While the Lodge holds the flash pins the transaction ends in
error (R464, R521). -/
def State.bspiDone (s : State) (data : List Byte) : State :=
  if !s.flag (rg .asBspiStat) F.asBspiStat_BUSY then s
  else if s.flag (rg .lodgeStat) F.lodgeStat_RECBUSY then s.bspiEnd 1
  else
    let c := s.assay.bspi.1
    let n := F.asBspiCmd_LEN.of c
    let a := s.assay.bspi.2.2.toNat
    if n = 0 then (s.onFlash [s.bspiTx []]).bspiEnd 0
    else if a % 8 ≠ 0 || !inRam a n || (s.bankStates a n).any BankState.isDown then s.bspiEnd 2
    else if (s.bankStates a n).any BankState.isWaking then s
    else if F.asBspiCmd_WRITE.of c = 1 then
      let r := s.ramRead 8 a n
      (r.1.onFlash [s.bspiTx (s.memBytes a n)]).bspiEnd 0
    else (((s.onFlash [s.bspiTx []]).ramWrite 8 a ((List.range n).map fun i => (data[i]?).getD 0)).1).bspiEnd 0

/-! ### Boot push and the release of sequencers (R500, R505, R509) -/

/-- The boot lockout (R505). -/
def State.lockout (s : State) : Bool := s.flag (rg .asBootStat) F.asBootStat_LOCKOUT

/-- A write discarded or refused under the lockout is counted (R505). -/
def State.lockoutDrop (s : State) : State :=
  s.setF (rg .asBootStat) F.asBootStat_WDROP (satAdd (s.getF (rg .asBootStat) F.asBootStat_WDROP) 1 511)

/-- SYS_SEQREL (R509): H0 releases held sequencers to fetch at their entries; each bit by itself
(DEDUCED, log entry 112). -/
def State.seqrel (s : State) (r : Requester) (v : Word) : State :=
  if r = .seq 0 then
    ([1, 2, 3] : List (Fin 4)).foldl (fun (s : State) (h : Fin 4) =>
      if bit v h && (s.seq h).run = .held then
        s.modSeq h fun q => { q with run := .running, pc := s.reg (rg .sysSeqEntry (h.val - 1)) }
      else s) s
  else s

/-! ### Register accesses (R511, R516, R521, R524 to R526) -/

/-- Reserved encodings (R223, R525). -/
def State.assayReserved (s : State) (x : Reg) (v : Word) : Bool :=
  match x.fam with
  | .asMcCtl => F.asMcCtl_TARGET.of v = 0 && !s.flag (rg .asMcStat) F.asMcStat_BUSY
  | .asOtpCtl => decide (3 < F.asOtpCtl_OP.of v)
  | .asBspiCmd =>
      (F.asBspiCmd_ADDRB.of v = 3 || decide (256 < F.asBspiCmd_LEN.of v) ||
        (F.asBspiCmd_QUAD.of v = 1 && F.asBspiCmd_WRITE.of v = 1))
  | _ => false

/-- Writes of the block. -/
def State.assayWrite (s : State) (r : Requester) (x : Reg) (v : Word) : State :=
  match x.fam with
  | .asBootPush => if s.lockout then s.lockoutDrop else s.writeDefault x v
  | .asMcSrc => if fromSeq r && !s.flag (rg .asMcStat) F.asMcStat_BUSY then s.writeDefault x v else s
  | .asMcCtl => s.mcCtlWrite r v
  | .asOtpCtl => s.otpCtlWrite v
  | .asBspiCmd => if fromSeq r then s.bspiCmdWrite v else s
  | .asBspiAddr | .asBspiBuf | .asBspiStat | .asMeas | .asExtd | .asAttReq | .asAttSrv =>
    if fromSeq r then s.writeDefault x v else s
  | .asExtctl => if fromSeq r then s.extctlWrite v else s
  | .asAttCtl => if fromSeq r then s.attCtlWrite v else s
  | _ => s.writeDefault x v

/-- Reads of the block: words of OTP that read 0 (R511), CSVALID (R224). -/
def State.assayRead (s : State) (x : Reg) : Word :=
  match x.fam with
  | .asOtp => if otpHidden x.i then 0 else s.reg x
  | .asMcStat =>
    setBits (s.reg x) 16 4 (((List.finRange 4).map fun h => if s.csValid h then 2 ^ h.val else 0).sum)
  | _ => s.reg x

/-- Levels of sources 752 to 759 (R522). -/
def State.assaySource (s : State) (src : Nat) : Bool :=
  match src - 752 with
  | 0 => s.flag (rg .asMcStat) F.asMcStat_DONE
  | 1 => s.flag (rg .annexImgStat) F.annexImgStat_DONE
  | 2 => s.flag (rg .asBootStat) F.asBootStat_FAIL
  | 3 => s.flag (rg .asExtctl) F.asExtctl_DONE || s.flag (rg .asExtctl) F.asExtctl_REFUSED
  | 4 => s.flag (rg .asAttCtl) F.asAttCtl_DONE
  | 5 => s.flag (rg .asAttSrv) F.asAttSrv_NEW
  | 6 => s.flag (rg .asOtpStat) F.asOtpStat_DONE
  | 7 => s.flag (rg .asBspiStat) F.asBspiStat_DONE
  | _ => false

end Sys2Proof.Machine
end

