-- ==== Sys2Proof/Machine/Fabric.lean ====
section
/-! DEFINITION. The fabric of the Annex: region states, frames, flip-flops, block RAMs, lines and I/O cells (12_annex_fabric.md
R338 to R345, R352, R354). -/

namespace Sys2Proof.Machine

/-! ### Regions and frames -/

/-- State of a region: 0 UNCONF, 1 LOADING, 2 LIVE, 3 LOADING and tainted (R363). -/
def State.regionState (s : State) (r : Nat) : Nat :=
  if r < 16 then s.getF (rg .annexRstate0) (F.annexRstate0_STATE r) else s.getF (rg .annexRstate1) (F.annexRstate1_STATE (r - 16))

def State.setRegionState (s : State) (r v : Nat) : State :=
  if r < 16 then s.setF (rg .annexRstate0) (F.annexRstate0_STATE r) v
  else s.setF (rg .annexRstate1) (F.annexRstate1_STATE (r - 16)) v

/-- What a frame that nothing has written holds (R351). -/
def frameDefault (_ : Nat) : BitVec 1024 := 0

/-- A frame of a region. -/
def State.frame (s : State) (r f : Nat) : BitVec 1024 := sparseGet frameDefault s.annex.frames (2048 * r + f)

def State.modAnnex (s : State) (f : Annex → Annex) : State := { s with annex := f s.annex }

def State.setFrame (s : State) (r f : Nat) (v : BitVec 1024) : State :=
  s.modAnnex fun x => { x with frames := sparseSet frameDefault x.frames (2048 * r + f) v }

/-- The I/O frame, the driver frames and the end of the address space of frames (R352). -/
def frameIo : Nat := 0x44A
def frameGn : Nat := 0x44D
def frameCapture : Nat := 0x44E
def frameEnd : Nat := 0x450

/-- The logic of a region. -/
def State.logic (s : State) (r : Fin 32) : Logic := s.annex.logic[r]

def State.modLogic (s : State) (r : Fin 32) (f : Logic → Logic) : State :=
  s.modAnnex fun x => { x with logic := x.logic.set r (f x.logic[r]) }

/-- The flip-flops of a region (R354): while it is not LIVE they hold the initial values as frames 0x400 and 0x401 stand. -/
def State.flops (s : State) (r : Fin 32) : BitVec 2048 :=
  if s.regionState r = 2 then (s.logic r).ff
  else BitVec.ofNat 2048 ((s.frame r 0x400).toNat + 2 ^ 1024 * (s.frame r 0x401).toNat)

/-! ### Block RAMs (R341, R352) -/

/-- Contents of block RAM 2r + k: 36 frames in word order. -/
def State.bram (s : State) (r : Fin 32) (k : Fin 2) : BitVec 36864 :=
  BitVec.ofNat 36864 ((List.range 36).foldr (fun i v => (s.frame r (0x402 + 36 * k + i)).toNat + 2 ^ 1024 * v) 0)

def State.setBram (s : State) (r : Fin 32) (k : Fin 2) (v : BitVec 36864) : State :=
  forN 36 (fun i s => s.setFrame r (0x402 + 36 * k + i) (BitVec.ofNat 1024 (v.toNat >>> (1024 * i)))) s

/-- Bits of a word in the three arrangements: 1,024 × 36, 2,048 × 18 and 4,096 × 9 (R341). -/
def ramBits (arr : Fin 3) : Nat := 36 / 2 ^ arr.val

/-- The word that a port's address names. -/
def ramAt (arr : Fin 3) (a : BitVec 12) : Nat := a.toNat % (36864 / ramBits arr)

/-- A word of a block RAM. -/
def ramWord (m : BitVec 36864) (arr : Fin 3) (a : BitVec 12) : BitVec 36 :=
  BitVec.ofNat 36 ((m.toNat >>> (ramBits arr * ramAt arr a)) % 2 ^ ramBits arr)

/-- A word of a block RAM replaced. -/
def ramPut (m : BitVec 36864) (arr : Fin 3) (a : BitVec 12) (v : BitVec 36) : BitVec 36864 :=
  let n := ramBits arr
  let mask : BitVec 36864 := BitVec.ofNat 36864 (2 ^ n - 1) <<< (n * ramAt arr a)
  (m &&& ~~~mask) ||| (BitVec.ofNat 36864 (v.toNat % 2 ^ n) <<< (n * ramAt arr a))

/-- Does a port write? -/
def ramWrites (p : RamOp) : Bool := p.en && p.we

/-- One FCLK of a block RAM (R341): port A's write prevails over port B's of the same word, and both ports read what stood
before the writes; a port that is not enabled keeps the word it read last. -/
def ramCycle (arr : Fin 3) (m : BitVec 36864) (a b : RamOp) (qa qb : BitVec 36) : BitVec 36864 × BitVec 36 × BitVec 36 :=
  let m' := if ramWrites b then ramPut m arr b.addr b.data else m
  let m' := if ramWrites a then ramPut m' arr a.addr a.data else m'
  (m', if a.en && !a.we then ramWord m arr a.addr else qa, if b.en && !b.we then ramWord m arr b.addr else qb)

/-! ### Lines (R343) -/

/-- Does region r have a driver enabled on column line b, or on global net b - 2,048 (R352)? -/
def State.drives (s : State) (r : Fin 32) (b : Nat) : Bool :=
  if b < 2048 then (s.frame r (0x44B + b / 1024)).getLsbD (b % 1024) else (s.frame r frameGn).getLsbD (b - 2048)

/-- The value of column line b, or of global net b - 2,048 (R343): the OR of the drivers that LIVE regions enable on it. -/
def State.lineValue (s : State) (b : Nat) : Bool :=
  (List.finRange 32).any fun r => s.regionState r = 2 && s.drives r b && (s.logic r).drv.getLsbD b

/-! ### I/O cells (R344, R345, R354) -/

/-- The settings at a pin: the level driven, the pull (0 none, 1 up, 2 down), the bus keeper and the slew setting. -/
structure PinCell where
  drive : Option Bool := none
  pull : Nat := 0
  keeper : Bool := false
  slew : Nat := 0
  deriving DecidableEq, Repr

/-- The I/O frame's 16 bits of pin p. -/
def State.ioBits (s : State) (r : Fin 32) (p : Nat) : Nat := ((s.frame r frameIo).toNat >>> (16 * p)) % 2 ^ 16

/-- Pin p of a region that holds it: its I/O frame's settings while the region is LIVE, its CFG_SAFE setting before. -/
def State.regionCell (s : State) (r : Fin 32) (p : Nat) : PinCell :=
  let io := s.ioBits r p
  let g := s.logic r
  if s.regionState r = 2 then
    { drive := if io / 2 % 2 = 1 && g.oe.getLsbD p then some (g.out.getLsbD p) else none
      pull := io / 16 % 4
      keeper := io / 64 % 2 = 1
      slew := io / 4 % 4 }
  else match s.getF (rg .annexSafe r) (F.annexSafe_SAFE p) with
    | 1 => { pull := 1 }
    | 2 => { pull := 2 }
    | 3 => if g.keptOe.getLsbD p then { drive := some (g.keptOut.getLsbD p) } else { keeper := true }
    | _ => { keeper := true }

end Sys2Proof.Machine
end

