-- ==== Sys2Proof/Machine/Pins.lean ====
section
/-! DEFINITION. General pins: holders, I/O cells and levels (20_pins_and_electrical.md R546 to R552). -/

namespace Sys2Proof.Machine

/-- HOLDER of a pin: 0 none, 1 direct agent, 2 porch channel, 3 Annex region (R548). -/
def State.pinHolder (s : State) (i : Nat) : Nat := s.getF (rg .gpOwn i) F.gpOwn_HOLDER

/-- The holder's ID: porch channel or Annex region. -/
def State.pinId (s : State) (i : Nat) : Nat := s.getF (rg .gpOwn i) F.gpOwn_ID

/-- Is pin i held by porch channel n? -/
def State.pinOfChan (s : State) (i n : Nat) : Bool := i < 384 && s.pinHolder i = 2 && s.pinId i = n

/-- Is pin i held by Annex region r? -/
def State.pinOfRegion (s : State) (i r : Nat) : Bool := i < 384 && s.pinHolder i = 3 && s.pinId i = r

/-- A pin's holder replaced; the porch drive of the pin starts at level 0, undriven. -/
def State.setHolder (s : State) (i holder agent id : Nat) : State :=
  let m := ~~~(BitVec.ofNat 384 (2 ^ i))
  let s := { s with gp := { out := s.gp.out &&& m, dir := s.gp.dir &&& m, side := s.gp.side &&& m } }
  s.setReg (rg .gpOwn i) (BitVec.ofNat 32 (agent + 8 * holder + 32 * id))

/-- A pin released: it returns to the input setting of its I/O cell (R307, R549). -/
def State.freePin (s : State) (i : Nat) : State := s.setHolder i 0 0 0

/-- Are the pins at their safe settings: in the safe state (R463) and in DEEP (R485)? -/
def State.safe (s : State) : Bool :=
  s.flag (rg .lodgeStat) F.lodgeStat_SAFE || s.getF (rg .sysPwrstat) F.sysPwrstat_STATE = 2

/-- A pin's SAFE setting (R552). -/
def safeCell (v : Nat) : PinCell :=
  match v with
  | 0 => { pull := 2 }
  | 1 => { pull := 1 }
  | 2 => { keeper := true }
  | 4 => { drive := some false }
  | 5 => { drive := some true }
  | _ => {}

/-- The settings at GP pin i (R344, R345, R354, R463, R549): in the safe state its SAFE setting; else those of its holder, an
Annex region's from its I/O frame or CFG_SAFE, and of PINS_GP[i]_CTL. -/
def State.pinCell (s : State) (i : Nat) : PinCell :=
  let ctl := s.reg (rg .gpCtl i)
  let cell (d : Option Bool) : PinCell :=
    { drive := d, pull := F.gpCtl_PULL.of ctl, keeper := F.gpCtl_KEEPER.of ctl = 1, slew := F.gpCtl_SLEW.of ctl }
  if s.supplyOff (i / 32) then {}
  else if s.safe then safeCell (F.gpCtl_SAFE.of ctl)
  else match s.pinHolder i with
    | 1 => cell (if F.gpCtl_OE.of ctl = 1 then some (F.gpCtl_OUT.of ctl = 1) else none)
    | 2 => cell (if s.gp.dir.getLsbD i || s.gp.side.getLsbD i then some (s.gp.out.getLsbD i) else none)
    | 3 => s.regionCell (Fin.ofNat 32 (s.pinId i)) (i - 12 * s.pinId i)
    | _ => cell none

/-- The level the device drives on GP pin i; none where it drives none. What a pull or a keeper makes of an undriven pad is
part of the level that a command gives for the pad (log entry 14). -/
def State.pinDrive (s : State) (i : Nat) : Option Bool := (s.pinCell i).drive

/-- The level read at GP pin i, with the levels `ext` put on the pads from outside (R309, R546, R552). Pins above GP383
read 0. -/
def State.pinLevel (s : State) (ext : BitVec 384) (i : Nat) : Bool :=
  if 384 ≤ i || s.supplyGone (i / 32) then false else (s.pinDrive i).getD (ext.getLsbD i)

/-- PINS_CLAIM captures a refusal (R548, R550): kind 0 ownership, 1 field write. -/
def State.pinRefuse (s : State) (i code kind : Nat) : State :=
  s.capture (rg .pinsClaim) F.pinsClaim_CLAIM_FAIL F.pinsClaim_MULTI fun w =>
    setBits (setBits (setBits w 0 9 i) 9 4 code) 13 1 kind

/-- A write of PINS_GP[i]_OWN (R548): a direct agent claims or releases the pin. -/
def State.pinOwnWrite (s : State) (r : Requester) (i : Nat) (v : Word) : State :=
  let cur := match s.pinHolder i with
    | 0 => 0
    | 1 => s.getF (rg .gpOwn i) F.gpOwn_AGENT
    | _ => 7
  match ownerRule r cur (F.gpOwn_AGENT.of v) with
  | .claim => s.setHolder i 1 (F.gpOwn_AGENT.of v) 0
  | .release => s.freePin i
  | .keep | .nothing => s
  | .refuse => s.pinRefuse i (reqCode r) 0

/-- May the writer change PULL, KEEPER and SLEW of pin i (R550)? -/
def State.pinCellRight (s : State) (r : Requester) (i : Nat) : Bool :=
  (reqOwner r).isSome && (match s.pinHolder i with
    | 0 => true
    | 1 => owns r (s.getF (rg .gpOwn i) F.gpOwn_AGENT)
    | 2 => owns r (s.getF (rg .chCtl (s.pinId i)) F.chCtl_OWNER)
    | _ => false)

/-- A write of PINS_GP[i]_CTL (R550): the fields that the writer has the right to; a change of another field is refused
and captured (DEDUCED, log entry 28: a field written with the value it has is not changed). -/
def State.pinCtlWrite (s : State) (r : Requester) (i : Nat) (v : Word) : State :=
  let x := rg .gpCtl i
  let old := s.reg x
  let cell := s.pinCellRight r i
  let drive := s.pinHolder i = 1 && owns r (s.getF (rg .gpOwn i) F.gpOwn_AGENT)
  let lock := s.flag (rg .pinsCtl) F.pinsCtl_SAFELOCK
  let safeOk := fromSeq r && !lock
  let w := if cell then setBits old 0 5 (bits v 0 5) else old
  let w := if drive then setBits w 5 2 (bits v 5 2) else w
  let w := if safeOk then setBits w 8 3 (bits v 8 3) else w
  let refused := (!cell && bits v 0 5 ≠ bits old 0 5) || (!drive && bits v 5 2 ≠ bits old 5 2) ||
    (!safeOk && !lock && bits v 8 3 ≠ bits old 8 3)
  let s := s.setReg x w
  if refused then s.pinRefuse i (reqCode r) 1 else s

/-- Reserved encodings of the block (R550, R552). -/
def State.pinsReserved (s : State) (x : Reg) (v : Word) : Bool :=
  match x.fam with
  | .gpCtl =>
    F.gpCtl_PULL.of v = 3 || (F.gpCtl_PULL.of v ≠ 0 && F.gpCtl_KEEPER.of v = 1) ||
      (!s.flag (rg .pinsCtl) F.pinsCtl_SAFELOCK && decide (5 < F.gpCtl_SAFE.of v))
  | .gpOwn => decide (5 < F.gpOwn_AGENT.of v)
  | _ => false

/-- Writes of the block. -/
def State.pinsWrite (s : State) (r : Requester) (x : Reg) (v : Word) : State :=
  match x.fam with
  | .gpCtl => s.pinCtlWrite r x.i v
  | .gpOwn => s.pinOwnWrite r x.i v
  | _ => s.writeDefault x v

/-- PINS_IN[k] (R552): driven pins show their level; an undriven pin's level comes from outside, and here from a free
value (log entry 14). -/
def State.pinsInWord (s : State) (k : Nat) (ext : Word) : Word :=
  BitVec.ofNat 32 (((List.range 32).map fun i =>
    if s.pinLevel (BitVec.ofNat 384 (ext.toNat <<< (32 * k))) (32 * k + i) then 2 ^ i else 0).sum)

/-- A bank's supply level changes (R552). -/
def State.supplyChange (s : State) (b lvl : Nat) : State :=
  let x := rg .bankStat b
  if s.getF x F.bankStat_VLVL = lvl % 4 then s else (s.setF x F.bankStat_VLVL lvl).setF x F.bankStat_CHG 1

/-- The holders of a set of pins all become none (R493). -/
def State.freePinsBy (s : State) (p : Nat → Bool) : State := forN 384 (fun i s => if p i then s.freePin i else s) s

end Sys2Proof.Machine
end

