-- ==== Sys2Proof/Machine/Porch.lean ====
section
/-! DEFINITION. Porch engines: instruction words, channels, injection and registers (11_porch_engines.md R301 to R337).
A channel's instruction commands are its issue opportunities; the word comes from the latch or the program memory. -/

namespace Sys2Proof.Machine

/-! ### Instruction words (R311 to R313) -/

/-- A porch instruction without its common fields. -/
inductive PInstr where
  | br (cond addr : Nat)
  | brr (reg : Nat)
  | wait (pol : Bool) (src : Nat) (limit : Bool) (idx : Nat)
  | sho (dst : Nat) (auto : Bool) (count : Nat)
  | shi (src : Nat) (auto : Bool) (count : Nat)
  | shx (auto : Bool) (count : Nat)
  | pull (mode : Nat)
  | push (mode : Nat)
  | alu (fn dst src : Nat)
  | ldi (dst imm : Nat)
  | sig (op idx : Nat)
  | gate (opened : Bool)
  | nop
  | halt
  deriving DecidableEq, Repr

/-- A field of a porch word. -/
def pbits (w : BitVec 24) (lo n : Nat) : Nat := (w.toNat >>> lo) % 2 ^ n

/-- OP, W, SP and DWELL (R311). -/
def pOp (w : BitVec 24) : Nat := pbits w 20 4
def pW (w : BitVec 24) : Bool := pbits w 19 1 = 1
def pSp (w : BitVec 24) : Nat := pbits w 16 3
def pDwell (w : BitVec 24) : Nat := pbits w 12 4

/-- A COUNT field of 1 to 32 with its reserved bits (R313). -/
def countOk (w : BitVec 24) : Bool := pbits w 6 2 = 0 && decide (1 ≤ pbits w 0 6) && decide (pbits w 0 6 ≤ 32)

/-- What an instruction word means; none where it is a fault (R312 to R314). -/
def decodePorch (w : BitVec 24) : Option PInstr :=
  let ok (b : Bool) (i : PInstr) : Option PInstr := if b then some i else none
  match pOp w with
  | 0 => ok (decide (pbits w 8 4 < 14)) (.br (pbits w 8 4) (pbits w 0 8))
  | 1 => ok (pbits w 1 11 = 0) (.brr (pbits w 0 1))
  | 2 =>
    let src := pbits w 9 2
    ok (pbits w 5 3 = 0 && (src = 0 || (src = 1 && decide (pbits w 0 5 < 8)) || (src = 2 && pbits w 0 5 = 0)))
      (.wait (pbits w 11 1 = 1) src (pbits w 8 1 = 1) (pbits w 0 5))
  | 3 => ok (decide (pbits w 9 3 < 6) && countOk w) (.sho (pbits w 9 3) (pbits w 8 1 = 1) (pbits w 0 6))
  | 4 => ok (decide (pbits w 9 3 < 6) && countOk w) (.shi (pbits w 9 3) (pbits w 8 1 = 1) (pbits w 0 6))
  | 5 => ok (pbits w 9 3 = 0 && countOk w) (.shx (pbits w 8 1 = 1) (pbits w 0 6))
  | 6 => ok (pbits w 2 10 = 0 && decide (pbits w 0 2 < 3)) (.pull (pbits w 0 2))
  | 7 => ok (pbits w 2 10 = 0 && decide (pbits w 0 2 < 3)) (.push (pbits w 0 2))
  | 8 => ok (decide (pbits w 9 3 < 6) && decide (pbits w 6 3 < 7) && pbits w 0 3 = 0)
      (.alu (pbits w 3 3) (pbits w 9 3) (pbits w 6 3))
  | 9 => some (.ldi (pbits w 10 2) (pbits w 0 10))
  | 10 => ok (pbits w 3 7 = 0 && (decide (pbits w 10 2 < 2) || (pbits w 10 2 = 2 && pbits w 0 3 = 0)))
      (.sig (pbits w 10 2) (pbits w 0 3))
  | 11 => ok (pbits w 1 11 = 0) (.gate (pbits w 0 1 = 1))
  | 12 => ok (pbits w 0 12 = 0) .nop
  | 13 => ok (pbits w 0 12 = 0) .halt
  | _ => none

/-! ### Channel state -/

/-- Channel n. -/
def State.chan (s : State) (n : Fin 512) : PorchCh := s.chans[n]

def State.modChan (s : State) (n : Fin 512) (f : PorchCh → PorchCh) : State :=
  { s with chans := s.chans.set n (f (s.chans[n])) }

/-- A field of a channel's control register. -/
def State.chF (s : State) (n : Fin 512) (f : Field) : Nat := s.getF (rg .chCtl n) f

/-- Engine of a channel. -/
def engineOf (n : Fin 512) : Nat := n.val / 8

/-- PC and ORIGIN (R335). -/
def State.chPc (s : State) (n : Fin 512) : Nat := s.getF (rg .chExec n) F.chExec_PC

def State.setChPc (s : State) (n : Fin 512) (a : Nat) : State := s.setF (rg .chExec n) F.chExec_PC a

/-- EN of a channel. -/
def State.chEn (s : State) (n : Fin 512) : Bool := s.flag (rg .chCtl n) F.chCtl_EN

/-- The program word at the channel's PC (R303). -/
def State.chWord (s : State) (n : Fin 512) : BitVec 24 :=
  BitVec.ofNat 24 (s.getF (rg .peProg (engineOf n) (s.chPc n)) F.peProg_WORD)

/-- A frame width: 0 means 32 (R317). -/
def frameOf (v : Nat) : Nat := if v = 0 then 32 else v

/-- Is OSR exhausted, is ISR full (R317)? -/
def State.osrDone (s : State) (n : Fin 512) : Bool := decide (frameOf (s.chF n F.chCtl_OFRAME) ≤ (s.chan n).ocnt)

def State.isrFull (s : State) (n : Fin 512) : Bool := decide (frameOf (s.chF n F.chCtl_IFRAME) ≤ (s.chan n).icnt)

/-- PINBASE and PINCNT. -/
def State.pinBase (s : State) (n : Fin 512) : Nat := s.getF (rg .chPins n) F.chPins_PINBASE

def State.pinCnt (s : State) (n : Fin 512) : Nat := s.getF (rg .chPins n) F.chPins_PINCNT

/-- Pins read through the input window, bit i from GP(PINBASE + INOFF + i) (R306). -/
def State.pinsIn (s : State) (n : Fin 512) (ext : BitVec 384) : Word :=
  let b := s.pinBase n + s.getF (rg .chPins n) F.chPins_INOFF
  BitVec.ofNat 32 (((List.range 32).map fun i => if s.pinLevel ext (b + i) then 2 ^ i else 0).sum)

/-- The main range's bits of a pin vector; 0 at a pin that the channel does not own. -/
def State.mainBits (s : State) (n : Fin 512) (v : BitVec 384) : Word :=
  BitVec.ofNat 32 (((List.range (s.pinCnt n)).map fun i =>
    if s.pinOfChan (s.pinBase n + i) n && v.getLsbD (s.pinBase n + i) then 2 ^ i else 0).sum)

/-- One bit of a pin vector replaced. -/
def putPin (v : BitVec 384) (i : Nat) (b : Bool) : BitVec 384 :=
  let m := BitVec.ofNat 384 (2 ^ i)
  if b then v ||| m else v &&& ~~~m

/-- The low `k` bits of a value go to the main range's levels or directions, in pins the channel owns (R308, R315, R324). -/
def State.putMain (s : State) (n : Fin 512) (dirs : Bool) (k : Nat) (v : Word) : State :=
  forN (Nat.min k (s.pinCnt n)) (fun i s =>
    let p := s.pinBase n + i
    if s.pinOfChan p n then
      { s with gp :=
        if dirs then { s.gp with dir := putPin s.gp.dir p (bit v i) } else { s.gp with out := putPin s.gp.out p (bit v i) } }
    else s) s

/-- The side pattern of a completion (R311). -/
def State.putSide (s : State) (n : Fin 512) (sp : Nat) : State :=
  if sp = 0 then s
  else
    let pat := if sp < 4 then bits (s.reg (rg .chSpat0 n)) (8 * sp) 8 else bits (s.reg (rg .chSpat1 n)) (8 * (sp - 4)) 8
    let b := s.getF (rg .chSide n) F.chSide_SIDEBASE
    forN (s.getF (rg .chSide n) F.chSide_SIDECNT) (fun i s =>
      if s.pinOfChan (b + i) n then { s with gp := { s.gp with out := putPin s.gp.out (b + i) (pat.testBit i) } } else s) s

/-- Engine flag idx. -/
def State.peFlag (s : State) (n : Fin 512) (idx : Nat) : Bool := bit (s.reg (rg .peFlags (engineOf n))) idx

def State.setPeFlag (s : State) (n : Fin 512) (idx : Nat) (v : Bool) : State :=
  let x := rg .peFlags (engineOf n)
  s.setReg x (setBits (s.reg x) idx 1 (b2n v))

/-! ### Shifts (R316, R317) -/

/-- COUNT bits out of OSR: the value and the register afterwards. -/
def shiftOut (lsb : Bool) (osr : Word) (c : Nat) : Word × Word :=
  if lsb then (BitVec.ofNat 32 (osr.toNat % 2 ^ c), osr >>> c)
  else (BitVec.ofNat 32 (osr.toNat >>> (32 - c)), osr <<< c)

/-- COUNT bits of a source into ISR. -/
def shiftIn (lsb : Bool) (isr src : Word) (c : Nat) : Word :=
  let v := BitVec.ofNat 32 (src.toNat % 2 ^ c)
  if lsb then (isr >>> c) ||| (v <<< (32 - c)) else (isr <<< c) ||| v

/-- A waiting PULL (R315, R319): none while the OFIFO is empty. -/
def State.waitPull (s : State) (n : Fin 512) : Option State :=
  match (s.chan n).ofifo with
  | [] => none
  | w :: ws => some (s.modChan n fun c => { c with ofifo := ws, osr := w, ocnt := 0 })

/-- A waiting PUSH (R315, R319): none while the IFIFO is full. -/
def State.waitPush (s : State) (n : Fin 512) : Option State :=
  if (s.chan n).ififo.length < 8 then
    some (s.modChan n fun c => { c with ififo := c.ififo ++ [c.isr], isr := 0, icnt := 0 })
  else none

/-- The shift of SHO: OSR and OCNT, and the bits. -/
def State.shOut (s : State) (n : Fin 512) (c : Nat) : State × Word :=
  let t := shiftOut (s.chF n F.chCtl_OLSB = 1) (s.chan n).osr c
  (s.modChan n fun x => { x with osr := t.2, ocnt := Nat.min 32 (x.ocnt + c) }, t.1)

/-- The shift of SHI. -/
def State.shIn (s : State) (n : Fin 512) (src : Word) (c : Nat) : State :=
  s.modChan n fun x => { x with isr := shiftIn (s.chF n F.chCtl_ILSB = 1) x.isr src c, icnt := Nat.min 32 (x.icnt + c) }

/-! ### Execution (R315, R319, R320) -/

/-- What an attempt at an instruction answers: completed (with a written PC, if any), or held with its phase. -/
inductive PRes where
  | done (s : State) (pc : Option Nat)
  | hold (s : State) (h : PHeld)

/-- Is the condition of BR met; the state after the decrement or clear that it names (R313). -/
def State.brCond (s : State) (n : Fin 512) (ext : BitVec 384) (cond : Nat) : Bool × State :=
  let c := s.chan n
  let jpin := s.pinLevel ext (s.pinBase n + s.getF (rg .chPins n) F.chPins_JPIN)
  match cond with
  | 0 => (true, s)
  | 1 => (c.s0 = 0, s)
  | 2 => (c.s0 - 1 ≠ 0, s.modChan n fun c => { c with s0 := c.s0 - 1 })
  | 3 => (c.s1 = 0, s)
  | 4 => (c.s1 - 1 ≠ 0, s.modChan n fun c => { c with s1 := c.s1 - 1 })
  | 5 => (c.s0 = c.s1, s)
  | 6 => (c.s0.ult c.s1, s)
  | 7 => (jpin, s)
  | 8 => (!jpin, s)
  | 9 => (s.osrDone n, s)
  | 10 => (s.isrFull n, s)
  | 11 => (c.tof, s.modChan n fun c => { c with tof := false })
  | 12 => (c.ofifo.isEmpty, s)
  | _ => (8 ≤ c.ififo.length, s)

/-- Does the condition of WAIT hold (R313, R315)? -/
def State.waitCond (s : State) (n : Fin 512) (ext : BitVec 384) (pol : Bool) (src idx : Nat) : Bool :=
  let v := match src with
    | 0 => s.pinLevel ext (s.pinBase n + idx)
    | 1 => s.peFlag n idx
    | _ => (s.chan n).evl
  v = pol

/-- WAIT (R315, R320). -/
def State.execWait (s : State) (n : Fin 512) (ext : BitVec 384) (h : PHeld) (pol : Bool) (src : Nat) (limit : Bool)
    (idx : Nat) : PRes :=
  if s.waitCond n ext pol src idx then
    .done (if pol && src = 1 then s.setPeFlag n idx false
      else if pol && src = 2 then s.modChan n fun c => { c with evl := false } else s) none
  else if limit then
    (if (s.chan n).s1 = 0 then .done (s.modChan n fun c => { c with tof := true }) none
     else .hold (s.modChan n fun c => { c with s1 := c.s1 - 1 }) h)
  else .hold s h

/-- The refill of SHO and SHX with AUTO (R317): owed where OSR is exhausted at the first attempt, and from then on. -/
def State.refillAuto (s : State) (n : Fin 512) (h : PHeld) (auto : Bool) : Option State :=
  if h.refill || (auto && s.osrDone n) then s.waitPull n else some s

/-- SHO (R315, R317). -/
def State.execSho (s : State) (n : Fin 512) (h : PHeld) (dst : Nat) (auto : Bool) (count : Nat) : PRes :=
  match s.refillAuto n h auto with
  | none => .hold s { h with refill := true }
  | some s =>
    let u := s.shOut n count
    let s := u.1
    let v := u.2
    .done (match dst with
      | 0 => s.putMain n false count v
      | 1 => s.putMain n true count v
      | 2 => s.modChan n fun c => { c with s0 := v }
      | 3 => s.modChan n fun c => { c with s1 := v }
      | 4 => s.modChan n fun c => { c with isr := v, icnt := count }
      | _ => s) none

/-- The flush of SHI and SHX with AUTO (R317): owed where the shift leaves ISR full, and from then on. -/
def State.flushAuto (s : State) (n : Fin 512) (h : PHeld) (auto : Bool) : Option State :=
  if h.flush || (auto && s.isrFull n) then s.waitPush n else some s

/-- SHI (R315, R317). -/
def State.execShi (s : State) (n : Fin 512) (ext : BitVec 384) (h : PHeld) (src : Nat) (auto : Bool) (count : Nat) : PRes :=
  let c := s.chan n
  let v : Word := match src with
    | 0 => s.pinsIn n ext
    | 1 => c.s0
    | 2 => c.s1
    | 3 => 0
    | 4 => 0xFFFFFFFF
    | _ => c.osr
  let s := if h.flush then s else s.shIn n v count
  match s.flushAuto n h auto with
  | none => .hold s { h with flush := true }
  | some s => .done s none

/-- SHX (R310, R315, R317): its outputs change at completion. -/
def State.execShx (s : State) (n : Fin 512) (ext : BitVec 384) (h : PHeld) (auto : Bool) (count : Nat) : PRes :=
  match (if h.flush then some s else s.refillAuto n h auto) with
  | none => .hold s { h with refill := true }
  | some s =>
    let u : State × Word := if h.flush then (s, h.outv)
      else
        let v := s.pinsIn n ext
        let o := s.shOut n count
        (o.1.shIn n v count, o.2)
    match u.1.flushAuto n h auto with
    | none => .hold u.1 { h with refill := false, flush := true, outv := u.2 }
    | some s => .done (s.putMain n false count u.2) none

/-- ALU (R315). -/
def State.execAlu (s : State) (n : Fin 512) (ext : BitVec 384) (fn dst src : Nat) : State :=
  let c := s.chan n
  let b : Word := match src with
    | 0 => c.s0 | 1 => c.s1 | 2 => c.osr | 3 => c.isr
    | 4 => s.pinsIn n ext
    | 5 => BitVec.ofNat 32 (c.ofifo.length + 16 * c.ififo.length)
    | _ => 0
  let a : Word := match dst with
    | 0 => c.s0 | 1 => c.s1 | 2 => c.osr | 3 => c.isr
    | 4 => s.mainBits n s.gp.out
    | _ => s.mainBits n s.gp.dir
  let r : Word := match fn with
    | 0 => b | 1 => ~~~b | 2 => b.reverse | 3 => a + b | 4 => a - b | 5 => a &&& b | 6 => a ||| b | _ => a ^^^ b
  match dst with
  | 0 => s.modChan n fun c => { c with s0 := r }
  | 1 => s.modChan n fun c => { c with s1 := r }
  | 2 => s.modChan n fun c => { c with osr := r, ocnt := 0 }
  | 3 => s.modChan n fun c => { c with isr := r, icnt := 0 }
  | 4 => s.putMain n false 32 r
  | _ => s.putMain n true 32 r

/-- LDI (R315). -/
def State.execLdi (s : State) (n : Fin 512) (dst imm : Nat) : State :=
  let v := BitVec.ofNat 32 imm
  match dst with
  | 0 => s.modChan n fun c => { c with s0 := v }
  | 1 => s.modChan n fun c => { c with s1 := v }
  | 2 => s.putMain n false 10 v
  | _ => s.putMain n true 10 v

/-- One attempt at an instruction (R315). -/
def State.execPorch (s : State) (n : Fin 512) (ext : BitVec 384) (h : PHeld) : PInstr → PRes
  | .br cond addr =>
    let t := s.brCond n ext cond
    .done t.2 (if t.1 then some addr else none)
  | .brr reg => .done s (some (bits (if reg = 0 then (s.chan n).s0 else (s.chan n).s1) 0 8))
  | .wait pol src limit idx => s.execWait n ext h pol src limit idx
  | .sho dst auto count => s.execSho n h dst auto count
  | .shi src auto count => s.execShi n ext h src auto count
  | .shx auto count => s.execShx n ext h auto count
  | .pull mode =>
    if mode = 2 && !s.osrDone n then .done s none
    else match s.waitPull n with
      | some s => .done s none
      | none => if mode = 1 then .done s none else .hold s h
  | .push mode =>
    if mode = 2 && !s.isrFull n then .done s none
    else match s.waitPush n with
      | some s => .done s none
      | none => if mode = 1 then .done s none else .hold s h
  | .alu fn dst src => .done (s.execAlu n ext fn dst src) none
  | .ldi dst imm => .done (s.execLdi n dst imm) none
  | .sig op idx =>
    .done (match op with
      | 0 => s.setPeFlag n idx true
      | 1 => s.setPeFlag n idx false
      | _ => s.setF (rg .chIrq n) F.chIrq_RAISE 1) none
  | .gate o => .done (s.modChan n fun c => { c with gate := o }) none
  | .nop => .done s none
  | .halt => .done ((s.setF (rg .chCtl n) F.chCtl_EN 0).setF (rg .chIrq n) F.chIrq_STOPPED 1) none

/-- PC after a fetched instruction that wrote none (R311, R315). -/
def State.advancePc (s : State) (n : Fin 512) (w : BitVec 24) : State :=
  s.setChPc n (if pW w then s.getF (rg .chExec n) F.chExec_ORIGIN else s.chPc n + 1)

/-- INJABN. -/
def State.injAbn (s : State) (n : Fin 512) : State := s.setF (rg .chStat n) F.chStat_INJABN 1

/-- A held instruction is abandoned (R323): a fetched one's PC advances. -/
def State.abandon (s : State) (n : Fin 512) (h : PHeld) : State :=
  (if h.inj then s else s.advancePc n h.word).injAbn n

/-- Completion (R315, R323): side pattern, dwell, PC; after an injected instruction the saved one returns to the latch,
or is abandoned when PC was written. -/
def State.completePorch (s : State) (n : Fin 512) (h : PHeld) (pc : Option Nat) : State :=
  let s := s.putSide n (pSp h.word)
  let k := if s.chF n F.chCtl_DWX = 1 then 4 * pDwell h.word else pDwell h.word
  let s := s.modChan n fun c => { c with dwell := k, latch := none }
  match pc with
  | some a =>
    let s := match (s.chan n).saved with
      | some _ => (s.modChan n fun c => { c with saved := none }).injAbn n
      | none => s
    s.setChPc n a
  | none =>
    if h.inj then s.modChan n fun c => { c with latch := c.saved, saved := none } else s.advancePc n h.word

/-- A fault (R314): the word stays in the latch; `pc` is the PC captured (R334). -/
def State.porchFault (s : State) (n : Fin 512) (h : PHeld) (pc : Nat) : State :=
  let e := engineOf n
  let first := !s.flag (rg .peFault e) F.peFault_VALID
  let cause := if pOp h.word < 14 then 1 else 0
  let s := s.capture (rg .peFault e) F.peFault_VALID F.peFault_MULTI fun w =>
    setBits (setBits (setBits (setBits w 0 3 (n.val % 8)) 3 8 pc) 11 2 cause) 13 1 (b2n h.inj)
  let s := if first then s.setF (rg .peFaultw e) F.peFaultw_WORD h.word.toNat else s
  let s := s.setF (rg .chCtl n) F.chCtl_EN 0
  s.modChan n fun c => { c with latch := some h, fault := true }

/-- D in units of 1/256 (R304). -/
def State.divider (s : State) (n : Fin 512) : Nat :=
  let d := bits (s.reg (rg .chDiv n)) 0 24
  if d = 0 then 65536 * 256 else d

/-- The accumulator at an issue opportunity (R304): slots are counted until A reaches D. -/
def State.nextOpp (s : State) (n : Fin 512) : State :=
  let d := s.divider n
  s.modChan n fun c =>
    let k := Nat.max 1 ((d - c.acc + 255) / 256)
    { c with acc := c.acc + 256 * k - d }

/-- The divider restarted (R304): A := D - 1. -/
def State.restartDiv (s : State) (n : Fin 512) : State :=
  let d := s.divider n
  s.modChan n fun c => { c with acc := d - 256 }

/-- An issue opportunity of a running channel without dwell or queued injection, at which the held or fetched instruction
has operation `op`; a word that is a fault faults. A channel in FAULT executes nothing until RESTART (DEDUCED, log entry
52). -/
def State.porchRun (s : State) (n : Fin 512) (ext : BitVec 384) (op : Nat) : State :=
  let c := s.chan n
  if !s.chEn n || c.fault || c.dwell ≠ 0 || c.inj.isSome then s
  else
    let h := c.latch.getD { word := s.chWord n, inj := false }
    match decodePorch h.word with
    | none => (s.nextOpp n).porchFault n h (s.chPc n)
    | some i =>
      if pOp h.word ≠ op then s
      else match (s.nextOpp n).execPorch n ext h i with
        | .done s pc => s.completePorch n h pc
        | .hold s h => s.modChan n fun c => { c with latch := some h }

/-- Is the channel's held instruction a WAIT with TO whose limit has run out (R320)? -/
def State.waitExpired (s : State) (n : Fin 512) (ext : BitVec 384) : Bool :=
  match decodePorch (((s.chan n).latch.getD { word := s.chWord n, inj := false }).word) with
  | some (.wait pol src true idx) => (s.chan n).s1 = 0 && !s.waitCond n ext pol src idx
  | _ => false

/-- An idle opportunity (R311). -/
def State.dwellOpp (s : State) (n : Fin 512) : State :=
  if s.chEn n && (s.chan n).dwell ≠ 0 then (s.nextOpp n).modChan n fun c => { c with dwell := c.dwell - 1 } else s

/-! ### Injection (R323, R324) -/

/-- What an injection does with an instruction in the latch. A saved instruction that a second RESUME displaces is
abandoned (DEDUCED, log entry 29). -/
def State.displace (s : State) (n : Fin 512) (resume : Bool) : State :=
  match (s.chan n).latch with
  | none => s
  | some h =>
    let s := s.modChan n fun c => { c with latch := none }
    if resume then
      let s := if (s.chan n).saved.isSome then s.injAbn n else s
      s.modChan n fun c => { c with saved := some h }
    else s.abandon n h

/-- The queued injection executes: at an opportunity of a running channel with its dwell run down, or at once in a stopped
one, which never holds it (R324). -/
def State.injExec (s : State) (n : Fin 512) (ext : BitVec 384) : State :=
  let en := s.chEn n
  match (s.chan n).inj with
  | none => s
  | some (w, resume) =>
    if en && (s.chan n).dwell ≠ 0 then s
    else
      let s := if en then s.nextOpp n else s
      let pc := s.chPc n
      let s := (s.modChan n fun c => { c with inj := none }).displace n resume
      let h : PHeld := { word := w, inj := true }
      match decodePorch w with
      | none => s.porchFault n h pc
      | some i =>
        match s.execPorch n ext h i with
        | .done s pc => s.completePorch n h pc
        | .hold s h =>
          if en then s.modChan n fun c => { c with latch := some h }
          else (s.modChan n fun c => { c with latch := c.saved, saved := none }).injAbn n

/-! ### Claims and starts (R307, R325 to R329) -/

/-- The owner code with which a requester acts here: a DMA channel acts with its own OWNER (R329). -/
def State.porchOwner (s : State) (r : Requester) : Option Nat :=
  match r with
  | .dma c =>
    let o := s.getF (rg .dmaCtl c) F.dmaCtl_OWNER
    if o = 0 then none else some o
  | _ => reqOwner r

/-- PORCH_CLAIM captures a refusal (R329, R337). -/
def State.porchRefuse (s : State) (res code : Nat) (launch : Bool) (ch : Nat) : State :=
  s.capture (rg .porchClaim) F.porchClaim_CLAIM_FAIL F.porchClaim_MULTI fun w =>
    setBits (setBits (setBits (setBits w 0 10 res) 10 4 code) 14 1 (b2n launch)) 15 9 ch

/-- Pins of both ranges of a channel (R306). -/
def State.chRange (s : State) (n : Fin 512) : List Nat :=
  let side := s.reg (rg .chSide n)
  span (s.pinBase n) (s.pinCnt n) ++ span (F.chSide_SIDEBASE.of side) (F.chSide_SIDECNT.of side)

/-- EN from 0 to 1 (R307, R308): every pin of both ranges is claimed, or none; a pin that becomes a side pin starts at level
0. -/
def State.chStart (s : State) (n : Fin 512) (code : Nat) (launch : Bool) : State :=
  if s.chEn n then s
  else
    let ps := s.chRange n
    match ps.find? fun p => s.pinHolder p ≠ 0 && !s.pinOfChan p n with
    | some p => s.porchRefuse (0x240 + p) code launch n
    | none =>
      let s := s.freePinsBy fun p => s.pinOfChan p n && !ps.contains p
      let s := ps.foldl (fun s p => if s.pinOfChan p n then s else s.setHolder p 2 0 n) s
      let side := s.reg (rg .chSide n)
      let sides := span (F.chSide_SIDEBASE.of side) (F.chSide_SIDECNT.of side)
      let s := ps.foldl (fun s p =>
        let gp := if sides.contains p && !s.gp.side.getLsbD p then { s.gp with out := putPin s.gp.out p false } else s.gp
        { s with gp := { gp with side := putPin gp.side p (sides.contains p) } }) s
      s.setF (rg .chCtl n) F.chCtl_EN 1

/-- RESTART (R305, R325): the R items at their reset values, and FAULT is left. -/
def State.chRestart (s : State) (n : Fin 512) : State :=
  let s := s.setChPc n (s.getF (rg .chExec n) F.chExec_ORIGIN)
  s.modChan n fun c => { acc := c.acc, ofifo := c.ofifo, ififo := c.ififo, inj := c.inj }

/-- A write of PORCH_CH[n]_CTL (R325, R329). -/
def State.chCtlWrite (s : State) (r : Requester) (n : Fin 512) (v : Word) : State :=
  let x := rg .chCtl n
  let other (s : State) : State :=
    let s := s.setReg x (setBits (s.reg x) 5 18 (bits v 5 18) &&& 0x007FEFFF#32)
    let s := if F.chCtl_RESTART.of v = 1 then s.chRestart n else s
    if F.chCtl_EN.of v = 1 then s.chStart n (reqCode r) false else s.setF x F.chCtl_EN 0
  match ownerRuleOf (s.porchOwner r) (s.getF x F.chCtl_OWNER) (F.chCtl_OWNER.of v) with
  | .claim => other (s.setF x F.chCtl_OWNER (F.chCtl_OWNER.of v))
  | .keep => other s
  | .release =>
    let s := (s.setF x F.chCtl_EN 0).setF x F.chCtl_OWNER 0
    s.freePinsBy fun p => s.pinOfChan p n
  | .nothing => s
  | .refuse => s.porchRefuse n (reqCode r) false 0

/-- A write of PORCH_SYNC, or a launched start, by owner `own` (R326, R327). -/
def State.porchSyncBy (s : State) (own : Option Nat) (code : Nat) (launch enable : Bool) (groups : Nat) : State :=
  let named (s : State) (n : Fin 512) : Bool := groups.testBit (s.chF n F.chCtl_SGRP)
  let mine (s : State) (n : Fin 512) : Bool := own.isSome && some (s.chF n F.chCtl_OWNER) = own
  let s := match (List.finRange 512).find? fun n => named s n && s.chF n F.chCtl_OWNER ≠ 0 && !mine s n with
    | some n => s.porchRefuse n code launch 0
    | none => s
  (List.finRange 512).foldl (fun s n =>
    if named s n && mine s n then
      let s := s.restartDiv n
      if enable then s.chStart n code launch else s
    else s) s

/-- RES of a refused launched edge (R337): its pin, or the channel where PINBASE + k passes the last pin (DESIGN CHOICE, log
entry 102). -/
def edgeRes (n p : Nat) : Nat := if p < 384 then 0x240 + p else n

/-- A launched pin edge (R328). -/
def State.porchEdge (s : State) (n : Fin 512) (k : Nat) (level : Bool) (owner code : Nat) : State :=
  let p := s.pinBase n + k
  if s.pinCnt n ≤ k || !s.pinOfChan p n || owner = 0 || s.chF n F.chCtl_OWNER ≠ owner then
    s.porchRefuse (edgeRes n p) code true n
  else { s with gp := { s.gp with out := putPin s.gp.out p level, dir := putPin s.gp.dir p true } }

/-! ### Register accesses (R329 to R337) -/

/-- Reserved encodings and the writes discarded in the same way (R304, R306, R325, R335). -/
def State.porchReserved (s : State) (x : Reg) (v : Word) : Bool :=
  let n := Fin.ofNat 512 x.i
  match x.fam with
  | .peCtl => decide (5 < F.peCtl_OWNER.of v)
  | .chCtl => decide (5 < F.chCtl_OWNER.of v) || (F.chCtl_RESTART.of v = 1 && s.chEn n)
  | .chDiv => F.chDiv_INT.of v = 0 && F.chDiv_FRAC.of v ≠ 0
  | .chPins =>
    decide (383 < F.chPins_PINBASE.of v) || decide (32 < F.chPins_PINCNT.of v) ||
      decide (384 < F.chPins_PINBASE.of v + F.chPins_PINCNT.of v) || s.chEn n
  | .chSide =>
    decide (383 < F.chSide_SIDEBASE.of v) || F.chSide_SIDECNT.of v = 7 ||
      decide (384 < F.chSide_SIDEBASE.of v + F.chSide_SIDECNT.of v) || s.chEn n
  | .chExec => s.chEn n || (s.chan n).latch.isSome
  | .chFstat => decide (8 < F.chFstat_OTHR.of v) || decide (8 < F.chFstat_ITHR.of v)
  | _ => false

/-- CH_STAT (R336). -/
def State.chStatWord (s : State) (n : Fin 512) : Word :=
  let c := s.chan n
  let st := if c.fault then 3 else if c.latch.isSome then 2 else if s.chEn n then 1 else 0
  BitVec.ofNat 32 (st + 4 * b2n c.gate + 8 * b2n c.tof + 16 * b2n c.evl + 32 * c.ocnt + 2048 * c.icnt +
    2 ^ 17 * b2n c.inj.isSome + 2 ^ 18 * b2n c.saved.isSome) ||| (s.reg (rg .chStat n) &&& 0x00180000)

/-- CH_FSTAT (R336). -/
def State.chFstatWord (s : State) (n : Fin 512) : Word :=
  setBits (setBits (s.reg (rg .chFstat n)) 0 4 (s.chan n).ofifo.length) 4 4 (s.chan n).ififo.length

/-- CH_IRQ (R331, R336). -/
def State.chIrqWord (s : State) (n : Fin 512) : Word :=
  let c := s.chan n
  let f := s.reg (rg .chFstat n)
  setBits (setBits (s.reg (rg .chIrq n)) 1 1 (b2n (decide (c.ofifo.length ≤ F.chFstat_OTHR.of f)))) 2 1
    (b2n (decide (F.chFstat_ITHR.of f ≤ c.ififo.length)))

/-- Source n of a channel, source 512 + e of an engine (R301, R331). -/
def State.porchSource (s : State) (src : Nat) : Bool :=
  if src < 512 then
    let w := s.chIrqWord (Fin.ofNat 512 src)
    bits w 0 4 &&& bits w 8 4 ≠ 0
  else s.flag (rg .peFault (src - 512)) F.peFault_VALID

/-- A write of TXF by the owner (R330). -/
def State.txf (s : State) (n : Fin 512) (v : Word) : State :=
  if 8 ≤ (s.chan n).ofifo.length then s.setF (rg .chFstat n) F.chFstat_TXOVF 1
  else s.modChan n fun c => { c with ofifo := c.ofifo ++ [v] }

/-- A write of INJ by the owner (R323). -/
def State.injWrite (s : State) (n : Fin 512) (v : Word) : State :=
  if (s.chan n).inj.isSome then s.setF (rg .chStat n) F.chStat_INJOVF 1
  else s.modChan n fun c => { c with inj := some (BitVec.ofNat 24 v.toNat, F.chInj_RESUME.of v = 1) }

/-- Writes of the block. -/
def State.porchWrite (s : State) (r : Requester) (x : Reg) (v : Word) : State :=
  let n := Fin.ofNat 512 x.i
  let owned (f : State → State) : State :=
    let o := s.porchOwner r
    if o.isSome && some (s.chF n F.chCtl_OWNER) = o then f s else s.porchRefuse x.i (reqCode r) false 0
  let engOwned (f : State → State) : State :=
    let o := s.porchOwner r
    if o.isSome && some (s.getF (rg .peCtl x.i) F.peCtl_OWNER) = o then f s
    else s.porchRefuse (0x200 + x.i) (reqCode r) false 0
  match x.fam with
  | .peCtl =>
    (match ownerRuleOf (s.porchOwner r) (s.getF x F.peCtl_OWNER) (F.peCtl_OWNER.of v) with
      | .claim => s.setF x F.peCtl_OWNER (F.peCtl_OWNER.of v)
      | .release => s.setF x F.peCtl_OWNER 0
      | .keep | .nothing => s
      | .refuse => s.porchRefuse (0x200 + x.i) (reqCode r) false 0)
  | .peFlags => engOwned fun s =>
    let f := s.reg x &&& 0xFF
    s.setReg x (BitVec.ofNat 32 (((f &&& ~~~v).toNat % 256) ||| (F.peFlags_FSET.of v)))
  | .peProg => engOwned fun s => s.writeDefault x v
  | .chCtl => s.chCtlWrite r n v
  | .chTxf => owned fun s => s.txf n v
  | .chInj => owned fun s => s.injWrite n v
  | .chEvt => owned fun s =>
    if F.chEvt_SET.of v = 1 then s.modChan n fun c => { c with evl := true } else s
  | .chFstat => owned fun s =>
    let s := s.writeDefault x v
    if F.chFstat_FLUSH.of v = 1 then s.modChan n fun c => { c with ofifo := [], ififo := [] } else s
  | .chSpat0 => owned fun s => s.setReg x (v &&& 0x3F3F3F00)
  | .chSpat1 => owned fun s => s.setReg x (v &&& 0x3F3F3F3F)
  | .chDiv | .chPins | .chExec | .chRxf | .chStat | .chIrq | .chSide => owned fun s => s.writeDefault x v
  | .porchSync =>
    s.porchSyncBy (s.porchOwner r) (reqCode r) false (F.porchSync_ENABLE.of v = 1) (F.porchSync_GROUPS.of v)
  | _ => s.writeDefault x v

/-- A read of RXF (R329, R330). -/
def State.rxf (s : State) (r : Requester) (n : Fin 512) : State × Word :=
  let o := s.porchOwner r
  if o.isSome && some (s.chF n F.chCtl_OWNER) = o then
    match (s.chan n).ififo with
    | [] => (s.setF (rg .chFstat n) F.chFstat_RXUNF 1, 0)
    | w :: ws => (s.modChan n fun c => { c with ififo := ws }, w)
  else (s.porchRefuse n (reqCode r) false 0, 0)

/-- Reads of the block. -/
def State.porchRead (s : State) (r : Requester) (x : Reg) : State × Word :=
  let n := Fin.ofNat 512 x.i
  match x.fam with
  | .peFlags => (s, BitVec.ofNat 32 (257 * bits (s.reg x) 0 8))
  | .chStat => (s, s.chStatWord n)
  | .chFstat => (s, s.chFstatWord n)
  | .chIrq => (s, s.chIrqWord n)
  | .chRxf => s.rxf r n
  | _ => (s, s.reg x)

end Sys2Proof.Machine
end

