-- ==== Sys2Proof/Machine/Sensor.lean ====
section
/-! DEFINITION. Receiver groups, inlets, outlets and rings (10_sensor_receivers_inlet_outlet.md R267 to R300). -/

namespace Sys2Proof.Machine

/-- An inlet's state. -/
def State.inl (s : State) (w : Fin 8) : Inlet := s.inlet[w]

def State.modInl (s : State) (w : Fin 8) (f : Inlet → Inlet) : State := { s with inlet := s.inlet.set w (f (s.inlet[w])) }

/-! ### Group settings (R268, R269) -/

/-- Number of logical lanes by the NL field. -/
def lanesOf (nl : Nat) : Nat := 2 ^ nl

/-- Logical lanes of group h. -/
def State.groupLanes (s : State) (h : Nat) : Nat := lanesOf (s.getF (rg .sgCtl h) F.sgCtl_NL)

/-- Bits of a word of group h. -/
def State.groupBpw (s : State) (h : Nat) : Nat := s.getF (rg .sgCtl h) F.sgCtl_BPW + 1

/-- Physical lane of a logical lane. -/
def lmap (map : Word) (j : Nat) : Nat := (F.sgMap_LMAP j).of map

/-- The physical lanes of group h in the order of the logical lanes mapped to them (R268). -/
def State.mapped (s : State) (h : Nat) : List (Fin 8) :=
  (List.range (s.groupLanes h)).map fun j => Fin.ofNat 8 (lmap (s.reg (rg .sgMap h)) j)

/-- The settings that R269 forbids while EN is 1. -/
def groupBad (ctl map ictl : Word) : Bool :=
  F.sgCtl_EN.of ctl = 1 &&
    (let n := lanesOf (F.sgCtl_NL.of ctl)
     !decide ((List.range n).map (lmap map)).Nodup || F.swIctl_PXCNT.of ictl % n ≠ 0)

/-- The settings that R285 forbids while the inlet's EN is 1. -/
def inletBad (ictl win : Word) : Bool :=
  F.swIctl_EN.of ictl = 1 &&
    (F.swWin_IDEPTH.of win = 0 || F.swWin_BPP.of win = 0 ||
      decide (4063 < F.swWin_IBASE.of win + F.swWin_IDEPTH.of win * F.swWin_BPP.of win - 1))

/-- Reserved encodings of the block's fields, and the writes that R269, R285 and R291 discard in the same way (R11). -/
def State.sensorReserved (s : State) (x : Reg) (v : Word) : Bool :=
  let i := x.i
  match x.fam with
  | .sgCtl => decide (F.sgCtl_BPW.of v < 7) || groupBad v (s.reg (rg .sgMap i)) (s.reg (rg .swIctl i))
  | .sgMap => groupBad (s.reg (rg .sgCtl i)) v (s.reg (rg .swIctl i))
  | .sgGate => F.sgGate_MODE.of v = 3
  | .swIctl =>
    decide (5 < F.swIctl_OWNER.of v) || F.swIctl_PXCNT.of v = 0 || decide (8192 < F.swIctl_PXCNT.of v) ||
      groupBad (s.reg (rg .sgCtl i)) (s.reg (rg .sgMap i)) v || inletBad v (s.reg (rg .swWin i))
  | .swWin =>
    decide (16 < F.swWin_BPP.of v) || decide (64 < F.swWin_IDEPTH.of v) || inletBad (s.reg (rg .swIctl i)) v
  | .soCtl =>
    decide (5 < F.soCtl_OWNER.of v) || decide (24 < F.soCtl_VWIDTH.of v) || F.soCtl_NPL.of v = 0 ||
      decide (256 < F.soCtl_NPL.of v)
  | .soLim => F.soLim_MAXREC.of v = 0 || decide (8192 < F.soLim_MAXREC.of v)
  | .ringSize => decide (F.ringSize_SIZE.of v < 5) || decide (21 < F.ringSize_SIZE.of v)
  | .ringRptr =>
    decide (2 ^ s.getF (rg .ringSize i) F.ringSize_SIZE <
      (2 ^ 24 + s.getF (rg .ringWptr i) F.ringWptr_WPTR - F.ringRptr_RPTR.of v) % 2 ^ 24)
  | _ => false

/-! ### Marks and line numbers (R276 to R278) -/

/-- The status of a line in HIST (R286). -/
def State.putHist (s : State) (w n : Nat) (complete short long skew coll late : Bool) (fate : Nat) : State :=
  s.setReg (rg .swHist w (n % 4)) (BitVec.ofNat 32 (n % 2 ^ 23 + 2 ^ 23 * (b2n complete + 2 * b2n short + 4 * b2n long
    + 8 * b2n skew + 16 * b2n coll + 32 * b2n late + 64 * fate)))

/-- An overrun, an orphan, a missed line or a WOFF drop counts in OVRCNT (R284, R299), which raises source 664 + 4w. -/
def State.overrun (s : State) (w : Nat) : State :=
  s.setF (rg .swStat w) F.swStat_OVRCNT (satAdd (s.getF (rg .swStat w) F.swStat_OVRCNT) 1 65535)

/-- QUEUED shows the marks queued. -/
def State.showMarks (s : State) (w : Fin 8) : State := s.setF (rg .swLine w) F.swLine_QUEUED (s.inl w).marks.length

/-- WIN in effect: a write while EN is 1 waits for the next hand-over (R285). -/
def State.win (s : State) (w : Fin 8) : Word := ((s.inl w).win).getD (s.reg (rg .swWin w))

/-- Slots of the ring in effect. -/
def State.idepth (s : State) (w : Fin 8) : Nat := F.swWin_IDEPTH.of (s.win w)

/-- A write of SENSOR_W[w]_WIN (R285): with EN at 1 the value in effect stays until the next hand-over. -/
def State.winWrite (s : State) (w : Fin 8) (v : Word) : State :=
  let old := s.win w
  let on := s.flag (rg .swIctl w) F.swIctl_EN
  (s.modInl w fun i => { i with win := if on then some old else none }).writeDefault (rg .swWin w) v

/-- SLOT advances by one modulo IDEPTH (R278). -/
def State.nextSlot (s : State) (w : Fin 8) : Nat :=
  let d := s.idepth w
  if d = 0 then 0 else (s.getF (rg .swLine w) F.swLine_SLOT + 1) % d

/-- A line-start mark (R276): it takes NEXT and the slot; with two queued, the oldest becomes a missed line. -/
def State.mark (s : State) (w : Fin 8) : State :=
  let n := s.getF (rg .swLine w) F.swLine_NEXT
  let slot := s.getF (rg .swLine w) F.swLine_SLOT
  let next := s.nextSlot w
  let s := s.setF (rg .swLine w) F.swLine_NEXT (n + 1)
  let s := s.setF (rg .swLine w) F.swLine_SLOT next
  let s :=
    match (s.inl w).marks with
    | (m, _) :: rest =>
      if rest.isEmpty then s.modInl w fun x => { x with marks := x.marks ++ [(n, slot)] }
      else
        let s := (s.putHist w m false false false false false false 1).overrun w
        s.modInl w fun x => { x with marks := rest ++ [(n, slot)] }
    | [] => s.modInl w fun x => { x with marks := [(n, slot)] }
  s.showMarks w

/-- A write of SENSOR_W[w]_LINE: NEXT and SLOT first (R278), then the mark of MARK (DEDUCED, log entry 26). -/
def State.lineWrite (s : State) (w : Fin 8) (v : Word) : State :=
  let n := F.swLine_NEXT.of v
  let d := s.idepth w
  let s := s.setF (rg .swLine w) F.swLine_NEXT n
  let s := s.setF (rg .swLine w) F.swLine_SLOT (if d = 0 then 0 else n % d)
  if F.swLine_MARK.of v = 1 then s.mark w else s

/-! ### Lines (R271 to R275, R277, R282, R283) -/

/-- Words expected on each logical lane (R274). -/
def State.wordsPerLane (s : State) (h : Nat) : Nat := s.getF (rg .swIctl h) F.swIctl_PXCNT / s.groupLanes h

/-- Words that a lane has brought of the line in reception, oldest first. -/
def RxLane.line (x : RxLane) : List (BitVec 16) := x.cur.words.reverse

/-- The line in reception ends (R274): SHORT where a lane has brought fewer words than the count or the line is `cut` off,
LONG where a lane has brought more or its EOL has not come. -/
def State.lineEnd (s : State) (h : Fin 8) (cut : Bool) : State :=
  match (s.inl h).rx with
  | none => s
  | some l =>
    let n := s.wordsPerLane h
    let lanes := (s.mapped h).map fun m => (s.inl h).lanes[m]
    let short := cut || lanes.any fun x => decide (x.cur.words.length < n)
    let long := !short && lanes.any fun x => !x.cur.eol || decide (n < x.cur.words.length)
    s.modInl h fun x => { x with rx := none, ended := x.ended ++ [{ l with short, long, words := lanes.map RxLane.line }] }

/-- Does the group receive lines: enabled, locked and trained without a failure (R270, R272)? -/
def State.groupReady (s : State) (h : Nat) : Bool :=
  let st := rg .sgStat h
  s.flag (rg .sgCtl h) F.sgCtl_EN && s.flag st F.sgStat_LOCK && s.flag st F.sgStat_TDONE &&
    s.getF st F.sgStat_EYEFAIL = 0 && s.getF st F.sgStat_WORDFAIL = 0 && !s.flag st F.sgStat_SKEWFAIL

/-- The stream gate of group h (R275); `chan` gives the gate output of a porch channel. -/
def State.gateOpen (s : State) (h : Nat) (chan : Nat → Bool) : Bool :=
  match s.getF (rg .sgGate h) F.sgGate_MODE with
  | 1 => true
  | 2 => chan (s.getF (rg .sgGate h) F.sgGate_CH)
  | _ => false

/-- The gate output of a porch channel. -/
def State.porchGate (s : State) (n : Nat) : Bool := ((s.chans[n]?).getD {}).gate

/-! #### Words on a lane (R271, R273, R274) -/

/-- A word of a line: nothing of it is kept once its EOL has come. -/
def LaneLine.put (l : LaneLine) (w : BitVec 16) : LaneLine := if l.eol then l else { l with words := w :: l.words }

/-- An EOL: the three words before its code word belong to the preamble. -/
def LaneLine.close (l : LaneLine) : LaneLine := if l.eol then l else { words := l.words.drop 3, eol := true }

/-- Do the last three words and `w` make a preamble with code word `code`, all of `bpw` bits (R273)? -/
def preamble (bpw : Nat) (last : List (BitVec 16)) (w : BitVec 16) (code : Nat) : Bool :=
  (last.take 3).map (·.toNat) = [0, 0, 2 ^ bpw - 1] && w.toNat = code % 2 ^ bpw

/-- One word of a lane behind its deskew (R273): a SOL or an EOL preamble completes, or the word belongs to the line; a
preamble with another code word is four words like any others (DEDUCED, log entry 100). -/
def RxLane.word (x : RxLane) (bpw : Nat) (code : Word) (w : BitVec 16) : RxLane :=
  let y := { x with last := (w :: x.last).take 10 }
  if preamble bpw x.last w (F.sgCode_SOL.of code) then
    { y with
      sol := some (0, { eol := false })
      cur := if x.sol.isNone && !x.cur.eol then { x.cur with words := x.cur.words.drop 3 } else x.cur }
  else if preamble bpw x.last w (F.sgCode_EOL.of code) then
    match x.sol with
    | some (k, l) => { y with sol := some (k + 1, l.close) }
    | none => { y with cur := x.cur.close }
  else
    match x.sol with
    | some (k, l) => { y with sol := some (k + 1, l.put w) }
    | none => { y with cur := x.cur.put w }

/-- One word arrives on a lane: it enters the deskew delay, and the oldest word of a full delay leaves it (R271). -/
def RxLane.arrive (x : RxLane) (bpw : Nat) (code : Word) (w : BitVec 16) : RxLane :=
  let q := BitVec.ofNat 16 (w.toNat % 2 ^ bpw) :: x.late
  if q.length ≤ x.delay then { x with late := q }
  else { x with late := q.dropLast }.word bpw code (q.getLastD 0)

/-- The new line begins on a lane whose SOL is complete. -/
def RxLane.begin (x : RxLane) : RxLane := { x with cur := (x.sol.getD (0, {})).2, sol := none }

/-- The deskew of a lane is set to the words that have come since its code word: they wait in the delay (R271). -/
def RxLane.deskew (x : RxLane) : RxLane :=
  let d := (x.sol.getD (0, {})).1
  { x with delay := d, late := x.last.take d, last := x.last.drop d, cur := { eol := false }, sol := none }

/-- `f` on the lanes that a logical lane maps to. -/
def State.modLanes (s : State) (h : Fin 8) (f : Fin 8 → RxLane → RxLane) : State :=
  let ms := s.mapped h
  s.modInl h fun i => { i with lanes := Vector.ofFn fun m => if ms.contains m then f m i.lanes[m] else i.lanes[m] }

/-- Words since each mapped lane's SOL code word. -/
def State.solAges (s : State) (h : Fin 8) : List Nat :=
  (s.mapped h).map fun m => (((s.inl h).lanes[m]).sol.getD (0, {})).1

/-- The first SOL after training sets the deskew of every lane, or SKEWFAIL (R271). -/
def State.align (s : State) (h : Fin 8) : State :=
  if (s.solAges h).any fun d => decide (7 < d) then s.setF (rg .sgStat h) F.sgStat_SKEWFAIL 1
  else
    let s := s.setF (rg .sgStat h) F.sgStat_ALIGNED 1
    let s := (s.mapped h).foldl (fun t m =>
      t.setF (rg .sgLane h m) F.sgLane_SKEW (((s.inl h).lanes[m]).sol.getD (0, {})).1) s
    s.modLanes h fun _ => RxLane.deskew

/-- Is line n not yet released for its slot (R282)? -/
def State.unreleased (s : State) (w : Fin 8) (n : Nat) : Bool :=
  let d := s.idepth w
  let k := (2 * 2 ^ 23 + s.getF (rg .swRel w) F.swRel_RELEASED + d - n) % 2 ^ 23
  s.flag (rg .swIctl w) F.swIctl_RELCHK && decide (2 ^ 22 ≤ k)

/-- A SOL accepted by the gate (R277): the oldest mark, the release test (R282), the corner-turn test (R283). -/
def State.takeLine (s : State) (w : Fin 8) (skew : Bool) : State :=
  match (s.inl w).marks with
  | [] =>
    let x := rg .swStat w
    (s.setF x F.swStat_ORPHAN (satAdd (s.getF x F.swStat_ORPHAN) 1 32767)).overrun w
  | (n, slot) :: rest =>
    let s := (s.modInl w fun x => { x with marks := rest }).showMarks w
    let late := s.unreleased w n
    let pol := s.flag (rg .swIctl w) F.swIctl_OVRPOL
    let s := if late then s.overrun w else s
    if 2 ≤ (s.inl w).ended.length + (s.inl w).writer.length then
      (if late then s else s.overrun w).putHist w n false false false skew false false 3
    else if late && !pol then s.putHist w n false false false skew false false 2
    else s.modInl w fun x => { x with rx := some { n, slot, late, skew } }

/-- The gate, the inlet's enable and the marks decide what becomes of the line of a SOL (R275, R277). At an inlet that is not
enabled the line goes unrecorded and the marks stay queued (DESIGN CHOICE, log entry 127). -/
def State.solAccept (s : State) (h : Fin 8) (skew : Bool) : State :=
  if !s.gateOpen h s.porchGate then
    s.setF (rg .sgStat h) F.sgStat_GATED (satAdd (s.getF (rg .sgStat h) F.sgStat_GATED) 1 4095)
  else if !s.flag (rg .swIctl h) F.swIctl_EN then s
  else s.takeLine h skew

/-- A SOL preamble is complete on every mapped lane (R271, R274): a line still in reception ends, the first SOL after training
sets the deskew, and a later one whose code words do not coincide marks its line SKEW. -/
def State.sol (s : State) (h : Fin 8) : State :=
  let s := s.lineEnd h false
  if s.flag (rg .sgStat h) F.sgStat_ALIGNED then
    let ages := s.solAges h
    (s.modLanes h fun _ => RxLane.begin).solAccept h (ages.any (· ≠ ages.headD 0))
  else
    let s := s.align h
    if s.flag (rg .sgStat h) F.sgStat_ALIGNED then s.solAccept h false else s

/-- One word time (R273, R274): every mapped lane takes its word; a SOL completes where every lane has had its own since the
last one (DEDUCED, log entry 100), and a line ends where every lane has had its EOL. -/
def State.rxWord (s : State) (h : Fin 8) (ws : LaneWords) : State :=
  if !s.groupReady h then s
  else
    let bpw := s.groupBpw h
    let code := s.reg (rg .sgCode h)
    let s := s.modLanes h fun m x => x.arrive bpw code ws[m]
    let s := if (s.mapped h).all fun m => ((s.inl h).lanes[m]).sol.isSome then s.sol h else s
    if (s.mapped h).all fun m => ((s.inl h).lanes[m]).cur.eol then s.lineEnd h false else s

/-- The words of a group, one word time after another. -/
def State.rxWords (s : State) (h : Fin 8) (ws : List LaneWords) : State := ws.foldl (fun s w => s.rxWord h w) s

/-- The group PLL loses lock (R272): the line in progress ends as SHORT. -/
def State.lockLoss (s : State) (h : Fin 8) : State :=
  let s := s.setF (rg .sgStat h) F.sgStat_LOCK 0
  let s := (s.setF (rg .sgStat h) F.sgStat_ALIGNED 0).lineEnd h true
  s.modInl h fun i => { i with lanes := Vector.replicate 8 {} }

/-! ### Training (R270) -/

/-- TRAINGO (R270): the training of the group begins; the deskew of the one before is gone. -/
def State.trainGo (s : State) (h : Fin 8) : State :=
  let x := rg .sgStat h
  let s := s.setReg x (s.reg x &&& 1)
  s.modInl h fun i => { i with training := true, lanes := i.lanes.map fun l => { cur := l.cur } }

/-- Error-free phases from phase p on; phase 63 is followed by phase 0 of the next bit (DESIGN CHOICE, log entry 101). -/
def runAt (clean : BitVec 64) (p : Nat) : Nat := ((List.range 64).takeWhile fun k => clean.getLsbD ((p + k) % 64)).length

/-- Width of the widest error-free run of phases (R270). -/
def eyeWidth (clean : BitVec 64) : Nat := ((List.range 64).map (runAt clean)).foldl Nat.max 0

/-- The phases that are the centre of a widest run: of a run of even width the two in its middle (log entry 101). -/
def eyeCentres (clean : BitVec 64) : List Nat :=
  let w := eyeWidth clean
  ((List.range 64).filter fun p => runAt clean p = w).flatMap fun p => [(p + (w - 1) / 2) % 64, (p + w / 2) % 64]

/-- The phase chosen on a lane: the centre of the widest run, a free choice among several; a lane without an error-free phase
keeps the one it had (log entry 101). -/
def State.phaseOf (s : State) (clean : BitVec 64) (old : Nat) : State × Nat :=
  let l := eyeCentres clean
  if eyeWidth clean = 0 then (s, old)
  else if l.all (· = l.headD 0) then (s, l.headD 0)
  else
    let t := s.fresh
    (t.2, (l[t.1.toNat % l.length]?).getD 0)

/-- The bit stage on one lane (R270, R298). -/
def State.bitStage (s : State) (h : Fin 8) (m : Fin 8) (clean : BitVec 64) : State :=
  let x := rg .sgLane h m
  let t := s.phaseOf clean (s.getF x F.sgLane_PHASE)
  (t.1.setF x F.sgLane_PHASE t.2).setF x F.sgLane_EYE (eyeWidth clean)

/-- Does the word stage find the training word on a lane within 64 × BPW slips (R270)? -/
def wordFound (bpw train : Nat) (seen : List (Option (BitVec 16))) : Bool :=
  (seen.take (64 * bpw + 1)).any fun w => w.any fun v => v.toNat % 2 ^ bpw = train % 2 ^ bpw

/-- Bits of the lanes in a list. -/
def laneBits (l : List (Fin 8)) : Nat := (l.eraseDups.map fun m => 2 ^ m.val).sum

/-- Training ends (R270): at the clock stage without lock, at the bit stage where a mapped lane's widest run is shorter than 8
phases, else after the word stage. -/
def State.trainEnd (s : State) (h : Fin 8) (lock : Bool) (clean : Vector (BitVec 64) 8)
    (seen : Vector (List (Option (BitVec 16))) 8) : State :=
  if !(s.inl h).training then s
  else
    let st := rg .sgStat h
    let s := s.modInl h fun i => { i with training := false }
    let s := s.setF st F.sgStat_LOCK (b2n lock)
    let s := s.setF st F.sgStat_TDONE 1
    if !lock then s
    else
      let ms := s.mapped h
      let s := ms.foldl (fun s m => s.bitStage h m clean[m]) s
      let fails := ms.filter fun m => decide (eyeWidth clean[m] < 8)
      let s := s.setF st F.sgStat_EYEFAIL (laneBits fails)
      if fails.isEmpty then
        s.setF st F.sgStat_WORDFAIL (laneBits (ms.filter fun m =>
          !wordFound (s.groupBpw h) (s.getF (rg .sgTrain h) F.sgTrain_TRAIN) seen[m]))
      else s

/-! ### Planes (R279 to R281, R283, R286) -/

/-- Pixel p of a line: its word, cut to the words' width (R268, R279); pixels not received are 0 (R274). -/
def linePixel (nl px bpw : Nat) (segmented : Bool) (words : List (List (BitVec 16))) (p : Nat) : Nat :=
  let per := px / nl
  let j := if segmented then p / per else p % nl
  let k := if segmented then p % per else p / nl
  let lane := (words[j]?).getD []
  if k < per then ((lane[k]?).getD 0).toNat % 2 ^ bpw else 0

/-- Bit b of every pixel of a line as a plane of the wing; columns from PXCNT on are 0 (R279). -/
def pixelPlane (px : List Nat) (b : Nat) : Plane :=
  BitVec.ofNat 8192 (px.foldr (fun v a => b2n (v.testBit b) + 2 * a) 0)

/-- One plane of a line written by the inlet (R34, R279): dropped and counted where it collides. -/
def State.inletPlane (s : State) (w p : Nat) (v : Plane) (collide : Bool) : State :=
  if collide then
    s.setF (rg .wingColcnt w) F.wingColcnt_COUNT (satAdd (s.getF (rg .wingColcnt w) F.wingColcnt_COUNT) 1 65535)
  else s.writePlane (w + 1) p (BitVec.allOnes 8192) v

/-- Hand-over of the oldest ended line (R280, R283): a waiting write of WIN takes effect and the line's planes are written
with it (R285);
`collide` marks the planes whose write met a micro-operation (R281). A slot left from a larger IDEPTH can lie past the last
plane: the address wraps (DESIGN CHOICE, log entry 51). -/
def State.handOver (s : State) (w : Fin 8) (collide : BitVec 16) : State :=
  match (s.inl w).ended with
  | [] => s
  | l :: rest =>
    let s := (s.modInl w fun x => { x with ended := rest, win := none }).wakeArray
    if !s.wingOn w || s.wingClearing w then
      (s.putHist w l.n false l.short l.long l.skew false false 4).overrun w
    else
      let win := s.reg (rg .swWin w)
      let n := s.getF (rg .swIctl w) F.swIctl_PXCNT
      let px := (List.range n).map (linePixel (s.groupLanes w) n (s.getF (rg .sgCtl w) F.sgCtl_BPW + 1)
        (s.flag (rg .sgCtl w) F.sgCtl_MAPMODE) l.words)
      let bpp := F.swWin_BPP.of win
      let s := forN bpp (fun j s =>
        s.inletPlane w ((F.swWin_IBASE.of win + l.slot * bpp + j) % 4096) (pixelPlane px (j + F.swWin_PSHIFT.of win))
          (collide.getLsbD j)) s
      let hit := (List.range bpp).any fun j => collide.getLsbD j
      s.modInl w fun x => { x with writer := x.writer ++ [({ l with words := [] }, hit)] }

/-- The writer has finished the planes of its oldest line (R280, R286). -/
def State.lineStatus (s : State) (w : Fin 8) : State :=
  match (s.inl w).writer with
  | [] => s
  | (l, hit) :: rest =>
    let s := s.modInl w fun x => { x with writer := rest }
    s.putHist w l.n (!l.short && !l.long) l.short l.long l.skew hit l.late 0

/-! ### Outlets (R288 to R294) -/

/-- The destination bytes of a job: its address and length. -/
def State.outDest (s : State) (w : Nat) : Nat × Nat :=
  let ctl := s.reg (rg .soCtl w)
  if F.soCtl_MODE.of ctl = 1 then ((s.reg (rg .soDst w)).toNat, 1024 * F.soCtl_NPL.of ctl)
  else
    let r := F.soCtl_RING.of ctl
    ((s.reg (rg .ringBase r)).toNat, 8 * 2 ^ s.getF (rg .ringSize r) F.ringSize_SIZE)

/-- Planes that a job reads (R289, R293). -/
def State.outPlanes (s : State) (w : Nat) : List Nat :=
  let ctl := s.reg (rg .soCtl w)
  let src := s.reg (rg .soSrc w)
  let at' (i : Nat) := F.soSrc_VBASE.of src + i * F.soSrc_VSTRIDE.of src
  if F.soCtl_MODE.of ctl = 1 then (List.range (F.soCtl_NPL.of ctl)).map at'
  else F.soSrc_FPLANE.of src :: (List.range (F.soCtl_VWIDTH.of ctl)).map at'

/-- The check of the configuration at start (R294). -/
def State.outCheck (s : State) (w : Nat) : Option Nat :=
  let d := s.outDest w
  let al := if s.getF (rg .soCtl w) F.soCtl_MODE = 1 then 32 else 256
  if regionOfRange d.1 d.2 ≠ some .cellar || d.1 % al ≠ 0 then some 1
  else if (s.outPlanes w).any fun p => decide (4063 < p) then some 4
  else if !s.wingOn w || s.wingClearing w then some 5
  else none

/-- A job has ended with an error or an abort: DONE, and with it source 664 + 4w + 2 (R294; DEDUCED, log entry 27). -/
def State.outEnd (s : State) (w err : Nat) : State :=
  let x := rg .soStat w
  let s := s.setF x F.soStat_STATE 0
  let s := s.setF x F.soStat_ERR err
  let s := s.setF x F.soStat_DONE 1
  { s with outJobs := s.outJobs.filter fun j => j.1 ≠ w }

/-- One record (R290). -/
def outRecord (w line value i : Nat) : BitVec 64 :=
  BitVec.ofNat 64 (8192 * w + i + 2 ^ 17 * line + 2 ^ 40 * value)

/-- Records of the flagged PEs of wing w in ascending order. -/
def State.outRecords (s : State) (w : Nat) : List (BitVec 64) :=
  let planes := s.outPlanes w
  let line := s.getF (rg .soLine w) F.soLine_LINE
  let flag := s.plane (w + 1) (planes.headD 0)
  let vals := planes.tail.map (s.plane (w + 1))
  ((List.range 8192).filter fun i => flag.getLsbD i).map fun i =>
    outRecord w line (vals.foldr (fun p a => b2n (p.getLsbD i) + 2 * a) 0) i

/-- START at an IDLE outlet owned by the writer (R288 to R290, R293). -/
def State.outBegin (s : State) (w : Nat) : State :=
  let x := rg .soStat w
  let s := s.wakeArray.setReg x (s.reg x &&& 0x3FFF000C)
  match s.outCheck w with
  | some e => s.outEnd w e
  | none =>
    let s := s.setF x F.soStat_STATE 1
    let planes := s.outPlanes w
    if s.getF (rg .soCtl w) F.soCtl_MODE = 1 then
      { s with outJobs := s.outJobs ++ [(w, .plane (s.reg (rg .soDst w)).toNat [] planes)] }
    else
      let s := planes.foldl (fun s p => s.checkPar (w + 1) p 1) s
      let recs := s.outRecords w
      let max := s.getF (rg .soLim w) F.soLim_MAXREC
      let s := s.setF x F.soStat_CAPT 1
      let s := s.setF x F.soStat_FCNT recs.length
      let s := s.setF x F.soStat_TRUNC (b2n (decide (max < recs.length)))
      { s with outJobs := s.outJobs ++ [(w, .compact (s.getF (rg .soCtl w) F.soCtl_RING) (recs.take max))] }

/-- A refused claim or write of inlet w (RES w) or outlet w (RES 8 + w) (R295). -/
def State.sensorRefuse (s : State) (res code : Nat) (launch : Bool) : State :=
  s.capture (rg .sensorClaim) F.sensorClaim_CLAIM_FAIL F.sensorClaim_MULTI fun w =>
    setBits (setBits (setBits w 0 5 res) 5 4 code) 9 1 (b2n launch)

/-- SENSOR_OSTART (R288): each wing of the mask, with ABORT prevailing. -/
def State.ostart (s : State) (r : Requester) (v : Word) : State :=
  let start := F.sensorOstart_START.of v = 1
  let abort := F.sensorOstart_ABORT.of v = 1
  if !(start || abort) then s
  else forN 8 (fun w s =>
    if !bit v w then s
    else if !owns r (s.getF (rg .soCtl w) F.soCtl_OWNER) then s.sensorRefuse (8 + w) (reqCode r) false
    else
      let active := s.flag (rg .soStat w) F.soStat_STATE
      if abort then (if active then s.outEnd w 6 else s)
      else if active then s.setF (rg .soStat w) F.soStat_OVR 1
      else s.outBegin w) s

/-- One record to ring r (R291): dropped when the ring is full; an error ends the job. The answer tells an error code. -/
def State.ringPut (s : State) (r : Nat) (rec : BitVec 64) : State × Option Nat :=
  let size := 2 ^ s.getF (rg .ringSize r) F.ringSize_SIZE
  let wp := s.getF (rg .ringWptr r) F.ringWptr_WPTR
  let rp := s.getF (rg .ringRptr r) F.ringRptr_RPTR
  if (2 ^ 24 + wp - rp) % 2 ^ 24 = size then
    let s := s.setF (rg .ringStat r) F.ringStat_DROP (satAdd (s.getF (rg .ringStat r) F.ringStat_DROP) 1 65535)
    (s.setF (rg .ringStat r) F.ringStat_FULL 1, none)
  else
    let a := (s.reg (rg .ringBase r)).toNat + 8 * (wp % size)
    if s.bankSt a = .on then
      let t := s.ramWrite 4 a (bytesLE 8 rec.toNat)
      if t.2 then (t.1.setF (rg .ringWptr r) F.ringWptr_WPTR (wp + 1), none) else (t.1, some 3)
    else (s, some 2)

/-- Writing the records of a job (R290 to R292): the rest of them, and an error. -/
def State.ringPutAll (s : State) (r : Nat) : List (BitVec 64) → State × Option Nat
  | [] => (s, none)
  | x :: l =>
    match s.ringPut r x with
    | (s, none) => s.ringPutAll r l
    | e => e

/-- The ring of a COMPACT job. -/
def OutKind.ring? : OutKind → Option Nat
  | .compact r _ => some r
  | .plane _ _ _ => none

/-- Has a job read and written everything? -/
def OutKind.over : OutKind → Bool
  | .compact _ recs => recs.isEmpty
  | .plane _ bytes planes => bytes.isEmpty && planes.isEmpty

/-- The bytes of a job's next burst: its address and length. -/
def State.outNext (s : State) : OutKind → Nat × Nat
  | .compact r _ =>
    let size := 2 ^ s.getF (rg .ringSize r) F.ringSize_SIZE
    ((s.reg (rg .ringBase r)).toNat + 8 * (s.getF (rg .ringWptr r) F.ringWptr_WPTR % size), 8)
  | .plane dst _ _ => (dst, 256 - dst % 256)

/-- The next plane of a PLANE job is read when the one before has been written (R293): error 5 where the wing is OFF or being
cleared (R294); CAPT with the last plane. -/
def State.planeRead (s : State) (w : Nat) (bytes : List Byte) (planes : List Nat) : State × Except Nat (List Byte × List Nat) :=
  if !bytes.isEmpty then (s, .ok (bytes, planes))
  else match planes with
    | [] => (s, .ok ([], []))
    | p :: rest =>
      if !s.wingOn w || s.wingClearing w then (s, .error 5)
      else
        let s := s.wakeArray.checkPar (w + 1) p 1
        let s := if rest.isEmpty then s.setF (rg .soStat w) F.soStat_CAPT 1 else s
        (s, .ok (bytesLE 1024 (s.plane (w + 1) p).toNat, rest))

/-- One burst of a job, to the next 256-byte boundary of the ring or of the planes' copy (R235, R291, R293, R294): what is left of
the job, or its error. -/
def State.outBurst (s : State) (w : Nat) : OutKind → State × Except Nat OutKind
  | .compact r recs =>
    let k := 32 - s.getF (rg .ringWptr r) F.ringWptr_WPTR % 32
    match s.ringPutAll r (recs.take k) with
    | (s, some e) => (s, .error e)
    | (s, none) => (s, .ok (.compact r (recs.drop k)))
  | .plane dst bytes planes =>
    match s.planeRead w bytes planes with
    | (s, .error e) => (s, .error e)
    | (s, .ok (bytes, planes)) =>
      let b := bytes.take (256 - dst % 256)
      if (s.bankSt dst).isDown then (s, .error 2)
      else
        let t := s.ramWrite 4 dst b
        if t.2 then (t.1, .ok (.plane (dst + b.length) (bytes.drop b.length) planes)) else (t.1, .error 3)

/-- Must the job of wing w wait: for an earlier job on its ring (R292), or for a waking bank (R242)? -/
def State.outWaits (s : State) (w : Nat) (k : OutKind) : Bool :=
  (k.ring?.isSome && (s.outJobs.takeWhile fun j => j.1 ≠ w).any fun j => j.2.ring? = k.ring?) ||
    (let (a, n) := s.outNext k
     (s.bankSt a).isWaking || (s.bankSt (a + n - 1)).isWaking)

/-- The next burst of the job of wing w, if it has one and need not wait. An error ends the job. -/
def State.outStep (s : State) (w : Nat) : State :=
  match s.outJobs.find? fun j => j.1 = w with
  | none => s
  | some (_, k) =>
    if k.over || s.outWaits w k then s
    else match s.outBurst w k with
      | (s, .error e) => s.outEnd w e
      | (s, .ok k') => { s with outJobs := s.outJobs.map fun j => if j.1 = w then (w, k') else j }

/-- Bursts that a job can still make, at most. -/
def OutKind.bursts : OutKind → Nat
  | .compact _ recs => recs.length
  | .plane _ bytes planes => bytes.length / 256 + 2 + 5 * planes.length

/-- The rest of a job's reads and writes is performed, and the job is done (R294); one that must wait goes on later. -/
def State.outDone (s : State) (w : Nat) : State :=
  match s.outJobs.find? fun j => j.1 = w with
  | none => s
  | some (_, k) =>
    let s := forN k.bursts (fun _ s => s.outStep w) s
    match s.outJobs.find? fun j => j.1 = w with
    | some (_, k) => if k.over then (s.setF (rg .soStat w) F.soStat_CAPT 1).outEnd w 0 else s
    | none => s

/-! ### Ownership and register accesses (R295) -/

/-- A write of an inlet's or outlet's OWNER register. -/
def State.sensorClaimWrite (s : State) (r : Requester) (x : Reg) (owner : Field) (res : Nat) (v : Word) : State :=
  match ownerRule r (s.getF x owner) (owner.of v) with
  | .claim | .keep => s.writeDefault x v
  | .release =>
    let s := if res ≥ 8 && s.flag (rg .soStat x.i) F.soStat_STATE then s.outEnd x.i 6 else s
    s.setF x owner 0
  | .nothing => s
  | .refuse => s.sensorRefuse res (reqCode r) false

/-- Is some outlet that names ring r active (R291): the ring is the one its job began with (R288)? -/
def State.ringBusy (s : State) (r : Nat) : Bool :=
  s.outJobs.any fun j => j.2.ring? = some r

/-- Writes of the block. -/
def State.sensorWrite (s : State) (r : Requester) (x : Reg) (v : Word) : State :=
  let w := Fin.ofNat 8 x.i
  let inletOwned (f : State → State) : State :=
    if owns r (s.getF (rg .swIctl x.i) F.swIctl_OWNER) then f s else s.sensorRefuse x.i (reqCode r) false
  let outletOwned (f : State → State) : State :=
    if owns r (s.getF (rg .soCtl x.i) F.soCtl_OWNER) then f s else s.sensorRefuse (8 + x.i) (reqCode r) false
  match x.fam with
  | .sgCtl => inletOwned fun s =>
    let s := s.writeDefault x v
    if F.sgCtl_TRAINGO.of v = 1 then s.trainGo w else s
  | .sgMap | .sgTrain | .sgCode | .sgGate | .sgStat | .sgLane | .swRel | .swHist =>
    inletOwned fun s => s.writeDefault x v
  | .swWin => inletOwned fun s => s.winWrite w v
  | .swIctl => s.sensorClaimWrite r x F.swIctl_OWNER x.i v
  | .swLine => inletOwned fun s => s.lineWrite w v
  | .swStat => inletOwned fun s =>
    if F.swStat_CLR.of v = 1 then
      (s.setF x F.swStat_OVRCNT 0).setF x F.swStat_ORPHAN 0
    else s
  | .soCtl => s.sensorClaimWrite r x F.soCtl_OWNER (8 + x.i) v
  | .soSrc | .soLine | .soDst | .soStat | .soLim => outletOwned fun s => s.writeDefault x v
  | .sensorOstart => s.ostart r v
  | .sensorHpres => if fromSeq r then s.writeDefault x v else s
  | .ringBase => if s.ringBusy x.i then s else s.setReg x (v &&& 0xFFFFFF00)
  | .ringSize => if s.ringBusy x.i then s else s.writeDefault x v
  | .ringStat =>
    let s := s.writeDefault x v
    if F.ringStat_CLR.of v = 1 then s.setF x F.ringStat_DROP 0 else s
  | _ => s.writeDefault x v

/-- A launch entry owned by `owner` marks inlet w (R295). -/
def State.markLaunch (s : State) (w : Fin 8) (owner code : Nat) : State :=
  if owner ≠ 0 && s.getF (rg .swIctl w) F.swIctl_OWNER = owner then s.mark w else s.sensorRefuse w code true

/-- A filtered HEADh_PRESENT_N change (R529). -/
def State.headChange (s : State) (h : Nat) (present : Bool) : State :=
  if bit (s.reg (rg .sensorHpres)) h = present then s
  else
    let x := rg .sensorHpres
    let w := setBits (s.reg x) h 1 (b2n present)
    s.setReg x (setBits w (8 + h) 1 1)

/-- The level behind the synchroniser of HEADh_PRESENT_N: the filter accepts it after FILT µs,
at once where FILT is 0 (R529). Without its supply, VIO12, the pin reads 0, which says present (R546). -/
def State.headLevel (s : State) (h : Nat) (present : HeldLevel) : State :=
  if present.ticks < 1000 * s.getF (rg .sensorHpres) F.sensorHpres_FILT then s
  else s.headChange h (present.level || s.supplyGone 11)

/-- Levels of sources 664 to 695 (R34, R51, R284, R294). -/
def State.sensorSource (s : State) (src : Nat) : Bool :=
  let w := (src - 664) / 4
  match (src - 664) % 4 with
  | 0 => s.getF (rg .swStat w) F.swStat_OVRCNT ≠ 0
  | 1 => s.getF (rg .wingColcnt w) F.wingColcnt_COUNT ≠ 0
  | 2 => s.flag (rg .soStat w) F.soStat_DONE
  | _ =>
    let halo (side : Nat) := s.flag (rg .arrayHaloStat) F.arrayHaloStat_HMULTI ||
      (s.flag (rg .arrayHaloStat) F.arrayHaloStat_HPERR && s.getF (rg .arrayHaloStat) F.arrayHaloStat_SIDE = side)
    s.flag (rg .wingPerr w) F.wingPerr_VALID || (w = 0 && halo 0) || (w = 7 && halo 1)

end Sys2Proof.Machine
end

