-- ==== Sys2Proof/Machine/Mantel.lean ====
section
/-! DEFINITION. The Mantel: count and alignment, launch entries, outputs, groups, encoders and line-clock generators
(13_mantel_and_launch.md R366 to R398). -/

namespace Sys2Proof.Machine

/-! ### The count (R366 to R371) -/

/-- The register pairs read under R368: MANTEL_CNT, the encoders' and generators' stamps, LINK_SYNC_RX and AT. -/
def pairOf (x : Reg) : Option Nat :=
  match x.fam with
  | .mantelCntlo | .mantelCnthi => some 0
  | .encTlo | .encThi => some (1 + x.i)
  | .lcLastlo | .lcLasthi => some (5 + x.i)
  | .linkSyncRxlo | .linkSyncRxhi => some 9
  | .linkSyncAtlo | .linkSyncAthi => some 10
  | _ => none

/-- The two words of a pair as they stand. -/
def State.pairWords (s : State) (pair : Nat) : Word × Word :=
  if pair = 0 then (s.count.setWidth 32, (s.count >>> 32).setWidth 32)
  else if pair < 5 then (s.reg (rg .encTlo (pair - 1)), s.reg (rg .encThi (pair - 1)))
  else if pair < 9 then (s.reg (rg .lcLastlo (pair - 5)), s.reg (rg .lcLasthi (pair - 5)))
  else if pair = 9 then (s.reg (rg .linkSyncRxlo), s.reg (rg .linkSyncRxhi))
  else (s.reg (rg .linkSyncAtlo), s.reg (rg .linkSyncAthi))

/-- What the high word kept for a class reads as before any read of the low word. -/
def shadowDefault (_ : Nat) : Word := 0

/-- A read of a low word keeps the high word of the same value for the requester's class (R368). -/
def State.readLow (s : State) (r : Requester) (pair : Nat) : State × Word :=
  let w := s.pairWords pair
  ({ s with mantel := { s.mantel with
      shadow := sparseSet shadowDefault s.mantel.shadow (16 * reqCode r + pair) w.2 } }, w.1)

/-- A read of a high word returns the one kept (R368). -/
def State.readHigh (s : State) (r : Requester) (pair : Nat) : Word :=
  sparseGet shadowDefault s.mantel.shadow (16 * reqCode r + pair)

/-- ERR is formed or moves; ALIGNED, ALGN and LOST follow (R369, R371). -/
def State.setErr (s : State) (err : Int) : State :=
  let x := rg .mantelSync
  let cut : Int := if err < -32768 then -32768 else if 32767 < err then 32767 else err
  let s := s.setF x F.mantelSync_ERR (wordOfInt cut).toNat
  let inside := decide (cut.natAbs ≤ s.getF (rg .mantelSynccfg) F.mantelSynccfg_ALIMIT)
  if inside && !s.flag x F.mantelSync_ALIGNED then
    (s.setF x F.mantelSync_ALIGNED 1).setF x F.mantelSync_ALGN 1
  else if !inside && s.flag x F.mantelSync_ALIGNED then
    (s.setF x F.mantelSync_ALIGNED 0).setF x F.mantelSync_LOST 1
  else s

/-- ERR as a signed number of 1/16 tick. -/
def State.errVal (s : State) : Int := sext 16 (s.getF (rg .mantelSync) F.mantelSync_ERR)

/-- Is this device a follower? -/
def State.follower (s : State) : Bool := s.getF (rg .mantelCtl) F.mantelCtl_ROLE = 2

/-- No SYNC frame for SYNCTMO µs (R371). -/
def State.syncTimeout (s : State) : State :=
  let tmo := s.getF (rg .mantelSynccfg) F.mantelSynccfg_SYNCTMO
  match s.mantel.syncAt with
  | some t =>
    if s.follower && tmo ≠ 0 && t + usTicks tmo < s.ns then
      { s.setF (rg .mantelSync) F.mantelSync_TMO 1 with mantel := { s.mantel with syncAt := none } }
    else s
  | none => s

/-! ### Outputs (R379, R380) -/

/-- The level an entry gives output k. -/
def State.setLevel (s : State) (k : Nat) (v : Bool) : State := s.setF (rg .outCtl k) F.outCtl_LEVEL (b2n v)

/-- The level at the pin: LEVEL xor POL outside reset and the safe state, low in them (R380, R463). -/
def State.outPin (s : State) (k : Nat) : Bool :=
  !s.safe && s.power.warm.isNone && !s.power.por && (s.flag (rg .outCtl k) F.outCtl_LEVEL != s.flag (rg .outCtl k) F.outCtl_POL)

/-- A LEVEL or PULSE firing replaces an earlier pulse of the output (R379). -/
def State.dropPulse (s : State) (k : Nat) : State :=
  { s with mantel := { s.mantel with pulses := s.mantel.pulses.filter fun p => p.1 ≠ k } }

/-- Every pulse ends with its output inactive (R370, R376). -/
def State.endPulses (s : State) : State :=
  let s' := s.mantel.pulses.foldl (fun s p => s.setLevel p.1 false) s
  { s' with mantel := { s'.mantel with pulses := [] } }

/-! ### Arming (R372 to R376) -/

/-- The armed part of entry i. -/
def State.armedOf (s : State) (i : Fin 256) : Option Armed := s.mantel.armed[i]

def State.setArmed (s : State) (i : Fin 256) (a : Option Armed) : State :=
  let s := { s with mantel := { s.mantel with armed := s.mantel.armed.set i a } }
  s.setF (rg .leCtl i) F.leCtl_ARMED (b2n a.isSome)

/-- LEN (R376). -/
def State.len (s : State) : Bool := s.flag (rg .mantelCtl) F.mantelCtl_LEN

/-- `n` late firings in a group's status (R374). -/
def State.lateFirings (s : State) (g n : Nat) : State :=
  let x := rg .grpStat g
  (s.setF x F.grpStat_LATE 1).setF x F.grpStat_LATECNT (satAdd (s.getF x F.grpStat_LATECNT) n 255)

/-- The late test of an armed entry (R374): a late entry that fires is due at the TCLK edge after this test. A firing already
late is not counted again (log entry 49). -/
def State.lateTest (s : State) (i : Fin 256) : State :=
  match s.armedOf i with
  | none => s
  | some a =>
    let now := s.count.toNat
    if now < a.tick then s
    else if a.latePol then
      (if a.late.isSome then s else s.lateFirings a.group 1).setArmed i (some { a with late := some s.ns })
    else if a.period = 0 then (s.lateFirings a.group 1).setArmed i none
    else
      let n := (now - a.tick) / a.period + 1
      if a.reps ≠ 0 && a.reps ≤ a.fired + n then (s.lateFirings a.group (a.reps - a.fired)).setArmed i none
      else (s.lateFirings a.group n).setArmed i (some { a with tick := a.tick + n * a.period, fired := a.fired + n })

/-- Entry i is armed at a tick with the settings its registers hold (R372, R398), and tested (R374). -/
def State.arm (s : State) (i : Fin 256) (tick : Nat) : State :=
  let c := s.reg (rg .leCtl i)
  let p := s.reg (rg .lePer i)
  let a : Armed :=
    { tick, action := F.leCtl_ACTION.of c, arg := s.reg (rg .leArg i), group := F.leCtl_GROUP.of c
      latePol := F.leCtl_LATEPOL.of c = 1, irq := F.leCtl_IRQ.of c = 1
      period := F.lePer_PERIOD.of p, reps := F.lePer_REPS.of p }
  (s.setArmed i (some a)).lateTest i

/-- THI:TLO of an entry. -/
def State.absTick (s : State) (i : Fin 256) : Nat := (s.reg (rg .leTlo i)).toNat + 2 ^ 32 * (s.reg (rg .leThi i)).toNat

/-- A write of ARM: nothing in LINE mode (R372). -/
def State.armWrite (s : State) (i : Fin 256) : State :=
  if s.getF (rg .leCtl i) F.leCtl_MODE = 0 then s.arm i (s.absTick i) else s

/-- Every entry of a list disarmed. -/
def State.disarmAll (s : State) (p : Fin 256 → Bool) : State :=
  (List.finRange 256).foldl (fun s i => if p i && (s.armedOf i).isSome then s.setArmed i none else s) s

/-- LEN changes from 0 to 1: every armed entry is tested (R374). -/
def State.lenRise (s : State) : State :=
  (List.finRange 256).foldl (fun s i => s.lateTest i) s

/-! ### Line events (R382, R383) -/

/-- A line event of group g with event tick `t`. -/
def State.groupLine (s : State) (g t : Nat) : State :=
  let x := rg .grpStat g
  let s := s.setF x F.grpStat_LINES (s.getF x F.grpStat_LINES + 1)
  if !s.len then s
  else
    let owner := s.getF (rg .grpCtl g) F.grpCtl_OWNER
    let line := t + s.getF (rg .grpSlo g) F.grpSlo_SLO
    (List.finRange 256).foldl (fun (s : State) (i : Fin 256) =>
      let c := s.reg (rg .leCtl i)
      if F.leCtl_MODE.of c = 1 && F.leCtl_GROUP.of c = g && owner ≠ 0 && F.leCtl_OWNER.of c = owner then
        if (s.armedOf i).isSome then s.setF x F.grpStat_DROPPED 1
        else s.arm i ((line + (s.reg (rg .leTlo i)).toNat) % 2 ^ 64)
      else s) s

/-- A USER EVENT arms the groups whose CODE matches (R382, R383). -/
def State.lineEventIn (s : State) (code : Nat) (payload : Word) : State :=
  let now := s.count.toNat
  let t := (now + 2 ^ 64 - (now % 2 ^ 32 + 2 ^ 32 - payload.toNat) % 2 ^ 32) % 2 ^ 64
  forN 8 (fun g s =>
    if s.getF (rg .grpCtl g) F.grpCtl_SRC = 2 && s.getF (rg .grpCtl g) F.grpCtl_CODE = code then s.groupLine g t else s) s

/-- Is a line event at this moment less than MINPER ticks after the previous one (R391)? The ticks are those that have passed: a
step of the count between the two does not matter (DEDUCED, log entry 105). -/
def State.lineTooSoon (s : State) (e : Fin 4) : Bool :=
  match s.mantel.lineAt[e] with
  | some p => decide (s.ns < p + s.getF (rg .lcMinper e) F.lcMinper_MINPER)
  | none => false

/-- Line-clock generator e makes a line event at tick `t` (R391). -/
def State.lineEvent (s : State) (e : Fin 4) (t : Nat) : State :=
  let st := rg .lcStat e
  if s.lineTooSoon e then
    (s.setF st F.lcStat_SKIP 1).setF st F.lcStat_SKIPCNT (satAdd (s.getF st F.lcStat_SKIPCNT) 1 255)
  else
    let s := { s with mantel := { s.mantel with lineAt := s.mantel.lineAt.set e (some s.ns) } }
    let s := s.setReg (rg .lcLastlo e) (BitVec.ofNat 32 t)
    let s := s.setReg (rg .lcLasthi e) (BitVec.ofNat 32 (t / 2 ^ 32))
    let s := s.setF st F.lcStat_LINES (s.getF st F.lcStat_LINES + 1)
    let s := forN 8 (fun g s =>
      if s.getF (rg .grpCtl g) F.grpCtl_SRC = 1 && s.getF (rg .grpCtl g) F.grpCtl_LC = e.val then s.groupLine g t else s) s
    if s.flag (rg .lcCtl e) F.lcCtl_EMIT then s.emitEvent (s.getF (rg .lcCtl e) F.lcCtl_CODE) (t % 2 ^ 32) else s

/-! ### Firing (R373, R377 to R380) -/

/-- SYS_REGERR.SRC code of an owner (R13, R249). -/
def ownerSrc (owner : Nat) : Nat := owner - 1

/-- A refused claim, write or firing of the Mantel (R380, R381). -/
def State.mantelRefuse (s : State) (res code : Nat) (launch : Bool) (entry : Nat) : State :=
  s.capture (rg .mantelClaim) F.mantelClaim_CLAIM_FAIL F.mantelClaim_MULTI fun w =>
    setBits (setBits (setBits (setBits w 0 9 res) 9 4 code) 13 1 (b2n launch)) 14 8 entry

/-- Do a firing at tick `t` and a pulse's end at tick `u` fall at one TCLK edge (R379)? The last edge took in every tick above the
count before it: one that slewing skips, and up to 40 of the Lodge's carry (R369, R373, R467). -/
def State.oneEdge (s : State) (t u : Nat) : Bool :=
  let last (v : Nat) : Bool := decide (s.mantel.edge < v) && decide (v ≤ s.count.toNat)
  t = u || (last t && last u)

/-- A LEVEL or PULSE firing of entry i on output k at `tick`: the flag tells whether it was refused (R380). Where a pulse of a
higher-numbered entry ends at this edge, its trailing edge comes after and leaves the output inactive (R379). -/
def State.fireOut (s : State) (i : Fin 256) (owner k tick : Nat) (level : Bool) (till : Option Nat) : State × Bool :=
  if owner ≠ 0 && s.getF (rg .outCtl k) F.outCtl_OWNER = owner then
    let after := s.mantel.pulses.any fun p => p.1 = k && s.oneEdge tick p.2.2 && decide (i.val < p.2.1)
    let s := (s.dropPulse k).setLevel k (level && !after)
    (match till with
      | some t => { s with mantel := { s.mantel with pulses := s.mantel.pulses ++ [(k, i.val, t)] } }
      | none => s, false)
  else (s.mantelRefuse (0x100 + k) (ownerSrc owner) true i, true)

/-- A porch start of a sync group by an entry of `owner` (R326, R327); it is refused where a channel of the group has another
owner, or where a channel's pin claim was refused (R380). -/
def State.firePorch (s : State) (owner group : Nat) : State × Bool :=
  let named (n : Fin 512) : Bool := s.chF n F.chCtl_SGRP = group && s.chF n F.chCtl_OWNER ≠ 0
  let t := s.porchSyncBy (if owner = 0 then none else some owner) (ownerSrc owner) true true (2 ^ group)
  (t, (List.finRange 512).any fun n => named n && (s.chF n F.chCtl_OWNER ≠ owner || !t.chEn n))

/-- The effect of an action at its firing, with the fired tick and the width of a pulse; the flag tells whether it was refused
(R377, R380). -/
def State.fireAction (s : State) (i : Fin 256) (owner tick width : Nat) (a : Armed) : State × Bool :=
  let arg := a.arg
  let code := ownerSrc owner
  match a.action with
  | 1 => s.fireOut i owner (bits arg 0 4) tick (bit arg 4) none
  | 2 => s.fireOut i owner (bits arg 0 4) tick true (some (tick + width))
  | 3 =>
    let n := Fin.ofNat 512 (bits arg 0 9)
    let k := bits arg 9 5
    (s.porchEdge n k (bit arg 14) owner code,
      s.pinCnt n ≤ k || !s.pinOfChan (s.pinBase n + k) n || owner = 0 || s.chF n F.chCtl_OWNER ≠ owner)
  | 4 => s.firePorch owner (bits arg 0 4)
  | 5 => (s.modSeq (Fin.ofNat 4 (bits arg 0 2)) fun q => { q with ev := q.ev ||| (1#32 <<< bits arg 2 5) }, false)
  | 6 =>
    (forN 8 (fun w s => if bit arg w then s.markLaunch (Fin.ofNat 8 w) owner code else s) s,
      (List.range 8).any fun w => bit arg w && (owner = 0 || s.getF (rg .swIctl w) F.swIctl_OWNER ≠ owner))
  | 7 =>
    let c := Fin.ofNat 48 (bits arg 0 6)
    (s.dmaLaunch c owner code, owner = 0 || s.getF (rg .dmaCtl c) F.dmaCtl_OWNER ≠ owner)
  | 8 => (s.emitEvent (bits arg 0 16) (tick % 2 ^ 32), false)
  | _ => (s, false)

/-- Is entry i due (R373)? A late one is due from the edge after its late test (R374). While the count is carried only LEVEL and PULSE entries fire; every other action is lost
(R467). -/
def State.due (s : State) (i : Fin 256) : Bool :=
  match s.armedOf i with
  | some a => s.len && decide (a.tick ≤ s.count.toNat) && a.late.all fun t => decide (t < s.ns)
  | none => false

/-- What stays armed after a firing (R373, R374). -/
def State.rearm (s : State) (i : Fin 256) (a : Armed) : State :=
  let n := a.fired + 1
  if a.period = 0 || (a.reps ≠ 0 && a.reps ≤ n) then s.setArmed i none
  else
    let s := s.setArmed i (some { a with tick := a.tick + a.period, fired := n, late := none })
    if a.late.isSome then s.lateTest i else s

/-- Entry i fires (R373, R377 to R380, R385, R426). Entries due at one edge fire in ascending order (R379), so a lower one
that is due comes first. -/
def State.launchFire (s : State) (i : Fin 256) : State :=
  match s.armedOf i with
  | none => s
  | some a =>
    if !s.due i || (List.finRange 256).any (fun j => decide (j < i) && s.due j) then s
    else
      let owner := s.getF (rg .leCtl i) F.leCtl_OWNER
      let tick := if a.late.isSome then s.count.toNat else a.tick
      let carried := !s.hlock
      let w := bits a.arg 16 16
      let width := if carried then (w + 39) / 40 * 40 else w
      let t := if carried && a.action ≠ 1 && a.action ≠ 2 then (s, false) else s.fireAction i owner tick width a
      let u := if carried then (t.1, false) else t.1.seamAuto i owner
      let x := rg .grpStat a.group
      let s := u.1
      let s := if t.2 || u.2 then s.setF x F.grpStat_REFUSED 1 else s
      let s := if a.irq then s.setF x F.grpStat_FIRED 1 else s
      s.rearm i a

/-- A pulse's trailing edge (R379): made by the pulse's own entry, so a lower entry that is due comes first. -/
def State.pulseEnd (s : State) (k : Nat) : State :=
  match s.mantel.pulses.find? fun p => p.1 = k with
  | some (_, i, t) =>
    if t ≤ s.count.toNat && !(List.finRange 256).any (fun j => decide (j.val < i) && s.due j) then
      (s.setLevel k false).dropPulse k
    else s
  | none => s

/-- Every due entry up to `i` fires, in ascending order (R379). -/
def State.fireUpTo (s : State) (i : Fin 256) : State :=
  (List.finRange 256).foldl (fun s j => if j ≤ i && s.due j then s.launchFire j else s) s

/-! ### Steps and resets (R370, R376) -/

/-- A step at its TCLK edge: the count is set to STEPHI:STEPLO (R370). -/
def State.stepCount (s : State) : State :=
  let s := (s.disarmAll fun _ => true).endPulses
  let v := (s.reg (rg .mantelSteplo)).toNat + 2 ^ 32 * (s.reg (rg .mantelStephi)).toNat
  { s.setF (rg .mantelSync) F.mantelSync_STEPD 1 with
    count := BitVec.ofNat 64 v, mantel := { s.mantel with stepDue := false } }

/-- One TCLK of the count (R366, R369, R370): a step that waits is made; a follower with |ERR| above 8 repeats or skips one
value, at most once in 1,024. -/
def State.countTick (s : State) : State :=
  let e := s.errVal
  if s.mantel.stepDue then s.stepCount
  else if s.follower && s.mantel.syncAt.isSome && 8 < e.natAbs && s.mantel.slewAt + 1024 ≤ s.ns then
    let s := { s with mantel := { s.mantel with slewAt := s.ns } }
    if 0 < e then s.setErr (e - 16)
    else { s.setErr (e + 16) with count := s.count + 2 }
  else { s with count := s.count + 1 }

/-- A write of MANTEL_CTL by a sequencer (R370, R374, R376, R394). A step takes place at the next TCLK edge. -/
def State.mantelCtlWrite (s : State) (v : Word) : State :=
  let x := rg .mantelCtl
  let rise := !s.len && F.mantelCtl_LEN.of v = 1
  let follow := !s.follower && F.mantelCtl_ROLE.of v = 2
  let s := s.writeDefault x v
  let s := if follow then { s with mantel := { s.mantel with syncAt := some s.ns } } else s
  let s := if F.mantelCtl_STEP.of v = 1 then { s with mantel := { s.mantel with stepDue := true } } else s
  if rise then s.lenRise else s

/-- R376: what resets that clear the sequencers, and entry to DEEP, do. -/
def State.mantelReset (s : State) : State :=
  let s := (s.disarmAll fun _ => true).endPulses
  let s := s.setF (rg .mantelCtl) F.mantelCtl_LEN 0
  let s := s.resetRegs ([rg .mantelSteplo, rg .mantelStephi, rg .mantelSync, rg .mantelClaim] ++
    Fam.encCtl.members ++ Fam.encTlo.members ++ Fam.encThi.members ++ Fam.encStat.members ++ Fam.lcCtl.members ++
    Fam.lcRatio.members ++ Fam.lcMinper.members ++ Fam.lcLastlo.members ++ Fam.lcLasthi.members ++ Fam.lcStat.members ++
    Fam.grpCtl.members ++ Fam.grpSlo.members ++ Fam.grpStat.members ++ Fam.outCtl.members)
  let s := { s with regs := s.regs.filter fun e => !(decide (0x210000 ≤ e.1) && decide (e.1 < 0x212000)) }
  { s with mantel := { s.mantel with
      lc := Vector.replicate 4 {}, edgeAt := Vector.replicate 4 none, lineAt := Vector.replicate 4 none
      syncAt := if s.follower then some s.ns else none
      stepDue := false
      shadow := s.mantel.shadow.filter fun e => decide (9 ≤ e.1 % 16) } }

/-- What the Lodge's safe state does to the Mantel (R376, R462). No output shows a level set before it when it is released, so
every LEVEL is left inactive, not only those of the pulses (DEDUCED, log entry 104). -/
def State.mantelSafe (s : State) : State :=
  forN 16 (fun k s => s.setLevel k false) (s.setF (rg .mantelCtl) F.mantelCtl_LEN 0).endPulses

/-! ### Encoders and line clocks (R386 to R391) -/

def State.lineGen (s : State) (e : Fin 4) : LineGen := s.mantel.lc[e]

def State.modLine (s : State) (e : Fin 4) (f : LineGen → LineGen) : State :=
  { s with mantel := { s.mantel with lc := s.mantel.lc.set e (f (s.mantel.lc[e])) } }

/-- The accumulator after a counted edge (R389). -/
def lineAcc (dir : Nat) (up : Bool) (acc : Int) : Int :=
  let step : Int := if dir = 0 then (if up then 1 else -1) else if dir = 1 then (if up then -1 else 1) else 1
  let v := acc + step * 65536
  if v < -2147483648 then -2147483648 else if 2147483647 < v then 2147483647 else v

/-- RATIO of generator e. -/
def State.lcRatio (s : State) (e : Fin 4) : Int := (s.reg (rg .lcRatio e)).toNat

/-- Spacing of predicted events: RATIO / 65,536 mean edge spacings, in 1/65,536 tick (R390). -/
def State.linePeriod (s : State) (e : Fin 4) : Int := s.lcRatio e * (s.lineGen e).mean / 65536

/-- 16 consecutive events near the raw schedule lock the smoothed generator (R390). -/
def State.lineNear (s : State) (e : Fin 4) (near : Bool) : State :=
  let n := if near then Nat.min 16 ((s.lineGen e).near + 1) else 0
  let s := s.modLine e fun l => { l with near := n }
  if n = 16 && !s.flag (rg .lcStat e) F.lcStat_LOCKED then
    (s.setF (rg .lcStat e) F.lcStat_LOCKED 1).modLine e fun l => { l with raw := false }
  else s

/-- The smoothed generator stops emitting, clears LOCKED, and resumes in raw mode until it locks again (R390). -/
def State.lineStop (s : State) (e : Fin 4) : State :=
  (s.setF (rg .lcStat e) F.lcStat_LOCKED 0).modLine e fun l => { acc := l.acc, raw := true }

/-- Does generator e run in smoothed mode, and not on the raw schedule? -/
def State.smoothing (s : State) (e : Fin 4) : Bool :=
  s.flag (rg .lcCtl e) F.lcCtl_EN && s.flag (rg .lcCtl e) F.lcCtl_SMOOTH && !(s.lineGen e).raw

/-- No counted edge has arrived for four mean spacings (R390). -/
def State.lineStall (s : State) (e : Fin 4) : State :=
  let l := s.lineGen e
  match l.edge with
  | some t => if s.smoothing e && l.mean ≠ 0 && 65536 * t + 4 * l.mean ≤ 65536 * s.ns then s.lineStop e else s
  | none => s

/-- The estimate of the mean edge spacing follows a new spacing: how is free between the two (R390, log entry 33). -/
def meanAfter (old new : Nat) : Nat :=
  if old = 0 then new else Nat.max (Nat.min old new) (Nat.min (Config.edgeMean old new) (Nat.max old new))

/-- The edge spacing seen by a smoothed generator at a counted edge. -/
def State.edgeSpacing (s : State) (e : Fin 4) : State :=
  let now := s.ns
  s.modLine e fun l =>
    { l with edge := some now, mean := match l.edge with | some t => meanAfter l.mean (65536 * (now - t)) | none => l.mean }

/-- The first prediction follows an event on the raw schedule, once there is a mean (DESIGN CHOICE, log entry 33). -/
def State.linePredict (s : State) (e : Fin 4) : State :=
  let p := s.linePeriod e
  if (s.lineGen e).raw || (s.lineGen e).mean = 0 then s
  else s.modLine e fun l => { l with next := some (65536 * (s.ns : Int) + p) }

/-- A counted edge at generator e (R389, R390). A smoothed generator without a prediction makes its events on the raw
schedule. -/
def State.lineEdge (s : State) (e : Fin 4) (up turned : Bool) (t : Nat) : State :=
  let c := s.reg (rg .lcCtl e)
  if F.lcCtl_EN.of c = 0 then s
  else
    let smooth := F.lcCtl_SMOOTH.of c = 1
    let s := if smooth && turned && decide (F.lcCtl_DIR.of c < 2) && !(s.lineGen e).raw then s.lineStop e else s
    let s := if smooth then s.edgeSpacing e else s
    let acc := lineAcc (F.lcCtl_DIR.of c) up (s.lineGen e).acc
    let ratio := s.lcRatio e
    if (!smooth || (s.lineGen e).next.isNone) && decide (ratio ≤ acc) then
      let s := (s.modLine e fun l => { l with acc := acc - ratio }).lineEvent e t
      if smooth then (s.lineNear e true).linePredict e else s
    else s.modLine e fun l => { l with acc := acc }

/-- How far the present moment is past the raw schedule, in 1/65,536 tick (R390): the accumulator, with the part of an edge
spacing since the last edge, against RATIO (log entry 33). -/
def State.lineError (s : State) (e : Fin 4) : Int :=
  let l := s.lineGen e
  (l.acc - s.lcRatio e) * l.mean / 65536 + 65536 * ((s.ns : Int) - (l.edge.getD s.ns : Nat))

/-- SMOOTHED_LINE_EVENT at the predicted tick (R390): the next prediction stands one period later, corrected by 2^-GAIN of the
error; whether a fraction in the correction is rounded up is an operand (log entry 33). -/
def State.smoothedEvent (s : State) (e : Fin 4) (up : Bool) : State :=
  match (s.lineGen e).next with
  | none => s
  | some p =>
    if !s.smoothing e || decide (65536 * (s.ns : Int) < p) then s
    else
      let err := s.lineError e
      let mean : Int := (s.lineGen e).mean
      let unit : Int := 2 ^ s.getF (rg .lcCtl e) F.lcCtl_GAIN
      let next := p + s.linePeriod e - (if up && err % unit ≠ 0 then err / unit + 1 else err / unit)
      let s := s.modLine e fun l => { l with acc := l.acc - s.lcRatio e, next := some next }
      (s.lineEvent e s.count.toNat).lineNear e (decide (-mean ≤ err) && decide (err ≤ mean))

/-- A write of LC_CTL: a generator that stops or leaves smoothed mode keeps its accumulator alone. -/
def State.lcCtlWrite (s : State) (e : Fin 4) (v : Word) : State :=
  let s := s.writeDefault (rg .lcCtl e) v
  if F.lcCtl_EN.of v = 1 && F.lcCtl_SMOOTH.of v = 1 then s else s.modLine e fun l => { acc := l.acc }

/-- Place of the levels (A, B) in the Gray sequence that moves POS up (R387; which way is up: log entry 34). -/
def grayPos (a b : Bool) : Nat := if a then (if b then 2 else 1) else (if b then 3 else 0)

/-- One counted edge (R387). The 20 ticks of the rated rate are ticks that have passed (log entry 105). -/
def State.countEdge (s : State) (e : Fin 4) (up : Bool) : State :=
  let st := rg .encStat e
  let t := s.count.toNat
  let turned := s.flag st F.encStat_DIR = up
  let x := rg .encPos e
  let s := s.setReg x (if up then s.reg x + 1 else s.reg x - 1)
  let s := s.setF st F.encStat_DIR (b2n !up)
  let s := match s.mantel.edgeAt[e] with
    | some p => if s.ns < p + 20 then s.setF st F.encStat_OVS 1 else s
    | none => s
  let s := s.setReg (rg .encTlo e) (BitVec.ofNat 32 t)
  let s := s.setReg (rg .encThi e) (BitVec.ofNat 32 (t / 2 ^ 32))
  let s := { s with mantel := { s.mantel with edgeAt := s.mantel.edgeAt.set e (some s.ns) } }
  s.lineEdge e up turned t

/-- What the synchroniser and the glitch filter make of an input (R386): the samples are newest first, the two newest stand in
the synchroniser, and a level is accepted once it has held for FILT ticks behind it. -/
def filtered (filt : Nat) (samples : List Bool) (old : Bool) : Bool :=
  let l := (samples.drop 2).take (filt + 1)
  if l.length = filt + 1 && l.all (· = l.headD old) then l.headD old else old

/-- Levels at the pads of the encoder receivers: without their supply, VIO12, they read 0 (R546). -/
def State.atPads (s : State) (levels : List Bool) : List Bool := if s.supplyGone 11 then levels.map fun _ => false else levels

/-- FILT of encoder e. -/
def State.encFilt (s : State) (e : Fin 4) : Nat := s.getF (rg .encCtl e) F.encCtl_FILT

/-- The accepted levels of A and B at a TCLK edge (R386), and the counting of their changes (R387). -/
def State.encoderEdge (s : State) (e : Fin 4) (as bs : List Bool) : State :=
  let as := s.atPads as
  let bs := s.atPads bs
  let st := rg .encStat e
  let a0 := s.flag st F.encStat_A
  let b0 := s.flag st F.encStat_B
  let a := filtered (s.encFilt e) as a0
  let b := filtered (s.encFilt e) bs b0
  let s := (s.setF st F.encStat_A (b2n a)).setF st F.encStat_B (b2n b)
  match s.getF (rg .encCtl e) F.encCtl_MODE with
  | 0 =>
    if a0 ≠ a && b0 ≠ b then
      (s.setF st F.encStat_ILL 1).setF st F.encStat_ILLCNT (satAdd (s.getF st F.encStat_ILLCNT) 1 255)
    else if a0 = a && b0 = b then s
    else s.countEdge e (grayPos a b = (grayPos a0 b0 + 1) % 4)
  | 1 => if !a0 && a then s.countEdge e !b else s
  | 2 => if !a0 && a then s.countEdge e true else s
  | _ => s

/-- An accepted change of Z: a rising edge copies POS (R388). -/
def State.encoderZ (s : State) (e : Fin 4) (samples : List Bool) : State :=
  let samples := s.atPads samples
  let st := rg .encStat e
  let z := filtered (s.encFilt e) samples (s.flag st F.encStat_Z)
  let rise := !s.flag st F.encStat_Z && z
  let s := s.setF st F.encStat_Z (b2n z)
  if rise then
    let s := (s.setReg (rg .encZpos e) (s.reg (rg .encPos e))).setF st F.encStat_ZSEEN 1
    if s.flag (rg .encCtl e) F.encCtl_ZCLR then s.setReg (rg .encPos e) 0 else s
  else s

/-! ### Register accesses (R377, R381, R384, R394) -/

/-- Is ARG a reserved encoding for an ACTION (R377)? -/
def actionBad (action : Nat) (arg : Word) : Bool :=
  match action with
  | 2 => bit arg 4 || bits arg 9 7 ≠ 0 || bits arg 16 16 = 0
  | 7 => decide (47 < bits arg 0 6)
  | n => decide (8 < n)

/-- Reserved encodings, and the writes discarded in the same way (R370, R377). -/
def State.mantelReserved (s : State) (x : Reg) (r : Requester) (v : Word) : Bool :=
  match x.fam with
  | .mantelCtl => F.mantelCtl_ROLE.of v = 3 ||
      (fromSeq r && (F.mantelCtl_STEP.of v = 1 && F.mantelCtl_LEN.of v = 1))
  | .mantelSynccfg => F.mantelSynccfg_ALIMIT.of v = 0
  | .encCtl => decide (5 < F.encCtl_OWNER.of v) || F.encCtl_MODE.of v = 3
  | .lcCtl => F.lcCtl_DIR.of v = 3
  | .lcRatio => decide (v.toNat < 0x10000)
  | .grpCtl => decide (5 < F.grpCtl_OWNER.of v) || F.grpCtl_SRC.of v = 3
  | .outCtl => decide (5 < F.outCtl_OWNER.of v)
  | .leCtl => decide (5 < F.leCtl_OWNER.of v) || decide (1 < F.leCtl_MODE.of v) ||
      actionBad (F.leCtl_ACTION.of v) (s.reg (rg .leArg x.i))
  | .leArg => actionBad (s.getF (rg .leCtl x.i) F.leCtl_ACTION) v
  | _ => false

/-- Entry i is disarmed by DISARM or a release: its firing that is due at this edge takes place (R381, R398), and comes after
those of the lower entries (R379; for a release DEDUCED, log entry 131). -/
def State.disarmEntry (s : State) (i : Fin 256) (f : State → State) : State := (f (s.fireUpTo i)).setArmed i none

/-- A write of LE_CTL (R381, R398). -/
def State.entryWrite (s : State) (r : Requester) (i : Fin 256) (v : Word) : State :=
  let x := rg .leCtl i
  let other (s : State) : State :=
    if F.leCtl_DISARM.of v = 1 then s.disarmEntry i fun s => s.writeDefault x v
    else
      let s := s.writeDefault x v
      if F.leCtl_ARM.of v = 1 then s.armWrite i else s
  match ownerRule r (s.getF x F.leCtl_OWNER) (F.leCtl_OWNER.of v) with
  | .claim | .keep => other s
  | .release => (s.disarmEntry i id).setF x F.leCtl_OWNER 0
  | .nothing => s
  | .refuse => s.mantelRefuse i (reqCode r) false 0

/-- A write of the OWNER register of an output, group or encoder (R381). -/
def State.mantelClaimWrite (s : State) (r : Requester) (x : Reg) (owner : Field) (res : Nat) (v : Word) : State :=
  match ownerRule r (s.getF x owner) (owner.of v) with
  | .claim | .keep => s.writeDefault x v
  | .release => s.setF x owner 0
  | .nothing => s
  | .refuse => s.mantelRefuse res (reqCode r) false 0

/-- MANTEL_GSTOP (R384): an armed entry belongs to the group it was armed in (R398); the first group of another agent is captured. A
firing that is due is dropped (DEDUCED, log entry 131). -/
def State.gstop (s : State) (r : Requester) (v : Word) : State :=
  let mask := F.mantelGstop_GROUPS.of v
  let named (g : Nat) : Bool := mask.testBit g
  let owner (g : Nat) : Nat := s.getF (rg .grpCtl g) F.grpCtl_OWNER
  let s' := match (List.range 8).find? fun g => named g && owner g ≠ 0 && !owns r (owner g) with
    | some g => s.mantelRefuse (0x110 + g) (reqCode r) false 0
    | none => s
  forN 8 (fun g s =>
    if named g && owns r (owner g) then
      (s.setF (rg .grpCtl g) F.grpCtl_SRC 0).disarmAll fun i =>
        (s.armedOf i).any (fun a => a.group = g) && owns r (s.getF (rg .leCtl i) F.leCtl_OWNER)
    else s) s'

/-- Writes of the block. -/
def State.mantelWrite (s : State) (r : Requester) (x : Reg) (v : Word) : State :=
  let owned (cur res : Nat) (f : State → State) : State :=
    if owns r cur then f s else s.mantelRefuse res (reqCode r) false 0
  let byEnc (f : State → State) : State := owned (s.getF (rg .encCtl x.i) F.encCtl_OWNER) (0x118 + x.i) f
  let byGrp (f : State → State) : State := owned (s.getF (rg .grpCtl x.i) F.grpCtl_OWNER) (0x110 + x.i) f
  match x.fam with
  | .mantelCtl => if fromSeq r then s.mantelCtlWrite v else s
  | .mantelSteplo | .mantelStephi | .mantelSynccfg => if fromSeq r then s.writeDefault x v else s
  | .mantelGstop => s.gstop r v
  | .encCtl => s.mantelClaimWrite r x F.encCtl_OWNER (0x118 + x.i) v
  | .lcCtl => byEnc fun s => s.lcCtlWrite (Fin.ofNat 4 x.i) v
  | .encPos | .encStat | .lcRatio | .lcMinper | .lcStat => byEnc fun s => s.writeDefault x v
  | .grpCtl => s.mantelClaimWrite r x F.grpCtl_OWNER (0x110 + x.i) v
  | .grpSlo => byGrp fun s => s.writeDefault x v
  | .grpStat => byGrp fun s =>
    let s := s.writeDefault x v
    if F.grpStat_LATE.of v = 1 then s.setF x F.grpStat_LATECNT 0 else s
  | .outCtl => s.mantelClaimWrite r x F.outCtl_OWNER (0x100 + x.i) v
  | .leCtl => s.entryWrite r (Fin.ofNat 256 x.i) v
  | .leTlo | .leThi | .lePer | .leArg =>
    owned (s.getF (rg .leCtl x.i) F.leCtl_OWNER) x.i fun s => s.writeDefault x v
  | _ => s.writeDefault x v

/-- Levels of sources 696 to 711 (R385, R388, R393). -/
def State.mantelSource (s : State) (src : Nat) : Bool :=
  if src < 704 then
    let w := s.reg (rg .grpStat (src - 696))
    bits w 0 4 ≠ 0
  else if src < 708 then
    let e := src - 704
    let w := s.reg (rg .encStat e)
    F.encStat_ILL.of w = 1 || F.encStat_OVS.of w = 1 ||
      (F.encStat_ZSEEN.of w = 1 && s.flag (rg .encCtl e) F.encCtl_ZIE) || s.flag (rg .lcStat e) F.lcStat_SKIP
  else bit (s.reg (rg .mantelSync)) (24 + (src - 708))

end Sys2Proof.Machine
end

