-- ==== Sys2Proof/Machine/Lodge.lean ====
section
/-! DEFINITION. The Lodge: causes and actions, the safe state, fault records, watchdogs, temperature and the hearth PLL
(16_doorbells_faults_lodge.md R459 to R476, 17_clocks_power_reset.md R479). -/

namespace Sys2Proof.Machine

/-! ### Causes and actions (R460 to R463) -/

/-- Action bits (R460). -/
def actSafe : Nat := 0
def actDist : Nat := 1
def actFaultn : Nat := 2
def actRec : Nat := 3
def actWrst : Nat := 4

/-- Has the boot ROM a transaction on the flash pins (R507, R542)? -/
def BootStage.issued : BootStage → Bool
  | .read i _ => i
  | .ledger _ (.read _ i _) => i
  | .ledger _ (.erase i) => i
  | .ledger _ (.page _ i) => i
  | .ledger _ (.check i _) => i
  | _ => false

/-- The Lodge takes the flash pins for its first queued record: a transaction in progress ends in error, that of the flash port
(R464, R521) or that of the boot ROM (R507, R542). -/
def State.bspiCut (s : State) : State :=
  let s := if s.assay.boot.stage.issued then { s with assay := { s.assay with boot := { s.assay.boot with cut := true } } } else s
  let x := rg .asBspiStat
  if s.flag x F.asBspiStat_BUSY then ((s.setF x F.asBspiStat_BUSY 0).setF x F.asBspiStat_DONE 1).setF x F.asBspiStat_ERR 1
  else s

/-- The WRST action of cause c is due; one that is due already stays (R462). -/
def State.wrstDue (s : State) (c : Nat) : State :=
  if s.lodge.wrst.isSome then s else { s with lodge := { s.lodge with wrst := some c } }

/-- A record of cause c with the actions `acts` is done with; its cause's WRST follows it (R462). -/
def State.recGone (s : State) (c acts : Nat) : State := if acts.testBit actWrst then s.wrstDue c else s

/-- A record is lost and counted (R461, R464). -/
def State.recLost (s : State) (c acts : Nat) : State :=
  (s.setF (rg .lodgeStat) F.lodgeStat_LOST (satAdd (s.getF (rg .lodgeStat) F.lodgeStat_LOST) 1 255)).recGone c acts

/-- Can a record be written: is a slot set, and not full (R464, R541)? -/
def State.recRoom (s : State) : Bool :=
  s.getF (rg .lodgeFslot) F.lodgeFslot_BASE ≠ 0 && !s.flag (rg .lodgeFslot) F.lodgeFslot_FULL

/-- SYS_SEQ[h]_STAT.STATE of a run state (R144). -/
def runCode : RunState → Nat
  | .held => 0
  | .running => 1
  | .waiting => 2
  | .halted => 3

/-- The fault record of cause c as it stands at acceptance (R465; log entry 48). -/
def State.recOf (s : State) (c acts : Nat) : FaultRec where
  cause := c
  acts := acts
  count := s.count
  bootcnt := s.reg (rg .lodgeBootcnt)
  seqState := runCode (s.seq 0).run + 4 * runCode (s.seq 1).run + 16 * runCode (s.seq 2).run + 64 * runCode (s.seq 3).run
  devid := s.ownId.toNat + 1024 * b2n s.idv
  temp := (sext 10 (s.getF (rg .lodgeTherm) F.lodgeTherm_TEMP) % 65536).toNat
  user := s.reg (rg .lodgeUser)

/-- A fault record is queued; the queue holds 4 (R461). With no record before it and no room in the flash it is lost at
once (R464, R541). -/
def State.queueRec (s : State) (c acts : Nat) : State :=
  if 4 ≤ s.lodge.recQ.length then s.recLost c acts
  else if s.lodge.recQ.isEmpty && !s.recRoom then s.recLost c acts
  else
    let q := s.recOf c acts
    let s := if s.lodge.recQ.isEmpty then s.bspiCut else s
    let s := { s with lodge := { s.lodge with recQ := s.lodge.recQ ++ [q] } }
    s.setF (rg .lodgeStat) F.lodgeStat_RECBUSY 1

/-- The safe state begins (R462, R463). -/
def State.enterSafe (s : State) : State :=
  if s.flag (rg .lodgeStat) F.lodgeStat_SAFE then s
  else (s.setF (rg .lodgeStat) F.lodgeStat_SAFE 1).mantelSafe

/-- A cause is accepted (R460 to R462, R470); `dist` tells whether a cause of the same edge has sent DISTRESS. -/
def State.acceptCause (s : State) (c : Nat) (dist : Bool) : State × Bool :=
  let acts0 := s.getF (rg .lodgeAct c) F.lodgeAct_ACT
  let acts := if c = 5 then acts0 - (acts0 &&& 2) else acts0
  let x := rg .lodgeStat
  let s := (s.setF x F.lodgeStat_CAUSE c).setF x F.lodgeStat_ACTED 1
  let s := if c = 2 then s.setF x F.lodgeStat_HOLDF 1 else s
  let at' := s.count
  let s := if acts.testBit actSafe then s.enterSafe else s
  let send := acts.testBit actDist && !dist
  let s := if send then s.emitDistress c (at'.toNat % 2 ^ 32) else s
  let s := if acts.testBit actFaultn then s.setF x F.lodgeStat_FAULTN 1 else s
  let s := if acts.testBit actRec then s.queueRec c acts else s.recGone c acts
  (s, dist || send)

/-- Causes whose conditions became true are accepted in ascending order (R461). -/
def State.acceptCauses (s : State) : State :=
  let q := (List.range 16).filter s.lodgeQ.contains
  (q.foldl (fun t c => t.1.acceptCause c t.2) ({ s with lodgeQ := [] }, false)).1

/-- Does the condition of cause 0x2, 0x3 or 0x4 hold (R463)? -/
def State.tempAt (s : State) (limit : Nat) : Bool :=
  decide ((4 * limit : Int) ≤ sext 10 (s.getF (rg .lodgeTherm) F.lodgeTherm_TEMP))

def State.causeHolds (s : State) : Bool :=
  s.flag (rg .lodgeStat) F.lodgeStat_HOLDUP || !s.hlock || s.tempAt (s.getF (rg .lodgeTherm) F.lodgeTherm_TRIP)

/-! ### Fault records (R464, R465) -/

/-- The 64 bytes of a fault record written as entry NEXT (R465). -/
def State.recBytes (s : State) (q : FaultRec) : List Byte :=
  let body := [0x50, 0x46, 0x46, 0x52] ++ bytesLE 4 q.bootcnt.toNat ++ bytesLE 8 q.count.toNat ++
    bytesLE 1 q.cause ++ bytesLE 1 q.acts ++ bytesLE 1 q.seqState ++ bytesLE 1 (s.getF (rg .lodgeFslot) F.lodgeFslot_NEXT) ++
    bytesLE 2 q.devid ++ bytesLE 2 q.temp ++ bytesLE 4 q.user.toNat ++ List.replicate 32 0
  body ++ bytesLE 4 (crc32c body).toNat

/-- Flash address of the next fault record (R464). -/
def State.recAddr (s : State) : Nat :=
  s.getF (rg .lodgeFslot) F.lodgeFslot_BASE * 4096 + 64 * s.getF (rg .lodgeFslot) F.lodgeFslot_NEXT

/-- With no room in the flash, every queued record is lost and counted (R464, R541). -/
def State.recFlush (s : State) : State :=
  if s.recRoom then s
  else s.lodge.recQ.foldl (fun s q => s.recLost q.cause q.acts) { s with lodge := { s.lodge with recQ := [] } }

/-- RECBUSY is 1 while a record is queued (R474). -/
def State.recSync (s : State) : State := s.setF (rg .lodgeStat) F.lodgeStat_RECBUSY (b2n !s.lodge.recQ.isEmpty)

/-- The SPI transactions of a record with the bytes `body` (R464): the status read, with SUSP and its polls where a write is in
progress (`wip`), WREN, PP with 3 address bytes or 4 with ADDR4, the polls until it is done, and RESM after SUSP. `susp` and
`prog` are the polls that answered 1; those after SUSP end at 100 µs, 78 polls of 1.28 µs. -/
def State.recSpi (s : State) (body : List Byte) (wip : Bool) (susp prog : Nat) : List SpiTx :=
  let cmd (f : Field) : SpiTx := { op := s.getF (rg .lodgeQspi) f }
  let poll (n : Nat) : List SpiTx := List.replicate n { op := 0x05, recv := 1 }
  let addr := flashAddr (if s.flag (rg .lodgeCtl) F.lodgeCtl_ADDR4 then 4 else 3) s.recAddr
  poll 1 ++ (if wip then cmd F.lodgeQspi_SUSP :: poll (Nat.min 78 (susp + 1)) else []) ++
    [cmd F.lodgeQspi_WREN, { cmd F.lodgeQspi_PP with addr := addr, data := body }] ++ poll (prog + 1) ++
    (if wip then [cmd F.lodgeQspi_RESM] else [])

/-- The Lodge finishes the oldest queued record (R464): the SPI transactions made for it, and NEXT advances or FULL is set.
What the flash answers to the status reads is free (log entry 10). Without room the queued records are lost. -/
def State.faultRecord (s : State) : State :=
  match s.lodge.recQ with
  | [] => s
  | q :: rest =>
    if !s.recRoom then s.recFlush.recSync
    else
      let x := rg .lodgeFslot
      let (a, s) := s.fresh
      let s := s.onFlash (s.recSpi (s.recBytes q) (a.getLsbD 0) (bits a 1 15) (bits a 16 16))
      let s := { s with lodge := { s.lodge with recQ := rest } }
      let n := s.getF x F.lodgeFslot_NEXT
      let s := if n = 63 then s.setF x F.lodgeFslot_FULL 1 else s.setF x F.lodgeFslot_NEXT (n + 1)
      ((s.recGone q.cause q.acts).recFlush).recSync

/-! ### Power failing, temperature, the PLL (R460, R467, R470, R479) -/

/-- A cause's condition becomes true; it is accepted at the end of the running command (R460). -/
def State.raiseCause (s : State) (c : Nat) : State := { s with lodgeQ := s.lodgeQ ++ [c] }

/-- HOLDUP_N as it has passed the filter, low or high again (R460, R474). -/
def State.holdup (s : State) (low : Bool) : State :=
  let x := rg .lodgeStat
  if s.flag x F.lodgeStat_HOLDUP = low then s
  else
    let s := s.setF x F.lodgeStat_HOLDUP (b2n low)
    if low then s.raiseCause 2 else s

/-- LODGE_THERM changes on either side of the comparison (R470). -/
def State.setTherm (s : State) (w : Word) : State :=
  let was (s : State) (f : Field) : Bool := s.tempAt (s.getF (rg .lodgeTherm) f)
  let w0 := was s F.lodgeTherm_WARN
  let t0 := was s F.lodgeTherm_TRIP
  let s := s.setReg (rg .lodgeTherm) w
  let s := if !w0 && was s F.lodgeTherm_WARN then s.setF (rg .lodgeStat) F.lodgeStat_TWARN 1 else s
  if !t0 && was s F.lodgeTherm_TRIP then (s.setF (rg .lodgeStat) F.lodgeStat_TTRIP 1).raiseCause 4 else s

/-- A new junction temperature. -/
def State.setTemp (s : State) (t : BitVec 10) : State := s.setTherm (setBits (s.reg (rg .lodgeTherm)) 0 10 t.toNat)

/-- The hearth PLL loses lock (R467, R479). -/
def State.pllLost (s : State) : State :=
  if !s.hlock then s
  else
    let x := rg .sysClkstat
    let s := { s with hlock := false }
    let s := s.setF x F.sysClkstat_LOSSCNT (satAdd (s.getF x F.sysClkstat_LOSSCNT) 1 255)
    (s.setF (rg .lodgeStat) F.lodgeStat_CARRY 1).raiseCause 3

/-- Lock returns (R467, R479). -/
def State.pllRelock (s : State) : State :=
  { s.setF (rg .lodgeStat) F.lodgeStat_CARRY 0 with hlock := true }

/-! ### Watchdogs (R468) -/

/-- A watchdog's period: 256 LCLK. -/
def wdPeriod : Nat := 10240

/-- C of watchdog h changed. -/
def State.setWdC (s : State) (h : Fin 4) (c : Nat) : State :=
  let s := s.setF (rg .wdStat h) F.wdStat_C c
  { s with lodge := { s.lodge with warned := s.lodge.warned.set h false } }

/-- Time passes from tick `t0` to `s.ns`: C advances at each end of a period. -/
def State.wdTick (s : State) (t0 : Nat) : State :=
  (List.finRange 4).foldl (fun (s : State) (h : Fin 4) =>
    if !s.flag (rg .wdCfg h) F.wdCfg_EN then s
    else
      let start := s.lodge.wdStart[h]
      let n := (s.ns - start) / wdPeriod - (t0 - start) / wdPeriod
      if n = 0 then s else s.setWdC h (s.getF (rg .wdStat h) F.wdStat_C + n)) s

/-- C reaches WARN: #WD is raised once (R468, R128). -/
def State.wdWarn (s : State) (h : Fin 4) : State :=
  let warn := s.getF (rg .wdCfg h) F.wdCfg_WARN
  if s.flag (rg .wdCfg h) F.wdCfg_EN && warn ≠ 0 && s.getF (rg .wdStat h) F.wdStat_C = warn && !s.lodge.warned[h] then
    let s := { s with lodge := { s.lodge with warned := s.lodge.warned.set h true } }
    s.modSeq h fun q => { q with wdPend := true }
  else s

/-- C reaches EXPIRE (R468). -/
def State.wdExpire (s : State) (h : Fin 4) : State :=
  if s.flag (rg .wdCfg h) F.wdCfg_EN && decide (s.getF (rg .wdCfg h) F.wdCfg_EXPIRE ≤ s.getF (rg .wdStat h) F.wdStat_C) then
    ((s.setF (rg .wdStat h) F.wdStat_EXP 1).setF (rg .wdCfg h) F.wdCfg_EN 0).raiseCause (8 + h.val)
  else s

/-- A kick (R468). -/
def State.wdKick (s : State) (r : Requester) (h : Fin 4) (v : Word) : State :=
  if r = .seq h && F.wdKick_KEY.of v = 0x5A5A then s.setWdC h 0
  else s.setF (rg .wdStat h) F.wdStat_BADKICK (satAdd (s.getF (rg .wdStat h) F.wdStat_BADKICK) 1 255)

/-! ### Register accesses (R463, R473 to R476) -/

/-- Reserved encodings (R468, R474). -/
def State.lodgeReserved (s : State) (x : Reg) (v : Word) : Bool :=
  match x.fam with
  | .lodgeCtl => !s.flag x F.lodgeCtl_LOCK && F.lodgeCtl_HFILT.of v = 0
  | .wdCfg => F.wdCfg_EN.of v = 1 &&
      (F.wdCfg_EXPIRE.of v = 0 || decide (F.wdCfg_EXPIRE.of v ≤ F.wdCfg_WARN.of v))
  | _ => false

/-- LODGE_CMD (R460): the written bits replace LODGE_ACT[1], and cause 0x1 is accepted. -/
def State.lodgeCmd (s : State) (r : Requester) (v : Word) : State :=
  if fromSeq r || r = .host then (s.setF (rg .lodgeAct 1) F.lodgeAct_ACT (F.lodgeCmd_ACT.of v)).raiseCause 1 else s

/-- RELEASE and FREL of a sequencer's write of LODGE_STAT (R463). -/
def State.lodgeStatWrite (s : State) (v : Word) : State :=
  let x := rg .lodgeStat
  let s := s.writeDefault x v
  let s := if F.lodgeStat_RELEASE.of v = 1 && !s.causeHolds then s.setF x F.lodgeStat_SAFE 0 else s
  if F.lodgeStat_FREL.of v = 1 then s.setF x F.lodgeStat_FAULTN 0 else s

/-- Writes of the block (R473). -/
def State.lodgeWrite (s : State) (r : Requester) (x : Reg) (v : Word) : State :=
  let lock := s.flag (rg .lodgeCtl) F.lodgeCtl_LOCK
  match x.fam with
  | .lodgeCmd => s.lodgeCmd r v
  | .wdKick => s.wdKick r (Fin.ofNat 4 x.i) v
  | fam =>
    if !fromSeq r then s
    else match fam with
      | .lodgeStat => s.lodgeStatWrite v
      | .lodgeFslot => (s.writeDefault x v lock).setF x F.lodgeFslot_FULL 0
      | .lodgeTherm => s.setTherm (accessWrite lock x.fam.info.fields (s.reg x) v)
      | .wdCfg =>
        let h := Fin.ofNat 4 x.i
        let rise := !s.flag x F.wdCfg_EN && F.wdCfg_EN.of v = 1
        let s := s.writeDefault x v
        if rise then
          { s.setWdC h 0 with lodge := { s.lodge with wdStart := s.lodge.wdStart.set h s.ns, warned := s.lodge.warned.set h false } }
        else s
      | _ => s.writeDefault x v lock

/-- Levels of sources 760 to 767 (R469, R470). -/
def State.lodgeSource (s : State) (src : Nat) : Bool :=
  let w := s.reg (rg .lodgeStat)
  match src - 760 with
  | 0 => F.lodgeStat_HOLDF.of w = 1
  | 1 => F.lodgeStat_TWARN.of w = 1
  | 2 => F.lodgeStat_TTRIP.of w = 1
  | 3 => F.lodgeStat_ACTED.of w = 1
  | k =>
    let h := Fin.ofNat 4 (k - 4)
    s.flag (rg .wdStat h) F.wdStat_EXP || (s.seq h).run = .halted

end Sys2Proof.Machine
end

