-- ==== Sys2Proof/Machine/Link.lean ====
section
/-! DEFINITION. Tyashlink ports as receivers, training, events, the system Chimney, the seam engine and the block's registers
(14_tyashlink.md R401 to R436). -/

namespace Sys2Proof.Machine

def State.modLink (s : State) (f : Link → Link) : State := { s with link := f s.link }

/-! ### Training and states (R401 to R403, R406, R421) -/

/-- The HELLO that this device sends on port k (R406). -/
def State.helloFrame (s : State) (k : Fin 6) : Frame :=
  ⟨{ src := s.ownId }, .hello k.val s.ownId.toNat s.idv (s.flag (rg .kpCtl k) F.kpCtl_JOIN)⟩

/-- A delay measurement begins (R421). -/
def State.measure (s : State) (k : Fin 6) : State :=
  (s.modPort k fun p => { p with measuring := true }).frameSend k ⟨{ src := s.ownId }, .dlyreq⟩

/-- A linked port is JOINED when JOIN and IDV are 1 at both ends (R401). -/
def State.portEval (s : State) (k : Fin 6) : State :=
  if !s.linked k then s
  else
    let peer := s.reg (rg .kpPeer k)
    let both := s.flag (rg .kpCtl k) F.kpCtl_JOIN && s.idv && F.kpPeer_JOIN.of peer = 1 && F.kpPeer_IDV.of peer = 1
    s.setPort k (if both then 3 else 2)

/-- Is a frame one of the LINK class? -/
def LinkBody.isLink : LinkBody → Bool
  | .hello .. | .dlyreq | .dlyrsp .. => true
  | _ => false

/-- A port goes down to TRAINING (1) or DISABLED (0) (R403): replay buffer and EVENT queue are discarded; frames not yet
sent stay, but for LINK frames. SEQ and credits restart (DESIGN CHOICE, log entry 38). Training begins with stage 1 (R402). -/
def State.linkDown (s : State) (k : Fin 6) (st : Nat) : State :=
  let s := s.modPort k fun p => { waiting := p.waiting.filter fun f => !f.body.isLink, stageAt := s.ns }
  let s := s.setF (rg .kpPeer k) F.kpPeer_VALID 0
  let s := (s.setF (rg .kpStat k) F.kpStat_LOCK0 0).setF (rg .kpStat k) F.kpStat_LOCK1 0
  let s := s.setPort k st
  if st = 1 then s.frameSend k (s.helloFrame k) else s

/-! ### The system Chimney (R424, R425) -/

/-- PAYLOAD of a SCHIM EVENT, and SCHIM_OUT (R407, R434). -/
def schimWord (round count : Nat) (orv : Bool) : Nat := count % 2 ^ 27 + 2 ^ 27 * b2n orv + 2 ^ 28 * (round % 16)

/-- A round completes (R424): totals, DONE, and the source of the completing port. -/
def State.schimEnd (s : State) (by' : Fin 6) (w : Nat) : State :=
  let x := rg .linkSchimStat
  let s := s.setReg (rg .linkSchimOut) (BitVec.ofNat 32 w)
  let s := (s.setF x F.linkSchimStat_BUSY 0).setF x F.linkSchimStat_DONE 1
  (s.modLink fun l => { l with schim := {} }).setF (rg .kpStat by') F.kpStat_EVQ 1

/-- With its own contribution and one SCHIM_UP of every JOINED DOWN port a device sends SCHIM_UP, or, as the master,
SCHIM_DOWN (R424). -/
def State.schimTry (s : State) (by' : Fin 6) : State :=
  let c := s.link.schim
  let need := (List.finRange 6).filter fun k => s.downPort k && s.joined k
  if !s.flag (rg .linkSchimStat) F.linkSchimStat_BUSY || c.upSent || !need.all fun k => c.ups.any fun u => u.1 = k.val then s
  else
    let count := c.count + (c.ups.map fun u => u.2.2.1).sum
    let orv := c.orv || c.ups.any fun u => u.2.2.2
    let w := schimWord c.round count orv
    let up := s.getF (rg .linkTree) F.linkTree_UP
    if h : up < 6 then
      (s.modLink fun l => { l with schim := { c with upSent := true } }).evtSend ⟨up, h⟩ (evWord s.ownId.toNat 0 2 0 w)
    else
      (s.evtSendAll (fun k => s.downPort k && s.joined k) (evWord s.ownId.toNat 0 3 0 w)).schimEnd by' w

/-- A write of LINK_SCHIM_IN opens a round (R424); held contributions of another round are dropped (R425). -/
def State.schimOpen (s : State) (v : Word) : State :=
  let round := F.linkSchimIn_ROUND.of v
  let tmo := s.getF (rg .linkSchimCtl) F.linkSchimCtl_TMO
  let x := rg .linkSchimStat
  let bad := s.link.schim.ups.any fun u => u.2.1 ≠ round
  let s := s.modLink fun l => { l with schim :=
    { round, count := F.linkSchimIn_COUNT.of v, orv := F.linkSchimIn_OR.of v = 1
      ups := l.schim.ups.filter (fun u => u.2.1 = round), due := s.dueUs tmo } }
  let s := if bad then s.setF x F.linkSchimStat_ERR 1 else s
  (s.setF x F.linkSchimStat_BUSY 1).schimTry 0

/-- A round times out (R425). -/
def State.schimTimeout (s : State) : State :=
  let x := rg .linkSchimStat
  match s.link.schim.due with
  | some t =>
    if s.flag x F.linkSchimStat_BUSY && decide (t < s.ns) then
      ((s.setF x F.linkSchimStat_BUSY 0).setF x F.linkSchimStat_TIMEOUT 1).modLink fun l => { l with schim := {} }
    else s
  | none => s

/-! ### EVENTs received (R407, R418, R419) -/

/-- The event queue takes an EVENT of port k (R419). -/
def State.queueEvent (s : State) (k : Fin 6) (e : BitVec 64) : State :=
  if s.link.evq.length < 16 then
    (s.modLink fun l => { l with evq := l.evq ++ [e] }).setF (rg .kpStat k) F.kpStat_EVQ 1
  else
    let x := rg .linkEvstat
    s.setF x F.linkEvstat_OVF (satAdd (s.getF x F.linkEvstat_OVF) 1 255)

/-- Forwarding on every other JOINED tree port (R418). -/
def State.forwardEvent (s : State) (k : Fin 6) (w : BitVec 64) : State :=
  if evHops w = 15 then s else s.evtSendAll (fun j => j ≠ k && s.treePort j && s.joined j) (evHop w)

/-- A USER EVENT `w` on port k (R419). -/
def State.userEvent (s : State) (k : Fin 6) (w : BitVec 64) : State :=
  if !s.treePort k then s.portDrop k
  else
    let s := (s.forwardEvent k w).lineEventIn (evCode w) (evPayload w)
    let c := s.reg (rg .linkEvctl)
    let m := F.linkEvctl_MASK.of c
    if s.flag (rg .linkEvstat) F.linkEvstat_EN && (evCode w &&& m) = (F.linkEvctl_CODE.of c &&& m) then s.queueEvent k w
    else s

/-- A DISTRESS EVENT (R419, R460): on any port it is delivered and accepted as cause 0x5. -/
def State.distressIn (s : State) (k : Fin 6) (w : BitVec 64) : State :=
  let s := if s.treePort k then s.forwardEvent k w else s
  (if s.flag (rg .linkEvstat) F.linkEvstat_EN then s.queueEvent k w else s).raiseCause 5

/-- SCHIM_UP (R424, R425): held for the round; before a round is open it waits for it (DEDUCED, log entry 39). -/
def State.schimUp (s : State) (k : Fin 6) (p : Word) : State :=
  if !s.downPort k then s.portDrop k
  else
    let c := s.link.schim
    let round := bits p 28 4
    let busy := s.flag (rg .linkSchimStat) F.linkSchimStat_BUSY
    if (busy && round ≠ c.round) || c.ups.any fun u => u.1 = k.val then s.setF (rg .linkSchimStat) F.linkSchimStat_ERR 1
    else (s.modLink fun l => { l with schim := { c with ups := c.ups ++ [(k.val, round, bits p 0 27, bit p 27)] } }).schimTry k

/-- SCHIM_DOWN (R424, R425). -/
def State.schimDown (s : State) (k : Fin 6) (w : BitVec 64) : State :=
  if !s.treePort k then s.portDrop k
  else
    let s := s.forwardEvent k w
    let x := rg .linkSchimStat
    let p := evPayload w
    if s.flag x F.linkSchimStat_BUSY && s.link.schim.round = bits p 28 4 then s.schimEnd k p.toNat
    else s.setF x F.linkSchimStat_LATE (satAdd (s.getF x F.linkSchimStat_LATE) 1 255)

/-- An EVENT slot arrives (R401, R407): a bad CRC-16 discards it, and so does a reserved byte (R20); a port that is not UP or
JOINED accepts none. Its KIND says what it does. -/
def State.eventIn (s : State) (e : EventIn) : State :=
  if !s.linked e.port then s
  else if !evGood e then s.portErr e.port F.kpErr_EVBAD
  else if evReserved e then s
  else match evKind (evSlotWord e) with
    | 0 => s.userEvent e.port (evSlotWord e)
    | 1 => s.distressIn e.port (evSlotWord e)
    | 2 => s.schimUp e.port (evPayload (evSlotWord e))
    | _ => s.schimDown e.port (evSlotWord e)

/-! ### Acknowledgement and replay (R403, R409, R410) -/

/-- Frames up to SEQ `ack` are acknowledged. -/
def State.acked (s : State) (k : Fin 6) (ack : Nat) : State :=
  let sent := (s.lport k).sent
  if sent.any fun e => e.1 = ack then
    let gone := (sent.takeWhile fun e => e.1 ≠ ack).map (·.1) ++ [ack]
    s.modPort k fun p => { p with
      sent := (sent.dropWhile fun e => e.1 ≠ ack).drop 1, replays := 0, replayQ := p.replayQ.filter fun q => !gone.contains q }
  else s

/-- Every unacknowledged frame is to be sent again; eight replays without progress take the port down (R403, R409). -/
def State.replay (s : State) (k : Fin 6) : State :=
  if (s.lport k).sent.isEmpty then s
  else
    let s := s.portErr k F.kpErr_REPLAY
    let n := (s.lport k).replays + 1
    if 8 ≤ n then (s.linkDown k 1).schimTry 0
    else s.modPort k fun p => { p with
      replays := n, replayQ := p.sent.map (·.1), sent := p.sent.map fun e => (e.1, e.2.1, s.ns) }

/-- ACK, ACKV and NAK of an EOF or IDLE block (R404, R409). -/
def State.ackIn (s : State) (k : Fin 6) (ack : Nat) (ackv nak : Bool) : State :=
  let s := if ackv then s.acked k ack else s
  if nak then s.replay k else s

/-- No acknowledgement 2 µs after the oldest unacknowledged frame. -/
def State.replayTimeout (s : State) (k : Fin 6) : State :=
  match (s.lport k).sent with
  | e :: _ => if e.2.2 + usTicks 2 < s.ns then s.replay k else s
  | [] => s

/-- The stage of training (R402): 1 block lock, 2 alignment, 3 HELLO. -/
def State.trainStage (s : State) (k : Fin 6) : Nat :=
  if !(s.flag (rg .kpStat k) F.kpStat_LOCK0 && s.flag (rg .kpStat k) F.kpStat_LOCK1) then 1
  else if !(s.lport k).aligned then 2
  else 3

/-- The limit of a stage, in 1/100 ns (R402): 100 µs, two ALIGN periods of 16,384 slots, 10 µs. -/
def stageLimit (stage : Nat) : Nat := if stage = 1 then 10000000 else if stage = 2 then 2 * 16384 * 256 else 1000000

/-- When did training fail (R402)? By lanes that do not align, or at the limit of its stage. -/
def State.trainFailed (s : State) (k : Fin 6) : Option Nat :=
  let p := s.lport k
  let limit := stageLimit (s.trainStage k)
  match p.failed with
  | some t => some t
  | none => if 100 * p.stageAt + limit < 100 * s.ns then some (p.stageAt + limit / 100) else none

/-- Is port k in a stage of training that has not failed? -/
def State.training (s : State) (k : Fin 6) : Bool := s.portSt k = 1 && (s.trainFailed k).isNone

/-- A step of training of port k; where it ends the stage, the limit of the next one runs from now (R402). -/
def State.trainStep (s : State) (k : Fin 6) (f : State → State) : State :=
  if !s.training k then s
  else
    let t := f s
    if t.trainStage k = s.trainStage k then t else t.modPort k fun p => { p with stageAt := s.ns }

/-- Block lock of a lane, which only TRAINING seeks (R402, R436). -/
def State.laneLock (s : State) (k : Fin 6) (lane : Fin 2) : State :=
  s.trainStep k fun s => s.setF (rg .kpStat k) (if lane = 0 then F.kpStat_LOCK0 else F.kpStat_LOCK1) 1

/-- The ALIGN blocks of the two lanes stand `skew` slots apart: up to 4 the lanes are aligned, beyond that training fails
(R402). -/
def State.laneAlign (s : State) (k : Fin 6) (skew : Nat) : State :=
  s.trainStep k fun s =>
    if s.trainStage k ≠ 2 then s
    else if skew ≤ 4 then s.modPort k fun p => { p with aligned := true }
    else s.modPort k fun p => { p with failed := some s.ns }

/-- TRAINING_RETRY (R402): 1 ms after a failure training starts again from stage 1. -/
def State.trainRetry (s : State) (k : Fin 6) : State :=
  match s.trainFailed k with
  | some t => if s.portSt k = 1 && decide (t + usTicks 1000 ≤ s.ns) then s.linkDown k 1 else s
  | none => s

/-- An IDLE block (R402, R404, R410): 64 valid sync headers in a row lock its lane, and ALIGN blocks align the lanes; one with a
reserved bit set has no other effect (R20). -/
def State.idleBlock (s : State) (k : Fin 6) (lane : Fin 2) (run : LaneRun) (b : BitVec 56) : State :=
  if s.portSt k = 0 then s
  else
    let s := if 64 ≤ run.headers then s.laneLock k lane else s
    let s := match run.skew with
      | some d => s.laneAlign k d
      | none => s
    let n := b.toNat
    if n >>> 10 % 64 ≠ 0 then s
    else (s.modPort k fun p => { p with credits := Vector.ofFn fun c : Fin 5 => p.credits[c] + idleCredit b c }).ackIn k
      (n % 256) (b.getLsbD 8) (b.getLsbD 9)

/-! ### Frames received (R401, R404, R405, R409) -/

/-- A frame is discarded, counted and answered with NAK (R409). -/
def State.frameBad (s : State) (k : Fin 6) : State :=
  (s.portErr k F.kpErr_CRCERR).modPort k fun p => { p with nak := true }

/-- A frame's buffer is free again: its credit is to be returned (R410; log entry 107). -/
def State.bufferFree (s : State) (k : Fin 6) (c : Fin 5) : State :=
  s.modPort k fun p => { p with ret := p.ret.set c (p.ret[c] + 1) }

/-- A frame arrives: accepted when it follows the last one accepted and is good; otherwise counted and answered with NAK
(R409). A TRAINING port takes only LINK frames, and none once its training has failed, a DISABLED one none (R401, R402); a frame
received in TRAINING shows both lanes locked and aligned (DEDUCED, log entry 107). A reserved value discards it, counted in DROP where it stands in the header (R20, R405).
The answer is its header and body. -/
def State.frameArrives (s : State) (k : Fin 6) (bs : List Block) : State × Option (LinkHdr × LinkBody) :=
  let st := s.portSt k
  if st = 0 then (s, none)
  else match parseFrame bs with
    | none => (s.frameBad k, none)
    | some x =>
      if st = 1 && (hdrClass x.hdr ≠ 0 || !s.training k) then (s, none)
      else
        let s := ((s.laneLock k 0).laneLock k 1).laneAlign k 0
        let next := x.seq = ((s.lport k).rxSeq + 1) % 256
        let s := (if next then s.modPort k fun p => { p with rxSeq := x.seq, rxAny := true } else s.frameBad k).ackIn k
          x.ack x.ackv x.nak
        if !next || s.portSt k ≠ st then (s, none)
        else if hdrReserved x.hdr then (s.portDrop k, none)
        else match bodyOf (hdrClass x.hdr) x.data with
          | some b => (s.bufferFree k b.cls, some (hdrOf x.hdr, b))
          | none => (s, none)

/-- Training ends once both lanes are locked and aligned and HELLO has gone both ways: the port comes UP and measures its delay (R401,
R402, R421). -/
def State.tryUp (s : State) (k : Fin 6) : State :=
  if s.training k && s.trainStage k = 3 && (s.lport k).helloOut &&
      s.flag (rg .kpPeer k) F.kpPeer_VALID then ((s.setPort k 2).measure k).portEval k |>.schimTry 0
  else s

/-- HELLO (R401, R406). -/
def State.hello (s : State) (k : Fin 6) (peer id : Nat) (idv join : Bool) : State :=
  let w := peer + 8 * id + 2 ^ 13 * b2n idv + 2 ^ 14 * b2n join + 2 ^ 15
  let s := s.setReg (rg .kpPeer k) (BitVec.ofNat 32 w)
  if s.portSt k = 1 then s.tryUp k else (s.portEval k).schimTry 0

/-- A time in 1/16 tick with the fraction `frac` (R421), modulo 2^32. -/
def State.stamp (s : State) (frac : Nat) : Word := BitVec.ofNat 32 (16 * s.ns + frac)

/-- DLYREQ: answered; the answer keeps the time of arrival until it leaves (R421). -/
def State.dlyreqIn (s : State) (k : Fin 6) (frac : Nat) : State := s.frameSend k ⟨{ src := s.ownId }, .dlyrsp (s.stamp frac)⟩

/-- DLYRSP: DLY is half of what t4 − t1 exceeds the turnaround by (R421). -/
def State.dlyrspIn (s : State) (k : Fin 6) (turn : Word) (frac : Nat) : State :=
  if !(s.lport k).measuring then s
  else
    let flight := s.stamp frac - (s.lport k).t1 - turn
    let s := s.modPort k fun p => { p with measuring := false }
    (s.setF (rg .kpDly k) F.kpDly_DLY (flight.toNat / 2)).setF (rg .kpStat k) F.kpStat_DLYV 1

/-- SYNC on the UP port of a follower (R422, R369); elsewhere it has no effect. `own` is the fraction of the own count at the
SOF's arrival. -/
def State.syncIn (s : State) (k : Fin 6) (count : BitVec 64) (frac own : Nat) : State :=
  if !s.joined k then s.portDrop k
  else if !s.follower || !s.upPort k then s
  else
    let parent := 16 * count.toNat + frac + s.getF (rg .kpDly k) F.kpDly_DLY
    let rx := (parent + 8) / 16
    let s := s.setReg (rg .linkSyncRxlo) (BitVec.ofNat 32 rx)
    let s := s.setReg (rg .linkSyncRxhi) (BitVec.ofNat 32 (rx / 2 ^ 32))
    let s := s.setReg (rg .linkSyncAtlo) (s.count.setWidth 32)
    let s := s.setReg (rg .linkSyncAthi) ((s.count >>> 32).setWidth 32)
    let s := s.setErr (((16 * s.count.toNat + own : Nat) : Int) - (parent : Int))
    { s with mantel := { s.mantel with syncAt := some s.ns } }

/-- SYNC frames are due (R422). -/
def State.syncSend (s : State) : State :=
  let x := rg .linkSync
  if !s.flag x F.linkSync_EN || decide (s.ns < s.link.syncDue) then s
  else
    let s := s.modLink fun l => { l with syncDue := s.ns + usTicks (s.getF x F.linkSync_PER) }
    (List.finRange 6).foldl (fun (s : State) (k : Fin 6) =>
      if s.downPort k && s.joined k then
        s.frameSend k ⟨{ dst := BitVec.ofNat 10 (s.getF (rg .kpPeer k) F.kpPeer_ID), src := s.ownId }, .sync s.count 0⟩
      else s) s

/-! ### The seam engine (R426 to R428) -/

/-- SEAM_EXCHANGE_DONE: every frame has been sent; a write to LINK_SEAM_SRC that waited takes effect (R428). -/
def State.seamDone (s : State) : State :=
  let st := rg .linkSeamStat
  let waits := (List.finRange 6).any fun k => s.joined k &&
    ((s.lport k).waiting.any (fun f => f.body.cls = 2) || (s.lport k).txBody.any fun b => b.cls = 2)
  if !s.flag st F.linkSeamStat_BUSY || waits then s
  else
    let x := rg .linkSeamSrc
    let src := s.link.seamSrc
    let slot := (F.linkSeamSrc_SLOT.of src + 1) % Nat.max 1 (F.linkSeamSrc_RDEPTH.of src)
    let s := (s.setF st F.linkSeamStat_BUSY 0).setF st F.linkSeamStat_DONE 1
    let s := s.setReg x (match s.link.seamNew with
      | some v => v
      | none => setBits src 26 6 slot)
    s.modLink fun l => { l with seamNew := none }

/-- One plane of a SEAM frame through the seam port; a collision drops it (R34, R427). The halo of a wing that is OFF holds
nothing. -/
def State.seamPlane (s : State) (u p : Nat) (v : BitVec 64) (collide : Bool) : State :=
  if collide then
    let x := rg .arrayHaloStat
    s.setF x F.arrayHaloStat_SEAMCOL (satAdd (s.getF x F.arrayHaloStat_SEAMCOL) 1 (2 ^ F.arrayHaloStat_SEAMCOL.width - 1))
  else if !s.wingOn (if u = 0 then 0 else 7) then s
  else s.writePlane u p (unitOnes u) (v.setWidth 8192)

/-- A SEAM frame (R427), whose writes end IDLE (R484); `collide` marks planes that met a micro-operation. -/
def State.seamIn (s : State) (k : Fin 6) (dst : BitVec 10) (plane : Nat) (east : Bool) (planes : List (BitVec 64))
    (collide : BitVec 32) : State :=
  let ctl := s.reg (rg .linkSeamCtl)
  let port := if east then F.linkSeamCtl_WPORT.of ctl else F.linkSeamCtl_EPORT.of ctl
  if !s.joined k then s.portDrop k
  else if port ≠ k.val || dst ≠ s.ownId || decide (4064 < plane + planes.length) then
    let x := rg .linkSeamStat
    s.setF x F.linkSeamStat_RXDROP (satAdd (s.getF x F.linkSeamStat_RXDROP) 1 255)
  else
    let u := if east then 0 else 9
    (planes.zipIdx).foldl (fun (s : State) p => s.seamPlane u (plane + p.2) p.1 (collide.getLsbD p.2)) s.wakeArray

/-! ### Register accesses -/

/-- Fields of an OWNER register with windows and routes: reserved encodings and the writes discarded in the same way
(R11, R423, R425, R428, R433 to R435). -/
def State.linkReserved (s : State) (x : Reg) (v : Word) : Bool :=
  let portBad (n : Nat) : Bool := decide (5 < n) && n ≠ 15
  match x.fam with
  | .linkCtl =>
    let change := F.linkCtl_ID.of v ≠ s.getF x F.linkCtl_ID || F.linkCtl_IDV.of v ≠ s.getF x F.linkCtl_IDV
    !s.flag x F.linkCtl_LOCK && change && (List.finRange 6).any s.joined
  | .linkTree =>
    let up := F.linkTree_UP.of v
    portBad up || decide (5 < F.linkTree_DEPTH.of v) || (F.linkTree_DOWN.of v).testBit up ||
      s.flag (rg .linkSchimStat) F.linkSchimStat_BUSY
  | .linkSync => F.linkSync_PER.of v = 0 || decide (1000 < F.linkSync_PER.of v)
  | .linkSchimIn => s.flag (rg .linkSchimStat) F.linkSchimStat_BUSY
  | .linkSeamCtl => decide (5 < F.linkSeamCtl_OWNER.of v) || portBad (F.linkSeamCtl_WPORT.of v) || portBad (F.linkSeamCtl_EPORT.of v)
  | .linkSeamSrc =>
    let n := F.linkSeamSrc_NPL.of v
    let d := F.linkSeamSrc_RDEPTH.of v
    n = 0 || decide (64 < n) || d = 0 || decide (64 < d) ||
      decide (4064 < F.linkSeamSrc_RBASE.of v + d * n) || decide (d ≤ F.linkSeamSrc_SLOT.of v)
  | .linkMgRoute =>
    let n := F.linkMgRoute_RHOPS.of v
    n = 0 || decide (8 < n) || (List.range n).any fun j => decide (5 < routeEntry (v.setWidth 24) j)
  | .linkRwin => decide (5 < F.linkRwin_OWNER.of v)
  | .linkRt => (List.range 8).any fun i => portBad (bits v (4 * i) 4)
  | _ => false

/-- A write of LINK_P[k]_CTL (R401, R403, R421). -/
def State.portCtlWrite (s : State) (k : Fin 6) (v : Word) : State :=
  let x := rg .kpCtl k
  let en0 := s.flag x F.kpCtl_EN
  let join0 := s.getF x F.kpCtl_JOIN
  let s := s.writeDefault x v
  if F.kpCtl_EN.of v = 0 then (if en0 then (s.linkDown k 0).schimTry 0 else s)
  else if !en0 || F.kpCtl_RETRAIN.of v = 1 then (s.linkDown k 1).schimTry 0
  else
    let s := if join0 ≠ F.kpCtl_JOIN.of v && s.linked k then ((s.frameSend k (s.helloFrame k)).portEval k).schimTry 0 else s
    if F.kpCtl_DLYGO.of v = 1 && s.linked k then s.measure k else s

/-- A write of LINK_CTL (R433): a new ID or IDV is told to the peers by HELLO (DEDUCED, log entry 40). -/
def State.linkCtlWrite (s : State) (v : Word) : State :=
  let x := rg .linkCtl
  let old := s.reg x
  let s := s.writeDefault x v (s.flag x F.linkCtl_LOCK)
  if bits old 0 11 = bits (s.reg x) 0 11 then s
  else (List.finRange 6).foldl (fun (s : State) (k : Fin 6) =>
    if s.linked k then (s.frameSend k (s.helloFrame k)).portEval k else s) s

/-- GO of LINK_MG_CTL (R417): the access waits in BUSY until a tag is free (R256). -/
def State.manageGo (s : State) (v : Word) : State :=
  let x := rg .linkMgCtl
  let busy := s.flag x F.linkMgCtl_BUSY
  let s := s.writeDefault x v
  if F.linkMgCtl_GO.of v = 1 && !busy then
    ((s.setF x F.linkMgCtl_BUSY 1).setF x F.linkMgCtl_STATUS 0).setF x F.linkMgCtl_TIMEOUT 0
  else s

/-- Does a management access hold the tag? -/
def ReqWho.isManage : ReqWho → Bool
  | .manage _ => true
  | _ => false

/-- A waiting management access is issued as soon as a tag is free (R256, R417). -/
def State.manageIssue (s : State) : State :=
  let x := rg .linkMgCtl
  if s.flag x F.linkMgCtl_BUSY && !s.reqs.any fun q => q.who.isManage then
    let w := s.reg (rg .linkMgRoute)
    let hdr : LinkHdr := { rt := true, rhops := BitVec.ofNat 4 (F.linkMgRoute_RHOPS.of w), route := w.setWidth 24 }
    let wr := s.flag x F.linkMgCtl_WRITE
    (s.linkIssue (.manage 0) hdr (b2n wr) wr (s.reg (rg .linkMgAddr)).toNat 4 (s.reg (rg .linkMgData)).toNat
      (s.dueUs (s.getF (rg .linkBulk) F.linkBulk_TMO))).getD s
  else s

/-- A write of LINK_SEAM_CTL (R426, R435). -/
def State.seamCtlWrite (s : State) (r : Requester) (v : Word) : State :=
  let x := rg .linkSeamCtl
  let other (s : State) : State :=
    let s := s.writeDefault x v
    if F.linkSeamCtl_START.of v = 1 then s.seamStart else s
  match ownerRule r (s.getF x F.linkSeamCtl_OWNER) (F.linkSeamCtl_OWNER.of v) with
  | .claim | .keep => other s
  | .release => s.setF x F.linkSeamCtl_OWNER 0
  | .nothing => s
  | .refuse => s.linkRefuse 0x10 (reqCode r) false

/-- A write of LINK_RWIN[m] (R414, R435). -/
def State.rwinWrite (s : State) (r : Requester) (m : Nat) (v : Word) : State :=
  let x := rg .linkRwin m
  match ownerRule r (s.getF x F.linkRwin_OWNER) (F.linkRwin_OWNER.of v) with
  | .claim | .keep => s.writeDefault x v
  | .release => s.setF x F.linkRwin_OWNER 0
  | .nothing => s
  | .refuse => s.linkRefuse m (reqCode r) false

/-- Writes of the block. -/
def State.linkWrite (s : State) (r : Requester) (x : Reg) (v : Word) : State :=
  match x.fam with
  | .linkCtl => s.linkCtlWrite v
  | .linkTree => (s.writeDefault x v).schimTry 0
  | .linkSync =>
    let rise := !s.flag x F.linkSync_EN && F.linkSync_EN.of v = 1
    let s := s.writeDefault x v
    if rise then s.modLink fun l => { l with syncDue := s.ns + usTicks (F.linkSync_PER.of v) } else s
  | .linkBstat =>
    let s := s.writeDefault x v
    if F.linkBstat_VALID.of v = 1 then s.setF x F.linkBstat_LATE 0 else s
  | .linkEvstat =>
    let s := s.writeDefault x v
    if F.linkEvstat_CLR.of v = 1 then (s.modLink fun l => { l with evq := [] }).setF x F.linkEvstat_OVF 0 else s
  | .linkSchimIn => s.schimOpen v
  | .linkSeamCtl => s.seamCtlWrite r v
  | .linkSeamSrc =>
    if !owns r (s.getF (rg .linkSeamCtl) F.linkSeamCtl_OWNER) then s.linkRefuse 0x10 (reqCode r) false
    else if s.flag (rg .linkSeamStat) F.linkSeamStat_BUSY then s.modLink fun l => { l with seamNew := some v }
    else s.writeDefault x v
  | .linkMgRoute | .linkMgData => if fromSeq r then s.writeDefault x v else s
  | .linkMgAddr => if fromSeq r then s.setReg x (v &&& 0xFFFFFFFC) else s
  | .linkMgCtl => if fromSeq r then s.manageGo v else s
  | .linkRwin => s.rwinWrite r x.i v
  | .kpCtl => s.portCtlWrite (Fin.ofNat 6 x.i) v
  | .kpErr => if F.kpErr_CLR.of v = 1 then s.setReg x 0 else s
  | _ => s.writeDefault x v

/-- A read of LINK_EVQHI pops the oldest EVENT (R434). -/
def State.popEvent (s : State) : State × Word :=
  match s.link.evq with
  | e :: rest => (s.modLink fun l => { l with evq := rest }, (e >>> 32).setWidth 32)
  | [] => (s, 0)

/-- Registers of the block that show the event queue (R434). -/
def State.linkRead (s : State) (x : Reg) : Word :=
  match x.fam with
  | .linkEvqlo => (s.link.evq.headD 0).setWidth 32
  | .linkEvstat => setBits (s.reg x) 0 5 s.link.evq.length
  | _ => s.reg x

/-- Levels of sources 624 to 647 (R430). -/
def State.linkSource (s : State) (src : Nat) : Bool :=
  bit (s.reg (rg .kpStat ((src - 624) / 4))) (5 + (src - 624) % 4)

end Sys2Proof.Machine
end

