-- ==== Sys2Proof/Machine/Pcie.lean ====
section
/-! DEFINITION. The PCI Express port: registers, configuration, MSI-X (15_pcie_host_port.md R437 to R449). Inbound requests
are in HostPort.lean. -/

namespace Sys2Proof.Machine

/-! ### Registers (R447 to R449) -/

/-- GO of PCIE_ATTCTL: a quote for the host is queued at the signing engine (R447, R510). -/
def State.attctlGo (s : State) : State :=
  let x := rg .pcieAttctl
  if s.flag x F.pcieAttctl_BUSY then s
  else { s.setF x F.pcieAttctl_BUSY 1 with assay := { s.assay with sigQ := s.assay.sigQ ++ [.host] } }

/-- Reserved fields of a write: none of this block is a reserved encoding. Writes of the block (R448, R449). -/
def State.pcieWrite (s : State) (r : Requester) (x : Reg) (v : Word) : State :=
  match x.fam with
  | .pcieSubsys => if fromSeq r then s.writeDefault x v (s.flag (rg .pcieCtl) F.pcieCtl_LOCK) else s
  | .pcieCtl | .pcieObaselo | .pcieObasehi | .pcieOtmo => if fromSeq r then s.writeDefault x v else s
  | .pcieErr =>
    let s := s.writeDefault x v
    if F.pcieErr_VALID.of v = 1 then (s.setF x F.pcieErr_LATE 0).modPcie fun p => { p with discard := false, outErr := false }
    else s
  | .pcieHdbSet => s.setF (rg .pcieHdb) F.pcieHdb_BELL (s.getF (rg .pcieHdb) F.pcieHdb_BELL ||| F.pcieHdbSet_BELL.of v)
  | .pcieBoot =>
    let s := s.writeDefault x v
    if F.pcieBoot_TAKE.of v = 1 then s.setF x F.pcieBoot_GO 0 else s
  | .pcieAttctl =>
    let s := s.writeDefault x v
    if F.pcieAttctl_GO.of v = 1 then s.attctlGo else s
  | _ => s.writeDefault x v

/-- PCIE_HDB_SET reads as PCIE_HDB (R449); VID is the assigned one and REV the silicon's (log entry 6). -/
def State.pcieRead (s : State) (x : Reg) : Word :=
  match x.fam with
  | .pcieHdbSet => s.reg (rg .pcieHdb)
  | .pcieId => BitVec.ofNat 32 (Config.vendorId.toNat + 65536 * Config.siliconRev.toNat)
  | _ => s.reg x

/-- Levels of sources 648 to 663 (R445). -/
def State.pcieSource (s : State) (src : Nat) : Bool :=
  match src - 648 with
  | 0 => s.flag (rg .pcieLink) F.pcieLink_STCHG
  | 1 => s.flag (rg .pcieLink) F.pcieLink_DCHG
  | 2 => s.pcie.discard
  | 3 => s.pcie.outErr
  | 4 => s.cfgWord 65 ≠ 0
  | 5 => s.cfgWord 68 ≠ 0
  | 6 => s.flag (rg .pcieBoot) F.pcieBoot_GO
  | 7 => s.flag (rg .pcieAttctl) F.pcieAttctl_DONE
  | k => decide (8 ≤ k) && bit (s.reg (rg .pcieHdb)) (k - 8)

/-! ### The link and configuration (R438, R439, R449) -/

/-- The function's D-state changes (R445, R449). -/
def State.pcieD3 (s : State) (d3 : Bool) : State :=
  let x := rg .pcieLink
  if s.flag x F.pcieLink_D3 = d3 then s
  else (s.setF x F.pcieLink_D3 (b2n d3)).setF x F.pcieLink_DCHG 1

/-- The port is ready at the latest 20 ms after POR_N rose (R438). -/
def State.pcieReady (s : State) (early : Bool) : State :=
  s.modPcie fun p => { p with ready := p.ready || early || decide (msTicks 20 ≤ s.ns) }

/-- A Configuration Request (R438): Retry Status until ready. A write of PowerState takes the function to D3hot or D0. -/
def State.pcieConfig (s : State) (q : CfgReq) (early : Bool) : State :=
  let s := s.pcieReady early
  if !s.pcie.ready then { s with answer := some .retry }
  else
    match q with
    | .read k => { s with answer := some (.data (s.cfgRead k).toNat) }
    | .write k be v =>
      let s := s.cfgStore k be v
      let s := if k.val = 17 && be.getLsbD 0 && (bits v 0 2 = 0 || bits v 0 2 = 3) then s.pcieD3 (bits v 0 2 = 3) else s
      { s with answer := some (.data 0) }

/-- A request TLP? -/
def Tlp.isRequest : Tlp → Bool
  | .read .. | .write .. => true
  | _ => false

/-- A write's last TLP has been sent, or will not be: the write ends at its requester with `status` (R208, R443). -/
def State.writeEnd (s : State) (addr len : Nat) (ends : Option ReqWho) (status : Nat) : State :=
  match ends with
  | some who => s.reqEnd { tag := 0, who, pcie := true, write := true, addr, len, port := 6, due := none } status false 0
  | none => s

/-- A request TLP that is not sent ends its request with an error (R443). -/
def State.refuseTlp (s : State) : Tlp → State
  | .read tag .. =>
    match s.reqs.find? fun q => q.tag = tag && q.pcie with
    | some q => (s.dropReq tag).reqEnd q 1 false 0
    | none => s
  | .write addr l ends => s.writeEnd addr l.length ends 1
  | _ => s

/-- Hot Reset or DL_Down (R438): configuration space and the MSI-X table are reset, and the outstanding outbound requests
abandoned: each ends at its requester with an error (DEDUCED, log entry 35). -/
def State.hotReset (s : State) : State :=
  let unsent := s.pcie.tlps
  let s := s.modPcie fun p => { p with cfg := [], table := [], pba := 0, tlps := [] }
  let s := s.pcieD3 false
  let s := unsent.foldl (fun s t => match t with
    | .write .. => s.refuseTlp t
    | _ => s) s
  let gone := s.reqs.filter (·.pcie)
  let s := { s with reqs := s.reqs.filter fun q => !q.pcie }
  gone.foldl (fun s q => s.reqEnd q 1 false 0) s

/-- The link comes up, goes down or changes rate, width or L1: PCIE_LINK and STCHG (R449); DL_Down resets (R438). -/
def State.pcieLinkChange (s : State) (rate : Option (Fin 4)) (width : Fin 3) (up l1 : Bool) : State :=
  let x := rg .pcieLink
  let w := s.reg x
  let up := up && rate.isSome
  let speed := match rate with | some g => g.val + 1 | none => 0
  let width := if rate.isSome then 2 ^ width.val else 0
  let w' := setBits (setBits (setBits (setBits w 0 3 speed) 3 3 width) 6 1 (b2n up)) 7 1 (b2n (l1 && rate.isSome))
  if w' = w then s
  else
    let s := (s.setReg x w').setF x F.pcieLink_STCHG 1
    if F.pcieLink_UP.of w = 1 && !up then s.hotReset else s

/-! ### MSI-X (R441, R444, R457) -/

/-- Words of the MSI-X table after reset: every vector's mask bit is 1 (PRESUMED, log entry 36). -/
def msixDefault (k : Nat) : Word := if k % 4 = 3 then 1 else 0

/-- Word k of the MSI-X table. -/
def State.msixWord (s : State) (k : Nat) : Word := sparseGet msixDefault s.pcie.table k

def State.setMsixWord (s : State) (k : Nat) (v : Word) : State :=
  s.modPcie fun p => { p with table := sparseSet msixDefault p.table k v }

/-- Is vector v masked, by its own mask or the Function Mask? -/
def State.msixMasked (s : State) (v : Nat) : Bool := s.fmask || bit (s.msixWord (4 * v + 3)) 0

/-- The message of vector v: its table entry's address and data. -/
def State.msixMessage (s : State) (v : Nat) : Tlp :=
  .message (Fin.ofNat 64 v) (s.msixWord (4 * v + 1) ++ s.msixWord (4 * v)) (s.msixWord (4 * v + 2))

/-- One vector of R444: a rise of its forwarded sources `now` sets the pending bit while the vector is masked; unmasked, a rise
or the pending bit sends the message where MSI-X Enable is 1 and the sources are 1. -/
def State.msixVector (now : BitVec 64) (v : Nat) (s : State) : State :=
  let rise := now.getLsbD v && !s.pcie.last.getLsbD v
  let one : BitVec 64 := 1#64 <<< v
  if !(rise || s.pcie.pba.getLsbD v) then s
  else if s.msixMasked v then (if rise then s.modPcie fun p => { p with pba := p.pba ||| one } else s)
  else if !s.msixEn then s
  else
    let m := s.msixMessage v
    s.modPcie fun p => { p with
      pba := p.pba &&& ~~~one
      tlps := if now.getLsbD v then p.tlps ++ [m] else p.tlps }

/-- The messages of R444, from the OR of the forwarded sources of each vector as it is now. -/
def State.msixSync (s : State) (now : BitVec 64) : State :=
  if now = s.pcie.last && s.pcie.pba = 0 then s
  else (forN 64 (State.msixVector now) s).modPcie fun p => { p with last := now }

/-- In a tick the port sends one TLP while its data link is up (DESIGN CHOICE, log entry 109). While Bus Master Enable is 0
nothing is sent and the first request waiting ends with an error (R443); MSI-X and error messages stay. -/
def State.pcieTick (s : State) : State :=
  if !s.bme then
    match s.pcie.tlps.find? Tlp.isRequest with
    | some t => (s.modPcie fun p => { p with tlps := p.tlps.erase t }).refuseTlp t
    | none => s
  else if s.flag (rg .pcieLink) F.pcieLink_UP then
    match s.pcie.tlps with
    | [] => s
    | t :: rest =>
      let s := s.modPcie fun p => { p with tlps := rest }
      match t with
      | .write addr l ends => s.writeEnd addr l.length ends 0
      | _ => s
  else s

end Sys2Proof.Machine
end

