-- ==== Sys2Proof/Machine/Annex.lean ====
section
/-! DEFINITION. The Annex: configuration port, regions, windows and image loads (12_annex_fabric.md R338 to R365). -/

namespace Sys2Proof.Machine

/-! ### Regions -/

/-- Every frame of a region cleared. -/
def State.clearFrames (s : State) (r : Nat) : State :=
  s.modAnnex fun x => { x with frames := x.frames.filter fun e => e.1 / 2048 ≠ r }

/-- The answer to a window request is on its way; nobody waits for one of a stopped channel (R253). -/
def State.winReply (s : State) (q : WinReq) (v : Option Nat) : State :=
  if q.dead then s else { s with replies := s.replies ++ [(q.who, v)] }

/-- The pins of region r that are driven as it leaves LIVE keep their level for CFG_SAFE 0b11 (R345); its logic ends. -/
def State.keepLevels (s : State) (r : Fin 32) : State :=
  let lvl (p : Nat) : Option Bool := if s.pinOfRegion (12 * r + p) r then (s.regionCell r p).drive else none
  let mask (f : Nat → Bool) : BitVec 12 := BitVec.ofNat 12 (((List.range 12).map fun p => if f p then 2 ^ p else 0).sum)
  s.modLogic r fun _ => { keptOut := mask fun p => lvl p = some true, keptOe := mask fun p => (lvl p).isSome }

/-- A region taken out of LIVE: its window requests end with an error (R347), its interrupt output presents 0 (R348). -/
def State.leaveLive (s : State) (r : Nat) : State :=
  if s.regionState r ≠ 2 then s
  else
    let s := s.keepLevels (Fin.ofNat 32 r)
    let mine (q : WinReq) : Bool := q.region = r && q.reached
    let ended := s.annex.wins.filter mine
    let s := s.modAnnex fun x => { x with wins := x.wins.filter (fun q => !mine q), irq := setBits x.irq r 1 0 }
    ended.foldl (fun s q => s.winReply q none) s

/-- A region tainted (R353). -/
def State.taint (s : State) (r : Nat) : State := if s.regionState r = 1 then s.setRegionState r 3 else s

/-- Does an I/O frame hold a reserved value (R344)? -/
def ioReserved (v : BitVec 1024) : Bool :=
  v.toNat >>> 192 ≠ 0 || (List.range 12).any fun p =>
    let x := (v.toNat >>> (16 * p)) % 2 ^ 16
    x / 128 ≠ 0 || x / 16 % 4 = 3 || (x / 16 % 4 ≠ 0 && x / 64 % 2 = 1)

/-- LIVE regions other than r whose driver frame f enables line b (R343). -/
def State.otherDriver (s : State) (r f b : Nat) : Option Nat :=
  lowest (fun q => q ≠ r && s.regionState q = 2 && (s.frame q f).getLsbD b) 32

/-- The first line of a driver frame that another LIVE region already drives: line and region. -/
def State.driveClash (s : State) (r f : Nat) (v : BitVec 1024) : Option (Nat × Nat) :=
  (List.range 1024).findSome? fun b => if v.getLsbD b then (s.otherDriver r f b).map fun q => (b, q) else none

/-- ANNEX_CONFLICT captures a line and both regions (R356, R357, R364). -/
def State.conflict (s : State) (f b r q : Nat) (drive : Bool) : State :=
  let gn := f = frameGn
  let x := rg .annexConflict
  let line := if gn then b else 1024 * (f - 0x44B) + b
  let s := if s.flag x F.annexConflict_CAPV then s
    else s.setReg x (setBits (setBits (setBits (setBits (setBits (s.reg x) 0 11 line) 11 1 (b2n gn)) 12 5 r) 17 5 q) 30 1 1)
  if drive then s.setF x F.annexConflict_DRIVE_CONFLICT 1 else s

/-! ### FCLK (R340 to R343) -/

/-- The logic of every LIVE region at one FCLK edge, from the state before it; pads that nothing drives have free levels
(log entries 14, 103). -/
def State.fabricIn (s : State) (ext : BitVec 384) (r : Fin 32) : FabricIn where
  frames := s.annex.frames.filterMap fun e =>
    if e.1 / 2048 = r.val && decide (e.1 % 2048 < 0x400) then some (e.1 % 2048, e.2) else none
  ff := (s.logic r).ff
  pins := BitVec.ofNat 12 (((List.range 12).map fun p => if s.pinLevel ext (12 * r + p) then 2 ^ p else 0).sum)
  cols := BitVec.ofNat 2048 (((List.range 2048).map fun b => if s.lineValue b then 2 ^ b else 0).sum)
  gns := BitVec.ofNat 16 (((List.range 16).map fun b => if s.lineValue (2048 + b) then 2 ^ b else 0).sum)
  spans := (List.range 9).map fun i =>
    if h : 4 ≤ r.val + i ∧ r.val + i < 36 then
      let q : Fin 32 := ⟨r.val + i - 4, by omega⟩
      some (if s.regionState q = 2 then (s.logic q).span else 0)
    else none
  read := (s.logic r).read.toList
  win := (s.annex.wins.find? fun q => q.region = r.val && q.reached).map fun q =>
    { offset := q.offset, be := BitVec.ofNat 8 ((2 ^ q.size - 1) * 2 ^ (q.offset % 8)), data := q.data }

/-- What a region's logic made of an FCLK edge takes effect: its outputs, and its block RAMs (R341). -/
def State.fabricOut (s : State) (r : Fin 32) (o : FabricOut) : State :=
  let q := (s.logic r).read
  let x := ramCycle o.ramX.1 (s.bram r 0) o.ramX.2.1 o.ramX.2.2 q[0] q[1]
  let y := ramCycle o.ramY.1 (s.bram r 1) o.ramY.2.1 o.ramY.2.2 q[2] q[3]
  let s := s.modLogic r fun g => { g with
    ff := o.ff, out := o.out, oe := o.oe, drv := o.drv, span := o.span, read := #v[x.2.1, x.2.2, y.2.1, y.2.2] }
  (s.setBram r 0 x.1).setBram r 1 y.1

/-- One FCLK edge: every LIVE region acts on what stood before it. -/
def State.fclkEdge (s : State) : State :=
  let live := (List.finRange 32).filter fun r : Fin 32 => s.regionState r = 2
  if live.isEmpty then s
  else
    let ext := BitVec.ofNat 384 ((List.range 12).foldr (fun i v => (Config.freeWord (s.free + i)).toNat + 2 ^ 32 * v) 0)
    let outs := live.map fun r => (r, Config.fabric (s.fabricIn ext r))
    outs.foldl (fun s o => s.fabricOut o.1 o.2) { s with free := s.free + 12 }

/-- Several FCLK edges. -/
def State.fclkEdges (n : Nat) (s : State) : State := forN n (fun _ s => s.fclkEdge) s

/-- The FCLK edges, at 400 MHz, of the nanosecond that has just passed (R340). -/
def State.fclkTick (s : State) : State := State.fclkEdges (2 * s.ns / 5 - 2 * (s.ns - 1) / 5) s

/-! ### Packets (R350 to R358) -/

/-- Header fields (R350). -/
def hdrCmd (h : Word) : Nat := bits h 28 4
def hdrRegion (h : Word) : Nat := bits h 23 5
def hdrFrame (h : Word) : Nat := bits h 12 11

/-- A reserved CMD, nonzero reserved bits, or a FRAME where none belongs (status 0x02). -/
def hdrBad (h : Word) : Bool :=
  decide (6 < hdrCmd h) || bits h 0 12 ≠ 0 || (hdrFrame h ≠ 0 && hdrCmd h ≠ 2 && hdrCmd h ≠ 3)

/-- Words of a packet. -/
def packetWords (cmd : Nat) : Nat := if cmd = 2 then 34 else 2

/-- A frame from its 32 words. -/
def frameOfWords (ws : List Word) : BitVec 1024 := BitVec.ofNat 1024 (numLE (wordBytes ws))

/-- OPEN (R351, R354): the region leaves LIVE, its frames are cleared, later packets wait. -/
def State.openRegion (s : State) (r : Nat) : State :=
  let s := ((s.leaveLive r).clearFrames r).setRegionState r 1
  s.modAnnex fun x => { x with clearing := some r }

/-- ABORT (R351). -/
def State.abortRegion (s : State) (r : Nat) : State :=
  (((s.leaveLive r).clearFrames r).setRegionState r 0).freePinsBy fun p => s.pinOfRegion p r

/-- Step 1 of COMMIT (R355): pins claimed or released by the I/O frame. -/
def State.commitPins (s : State) (r : Nat) : State :=
  forN 12 (fun p s =>
    let pin := 12 * r + p
    let use := (s.frame r frameIo).getLsbD (16 * p)
    if use then
      (if s.pinHolder pin = 0 then s.setHolder pin 3 0 r
       else if s.pinOfRegion pin r then s
       else s.capture (rg .annexClaim) F.annexClaim_CLAIM_FAIL F.annexClaim_MULTI fun w =>
         setBits (setBits (setBits w 0 10 pin) 10 5 r) 15 4 0)
    else if s.pinOfRegion pin r then s.freePin pin else s) s

/-- COMMIT (R355, R357): status 0x08 when a driver meets another LIVE region's. -/
def State.commitRegion (s : State) (r : Nat) : State × Nat :=
  let s := s.commitPins r
  let clash := [0x44B, 0x44C, frameGn].findSome? fun f => (s.driveClash r f (s.frame r f)).map fun c => (f, c)
  let ff := s.flops (Fin.ofNat 32 r)
  let s := (s.setRegionState r 2).modLogic (Fin.ofNat 32 r) fun _ => { ff }
  match clash with
  | some (f, b, q) => (s.conflict f b r q true, 8)
  | none => (s, 0)

/-- CAPTURE (R358): the flip-flops of the region. -/
def State.captureRegion (s : State) (r : Nat) : State :=
  let ff := s.flops (Fin.ofNat 32 r)
  let v (i : Nat) : BitVec 1024 := BitVec.ofNat 1024 (ff.toNat >>> (1024 * i))
  (s.setFrame r frameCapture (v 0)).setFrame r (frameCapture + 1) (v 1)

/-- A WRITE packet whose region is LOADING (R352, R353, R356). -/
def State.writeFrame (s : State) (r f : Nat) (v : BitVec 1024) : State × Nat :=
  if frameCapture ≤ f then (s.taint r, 3)
  else if (f = frameIo && ioReserved v) || (f = frameGn && v.toNat >>> 16 ≠ 0) then (s.taint r, 6)
  else
    match (if 0x44B ≤ f then s.driveClash r f v else none) with
    | some (b, q) => ((s.conflict f b r q false).taint r, 5)
    | none => (s.setFrame r f v, 0)

/-- READ (R351, R352): the words of a frame, each as it stands when it is read, and their CRC go to the read FIFO; the FCLK runs
on between two words. -/
def State.readFrame (s : State) (r f edges : Nat) : State :=
  let t := forN 32 (fun i (t : State × List Word) =>
    let s := if i = 0 then t.1 else t.1.fclkEdges edges
    (s, t.2 ++ [BitVec.ofNat 32 ((s.frame r f).toNat >>> (32 * i))])) (s, [])
  t.1.modAnnex fun x => { x with rfifo := x.rfifo ++ t.2 ++ [crc32c (wordBytes t.2)] }

/-- Is a hallmark required on the direct port (R353, R360)? -/
def State.hallRequired (s : State) : Bool := s.otpFlag otpAnnexSigned

/-- A packet with a good header and CRC: the state and its status. The order of the checks is the model's where the spec
gives none (DEDUCED, log entry 30). `edges`: FCLK edges between the words of a READ, or before a CAPTURE. -/
def State.applyPacket (s : State) (image : Bool) (h : Word) (data : List Word) (edges : Nat) : State × Nat :=
  let r := hdrRegion h
  let f := hdrFrame h
  let st := s.regionState r
  if !image && s.hallRequired && (hdrCmd h = 1 || hdrCmd h = 2 || hdrCmd h = 4) then (s, 7)
  else match hdrCmd h with
    | 1 => (s.openRegion r, 0)
    | 2 => if st = 1 || st = 3 then s.writeFrame r f (frameOfWords data) else (s, 4)
    | 3 =>
      if frameEnd ≤ f then (s.taint r, 3)
      else (s.readFrame r f edges, 0)
    | 4 => if st = 3 then (s, 9) else if st = 1 then s.commitRegion r else (s, 4)
    | 5 => (s.abortRegion r, 0)
    | 6 => ((s.fclkEdges edges).captureRegion r, 0)
    | _ => (s, 0)

/-- The end of a packet (R353). -/
def State.packetStatus (s : State) (h : Word) (st : Nat) : State :=
  let x := rg .annexCfgStat
  let s := s.setF x F.annexCfgStat_LAST st
  let s := if st = 1 || st = 2 then
    (s.setF x F.annexCfgStat_DISCARD 1).modAnnex fun a => { a with wfifo := [] } else s
  if st = 0 || st = 8 then s
  else
    let s := s.setF x F.annexCfgStat_ERRCNT (satAdd (s.getF x F.annexCfgStat_ERRCNT) 1 255)
    if s.flag x F.annexCfgStat_ERRV then s.setF x F.annexCfgStat_MULTI 1
    else (s.setReg (rg .annexCfgErr) h).setF x F.annexCfgStat_ERRV 1

/-- Would the packet have to wait: its frames being cleared, or no room for a READ (R351)? -/
def State.packetWaits (s : State) (cmd : Nat) : Bool :=
  s.annex.clearing.isSome || (cmd = 3 && decide (31 < s.annex.rfifo.length))

/-- A whole packet, its last word the CRC (R350, R353). -/
def State.packet (s : State) (image : Bool) (ws : List Word) (edges : Nat := 0) : State × Nat :=
  let h := ws.headD 0
  let body := ws.dropLast
  if crc32c (wordBytes body) ≠ ws.getLastD 0 then ((s.taint (hdrRegion h)).packetStatus h 1, 1)
  else
    let t := s.applyPacket image h body.tail edges
    (t.1.packetStatus h t.2, t.2)

/-- The port takes the packet at the head of its FIFO, when it is one of command `cmd`; a bad header ends there (R353). -/
def State.annexPort (s : State) (cmd : Nat) (edges : Nat := 0) : State :=
  match s.annex.wfifo with
  | [] => s
  | h :: _ =>
    if s.packetWaits (hdrCmd h) then s
    else if hdrBad h then s.packetStatus h 2
    else if hdrCmd h ≠ cmd then s
    else
      let n := packetWords cmd
      if s.annex.wfifo.length < n then s
      else
        let ws := s.annex.wfifo.take n
        ((s.modAnnex fun x => { x with wfifo := x.wfifo.drop n }).packet false ws edges).1

/-- The clearing of frames after OPEN ends (R351). -/
def State.frameClearEnd (s : State) : State := s.modAnnex fun x => { x with clearing := none }

/-! ### Windows (R346, R347) -/

/-- The entry of a buffered window write is freed when the interface has accepted its request (R183). -/
def State.windowAccepted (s : State) (who : ReqWho) : State :=
  match who with
  | .store h => s.modSeq h fun q => { q with wbuf := match q.wbuf with
      | e :: l => if e.sent then l else e :: l
      | [] => [] }
  | _ => s

/-- The oldest request that has not reached its interface does so; one to a region that is not LIVE ends in error. -/
def State.winReach (s : State) : State :=
  match s.annex.wins.find? fun q => !q.reached with
  | none => s
  | some q =>
    let s := s.windowAccepted q.who
    let before := s.annex.wins.takeWhile (·.reached)
    let after := (s.annex.wins.dropWhile (·.reached)).tail
    if s.regionState q.region = 2 then
      s.modAnnex fun x => { x with wins := before ++ [{ q with reached := true }] ++ after }
    else
      (s.modAnnex fun x => { x with wins := before ++ after }).winReply q none

/-- The oldest request that a region holds, and the others. -/
def State.winTake (s : State) (r : Nat) : Option (WinReq × State) :=
  match s.annex.wins.find? fun q => q.region = r && q.reached with
  | none => none
  | some q => some (q, s.modAnnex fun x => { x with wins := x.wins.erase q })

/-- A counter of ANNEX_WSTAT saturates (R364). -/
def State.winCount (s : State) (f : Field) : State :=
  s.setF (rg .annexWstat) f (satAdd (s.getF (rg .annexWstat) f) 1 (2 ^ f.width - 1))

/-- The region answers its oldest request, or an answer owed after a timeout comes late; `irq` is its interrupt output
(R347, R348; log entry 32). -/
def State.winAnswer (s : State) (g : Fin 32) (data : BitVec 64) (late irq : Bool) : State :=
  if s.regionState g ≠ 2 then s
  else
    let s := s.modAnnex fun x => { x with irq := setBits x.irq g 1 (b2n irq) }
    if late then
      let owed := s.annex.owed[g]
      if owed = 0 then s
      else (s.modAnnex fun x => { x with owed := x.owed.set g (owed - 1) }).winCount F.annexWstat_LATE
    else
      match s.winTake g with
      | none => s
      | some (q, s) => s.winReply q (some (data.toNat % 2 ^ (8 * q.size)))

/-- The oldest request of a region times out (R347). -/
def State.winTimeout (s : State) (g : Fin 32) : State :=
  if s.getF (rg .annexWtmo) F.annexWtmo_TIMEOUT = 0 then s
  else match s.winTake g with
    | none => s
    | some (q, s) =>
      ((s.modAnnex fun x => { x with owed := x.owed.set g (x.owed[g] + 1) }).winCount F.annexWstat_TIMEOUTS).winReply q none

/-- A new request to a window (R346): region and offset of an address in the window range. -/
def State.winSend (s : State) (who : ReqWho) (a size : Nat) (data : Option Nat) : State :=
  let o := a - 0x60000000
  s.modAnnex fun x => { x with wins := x.wins ++ [{ who, region := o / 0x800000, offset := o % 0x800000, size, data }] }

/-! ### Image loads (R359 to R361) -/

/-- Lengths of the parts of an image. -/
def keyLen : Nat := 2592
def sigLen : Nat := 4627

/-- The end of an image load (R360). -/
def State.imgEnd (s : State) (err : Nat) : State :=
  let x := rg .annexImgStat
  let s := ((s.setF x F.annexImgStat_BUSY 0).setF x F.annexImgStat_DONE 1).setF x F.annexImgStat_ERR err
  { s with verQ := s.verQ.filter fun j => match j with | .annex _ _ => false | _ => true }

/-- What feeding packets answers: an error code (0 for none), regions opened, COMMITs held back, the words not yet fed, and
whether a READ waits for room. -/
structure Feed where
  state : State
  err : Nat := 0
  opened : List Nat
  held : List Word
  rest : List Word
  waits : Bool := false

/-- The packets of an image, in order (R360 step 4); `good` words can be read before an uncorrectable error (code 0x09). A
READ without room for its words waits (R351). -/
def feedPackets (hall : Bool) (regions : Word) : Nat → Nat → Feed → Feed
  | 0, _, f => f
  | n + 1, good, f =>
    match f.rest with
    | [] => f
    | h :: _ =>
      let s := f.state
      if good = 0 then { f with err := 9 }
      else if s.flag (rg .annexCfgStat) F.annexCfgStat_DISCARD then { f with err := 8 }
      else if hdrBad h then { f with state := s.packetStatus h 2, err := 8 }
      else
        let k := packetWords (hdrCmd h)
        let p := f.rest.take k
        let rest := f.rest.drop k
        if decide (good < k) then { f with err := 9 }
        else if hdrCmd h = 3 && decide (31 < s.annex.rfifo.length) then { f with waits := true }
        else if hdrCmd h = 1 && !bit regions (hdrRegion h) then { f with err := 11 }
        else if hall && hdrCmd h = 4 && crc32c (wordBytes p.dropLast) = p.getLastD 0 then
          feedPackets hall regions n (good - k) { f with held := f.held ++ [h], rest }
        else
          let t := s.packet true p
          let f := { f with
            rest
            state := t.1.frameClearEnd
            opened := if hdrCmd h = 1 && t.2 = 0 then f.opened ++ [hdrRegion h] else f.opened }
          if t.2 = 0 || t.2 = 8 then feedPackets hall regions n (good - k) f else { f with err := 8 }

/-- The held COMMITs in ascending region order (R360 step 6), those of one region in the order of the stream. -/
def State.heldCommits (s : State) (held : List Word) : State × Nat :=
  let order := (List.range 32).flatMap fun r => held.filter fun h => hdrRegion h = r
  order.foldl (fun (s, e) h =>
    if e ≠ 0 then (s, e)
    else
      let t := s.applyPacket true h [] 0
      (t.1.packetStatus h t.2, if t.2 = 0 || t.2 = 8 then 0 else 8)) (s, 0)

/-- A load that held back COMMITs and fails aborts every region it opened (R360). -/
def State.imgFail (s : State) (j : ImgLoad) (err : Nat) : State :=
  (if j.held.isEmpty then s else j.opened.foldl State.abortRegion s).imgEnd err

/-- The header of an image (R359): 0 or an error code of R361. -/
def imgHeaderErr (b : List Byte) : Nat :=
  if part b 0 4 ≠ [0x50, 0x46, 0x41, 0x58] then 2
  else if field b 4 2 ≠ 1 || field b 6 2 ≠ 0x80 then 3
  else if decide (1 < field b 8 4) || field b 0xC 4 = 0 || field b 0x10 4 % 8 ≠ 0 || decide (field b 0x10 4 < 8) ||
      decide (0x01000000 < field b 0x10 4) || !zeroPart b 0x18 40 || !zeroPart b 0x60 32 then 4
  else 0

/-- The words of bytes. -/
def bytesWords (l : List Byte) : List Word := (List.range (l.length / 4)).map fun i => BitVec.ofNat 32 (field l (4 * i) 4)

/-- Words of `n` bytes at `a` that can be read before the first uncorrectable error or bank that is not ON. -/
def State.goodWords (s : State) (a n : Nat) : Nat :=
  (lowest (fun i => s.eccBad (a + 4 * i) 4 || s.bankSt (a + 4 * i) ≠ .on) (n / 4)).getD n

/-- Packets of an image as they can be read: the state, the words that can be read, the bytes; none while a bank wakes. -/
def State.imgPackets (s : State) (a n : Nat) : Option (State × Nat × List Byte) :=
  match s.imgRead 8 a n with
  | (_, .wait) => none
  | (s, .bytes l) => some (s, n, l)
  | (t, .error) => some (t, s.goodWords a n, s.memBytes a n)

/-- What an image load still has to do is left for later: a bank wakes, or a READ waits for room. -/
def State.imgSave (s : State) (h : Fin 4) (j : ImgLoad) : State := { s with verQ := .annex h (some j) :: s.verQ.tail }

/-- Does the image have a hallmark, where do its packets begin, and how long are they (R359)? -/
def ImgLoad.hall (j : ImgLoad) : Bool := field j.seen 8 4 = 1
def ImgLoad.packetsAt (j : ImgLoad) : Nat := 128 + if j.hall then keyLen else 0
def ImgLoad.packetsLen (j : ImgLoad) : Nat := field j.seen 0x10 4

/-- The signature read and verified over what was read before, and the held COMMITs (R360 stages 5 and 6). -/
def State.imgSignature (s : State) (h : Fin 4) (j : ImgLoad) : State :=
  if !j.hall then s.imgEnd 0
  else match s.imgRead 8 (j.src + j.seen.length) sigLen with
    | (_, .wait) => s.imgSave h j
    | (s, .error) => s.imgFail j 9
    | (s, .bytes sig) =>
      if !Config.mldsaVerify (part j.seen 128 keyLen) (Config.sha3 j.seen) sig then s.imgFail j 6
      else
        let t := s.heldCommits j.held
        if t.2 = 0 then t.1.imgEnd 0 else t.1.imgFail j t.2

/-- The packets not yet fed are read and fed (R360 stage 4). -/
def State.imgFeed (s : State) (h : Fin 4) (j : ImgLoad) : State :=
  let n := j.packetsAt + j.packetsLen - j.seen.length
  match s.imgPackets (j.src + j.seen.length) n with
  | none => s.imgSave h j
  | some (t, good, raw) =>
    let f := feedPackets j.hall (BitVec.ofNat 32 (field j.seen 0xC 4)) n good
      { state := t, opened := j.opened, held := j.held, rest := bytesWords raw }
    let j := { j with seen := j.seen ++ raw.take (raw.length - 4 * f.rest.length), opened := f.opened, held := f.held }
    if f.err ≠ 0 then f.state.imgFail j f.err
    else if f.waits then f.state.imgSave h j
    else f.state.imgSignature h j

/-- The key read, and checked against the OTP slots (R360 stage 3). -/
def State.imgKey (s : State) (h : Fin 4) (j : ImgLoad) : State :=
  if !j.hall || decide (j.packetsAt ≤ j.seen.length) then s.imgFeed h j
  else match s.imgRead 8 (j.src + 128) keyLen with
    | (_, .wait) => s.imgSave h j
    | (s, .error) => s.imgEnd 9
    | (s, .bytes key) =>
      if (s.keySlot key).isNone then s.imgEnd 5 else s.imgFeed h { j with seen := j.seen ++ key }

/-- The source, the port's owner and the header (R360 stages 1 and 2). A bank that is not ON ends the load with 0x09 (DEDUCED,
log entry 31). -/
def State.imgStart (s : State) (h : Fin 4) : State :=
  let a := (s.reg (rg .annexImgSrc)).toNat
  if a % 8 ≠ 0 || !inRam a 128 then s.imgEnd 1
  else if s.getF (rg .annexCfgCtl) F.annexCfgCtl_OWNER ≠ h.val + 1 then s.imgEnd 10
  else match s.imgRead 8 a 128 with
    | (_, .wait) => s
    | (s, .error) => s.imgEnd 9
    | (s, .bytes hd) =>
      let j : ImgLoad := { src := a, seen := hd }
      let e := imgHeaderErr hd
      if e ≠ 0 then s.imgEnd e
      else if !inRam a (j.packetsAt + j.packetsLen + if j.hall then sigLen else 0) then s.imgEnd 1
      else if !j.hall && s.hallRequired then s.imgEnd 7
      else s.imgKey h j

/-- ANNEX_IMAGE_LOAD_END: the verification engine serves one job at a time, in order of arrival (R510). The load runs to its
end, or until a bank wakes or a READ waits for room (R351, R360). -/
def State.imageLoadEnd (s : State) : State :=
  match s.verQ with
  | .annex h none :: _ => s.imgStart h
  | .annex h (some j) :: _ =>
    if j.seen.length < j.packetsAt + j.packetsLen then s.imgKey h j else s.imgSignature h j
  | _ => s

/-! ### Register accesses -/

/-- A refused write or read of the configuration port (R349). -/
def State.portRefuse (s : State) (r : Requester) : State :=
  s.capture (rg .annexClaim) F.annexClaim_CLAIM_FAIL F.annexClaim_MULTI fun w =>
    setBits (setBits (setBits w 0 10 0x180) 10 5 0) 15 4 (reqCode r)

/-- Does a requester own the configuration port (a DMA channel with its own OWNER, R349)? -/
def State.ownsPort (s : State) (r : Requester) : Bool :=
  let o := s.porchOwner r
  o.isSome && some (s.getF (rg .annexCfgCtl) F.annexCfgCtl_OWNER) = o

/-- RESYNC (R353, R363). -/
def State.annexResync (s : State) : State :=
  (s.setF (rg .annexCfgStat) F.annexCfgStat_DISCARD 0).modAnnex fun x => { x with wfifo := [] }

/-- A write of CFG_DATA by the owner (R349, R350, R353). -/
def State.cfgData (s : State) (v : Word) : State :=
  let x := rg .annexCfgStat
  if s.flag (rg .annexImgStat) F.annexImgStat_BUSY then s.setF x F.annexCfgStat_DROP 1
  else if s.flag x F.annexCfgStat_DISCARD then s
  else s.modAnnex fun a => { a with wfifo := a.wfifo ++ [v] }

/-- Reserved encodings of the block. -/
def annexReserved (x : Reg) (v : Word) : Bool :=
  match x.fam with
  | .annexCfgCtl => decide (5 < F.annexCfgCtl_OWNER.of v)
  | _ => false

/-- Is a write held by the block because the port's FIFO is full (R350)? -/
def State.annexHolds (s : State) (r : Requester) (x : Reg) : Bool :=
  x.fam = .annexCfgData && s.ownsPort r && !s.flag (rg .annexImgStat) F.annexImgStat_BUSY &&
    !s.flag (rg .annexCfgStat) F.annexCfgStat_DISCARD && decide (64 ≤ s.annex.wfifo.length)

/-- Writes of the block. -/
def State.annexWrite (s : State) (r : Requester) (x : Reg) (v : Word) : State :=
  match x.fam with
  | .annexCfgCtl =>
    let go (s : State) : State := if F.annexCfgCtl_RESYNC.of v = 1 then s.annexResync else s
    (match ownerRuleOf (s.porchOwner r) (s.getF x F.annexCfgCtl_OWNER) (F.annexCfgCtl_OWNER.of v) with
      | .claim => go (s.setF x F.annexCfgCtl_OWNER (F.annexCfgCtl_OWNER.of v))
      | .keep => go s
      | .release => s.setF x F.annexCfgCtl_OWNER 0
      | .nothing => s
      | .refuse => s.portRefuse r)
  | .annexCfgData => if s.ownsPort r then s.cfgData v else s.portRefuse r
  | .annexCfgStat =>
    let s := s.writeDefault x v
    if F.annexCfgStat_ERRV.of v = 1 then s.setF x F.annexCfgStat_ERRCNT 0 else s
  | .annexWstat =>
    if F.annexWstat_CLR.of v = 1 then (s.setF x F.annexWstat_TIMEOUTS 0).setF x F.annexWstat_LATE 0 else s
  | .annexImgSrc => if fromSeq r then s.writeDefault x v else s
  | .annexImgCtl =>
    (match r with
      | .seq h =>
        if F.annexImgCtl_GO.of v = 1 && !s.flag (rg .annexImgStat) F.annexImgStat_BUSY then
          let s := s.setF (rg .annexImgStat) F.annexImgStat_BUSY 1
          { s with verQ := s.verQ ++ [.annex h] }
        else s
      | _ => s)
  | .annexSafe => if s.ownsPort r then s.writeDefault x v else s.portRefuse r
  | _ => s.writeDefault x v

/-- A read of CFG_RDATA (R349, R351). -/
def State.cfgRdata (s : State) (r : Requester) : State × Word :=
  if s.ownsPort r then
    match s.annex.rfifo with
    | [] => (s.setF (rg .annexCfgStat) F.annexCfgStat_RDUNF 1, 0)
    | w :: ws => (s.modAnnex fun x => { x with rfifo := ws }, w)
  else (s.portRefuse r, 0)

/-- Reads of the block. -/
def State.annexRegRead (s : State) (r : Requester) (x : Reg) : State × Word :=
  match x.fam with
  | .annexCfgRdata => s.cfgRdata r
  | .annexCfgStat => (s, setBits (s.reg x) 11 7 s.annex.wfifo.length)
  | _ => (s, s.reg x)

/-- Source 712 + r (R348). -/
def State.annexSource (s : State) (src : Nat) : Bool := bit s.annex.irq (src - 712)

/-- Every region back to UNCONF with its frames at 0, pins released (R362). -/
def State.annexClear (s : State) : State :=
  let s := forN 32 (fun r s => s.abortRegion r) s
  s.modAnnex fun x => { x with clearing := none, logic := Vector.replicate 32 {} }

end Sys2Proof.Machine
end

