-- ==== Sys2Proof/Machine/Fp.lean ====
section
/-! DEFINITION. Binary32 arithmetic of the lanes and of the scalar unit (04_word_lanes_and_floating_point.md R103 to
R117): exact integer arithmetic, then one rounding. Flags are a number of six bits: IV 1, DZ 2, OF 4, UF 8, IX 16,
SB 32 (R96). -/

namespace Sys2Proof.Machine

/-- A result word and its flags. -/
abbrev FpRes := Word × Nat

def fIV : Nat := 1
def fDZ : Nat := 2
def fOF : Nat := 4
def fUF : Nat := 8
def fIX : Nat := 16
def fSB : Nat := 32

/-- What an operand reads as (R103 to R105): a NaN, an infinity, or (-1)^neg * m * 2^e. -/
inductive FVal where
  | nan (signalling : Bool)
  | inf (neg : Bool)
  | fin (neg : Bool) (m : Nat) (e : Int)
  deriving DecidableEq, Repr

/-- The default NaN (R104). -/
def defaultNaN : Word := 0x7FC00000

/-- An infinity. -/
def fpInf (neg : Bool) : Word := if neg then 0xFF800000 else 0x7F800000

/-- A zero. -/
def fpZero (neg : Bool) : Word := if neg then 0x80000000 else 0

/-- The largest finite value. -/
def fpMax (neg : Bool) : Word := if neg then 0xFF7FFFFF else 0x7F7FFFFF

/-- Reading an operand: a subnormal reads as zero of its own sign and sets SB (R105). -/
def fpRead (w : Word) : FVal × Nat :=
  let neg := bit w 31
  let e := bits w 23 8
  let fr := bits w 0 23
  if e = 255 then
    if fr = 0 then (.inf neg, 0) else (.nan (fr < 2 ^ 22), 0)
  else if e = 0 then (.fin neg 0 0, if fr = 0 then 0 else fSB)
  else (.fin neg (2 ^ 23 + fr) ((e : Int) - 150), 0)

/-- Does rounding away from zero happen: `q` the kept part, `rem` out of `2^sh` the dropped part; modes RNE 0, RTZ 1,
RUP 2, RDN 3 (R106). -/
def roundUp (rm : Nat) (neg : Bool) (q rem sh : Nat) : Bool :=
  if rem = 0 then false
  else match rm with
    | 0 => decide (2 ^ sh < 2 * rem) || (decide (2 * rem = 2 ^ sh) && decide (q % 2 = 1))
    | 1 => false
    | 2 => !neg
    | _ => neg

/-- The word of sign, 24-bit significand and exponent of its leading bit. -/
def fpPack (neg : Bool) (q : Nat) (ex : Int) : Word :=
  BitVec.ofNat 32 (b2n neg * 2 ^ 31 + (ex + 127).toNat * 2 ^ 23 + (q - 2 ^ 23))

/-- Overflow (R103, IEEE 754): infinity or the largest finite value by rounding mode. -/
def fpOverflow (rm : Nat) (neg : Bool) : FpRes :=
  let toInf := match rm with
    | 0 => true
    | 1 => false
    | 2 => !neg
    | _ => neg
  (if toInf then fpInf neg else fpMax neg, fOF + fIX)

/-- Rounding of the nonzero exact value (-1)^neg * m * 2^e; tininess is detected before rounding (R105). -/
def fpRound (rm : Nat) (neg : Bool) (m : Nat) (e : Int) : FpRes :=
  let len := Nat.log2 m + 1
  let ex : Int := e + (len : Int) - 1
  if ex < -126 then (fpZero neg, fUF + fIX + fSB)
  else
    let sh := len - 24
    let q := if len ≤ 24 then m * 2 ^ (24 - len) else m / 2 ^ sh
    let rem := if len ≤ 24 then 0 else m % 2 ^ sh
    let q' := if roundUp rm neg q rem sh then q + 1 else q
    let (q'', ex') := if q' = 2 ^ 24 then (2 ^ 23, ex + 1) else (q', ex)
    if 127 < ex' then fpOverflow rm neg
    else (fpPack neg q'' ex', if rem = 0 then 0 else fIX)

/-- The signed significand of a finite value. -/
def fpInt (neg : Bool) (m : Nat) : Int := if neg then -(m : Int) else m

/-- Exact sum of two finite values, rounded; an exact zero has the common sign, or is -0 only toward -∞. -/
def fpAddFin (rm : Nat) (n1 : Bool) (m1 : Nat) (e1 : Int) (n2 : Bool) (m2 : Nat) (e2 : Int) : FpRes :=
  if m1 = 0 ∧ m2 = 0 then (fpZero (if n1 = n2 then n1 else rm = 3), 0)
  else if m1 = 0 then fpRound rm n2 m2 e2
  else if m2 = 0 then fpRound rm n1 m1 e1
  else
    let e := min e1 e2
    let v : Int := fpInt n1 m1 * 2 ^ (e1 - e).toNat + fpInt n2 m2 * 2 ^ (e2 - e).toNat
    if v = 0 then (fpZero (rm = 3), 0)
    else fpRound rm (v < 0) v.natAbs e

/-- A NaN result (R104): IV when an operand signals or `inv` holds. -/
def fpNaN (vs : List FVal) (inv : Bool) : FpRes :=
  (defaultNaN, if inv || vs.any (fun v => v = .nan true) then fIV else 0)

/-- Is the operand a NaN? -/
def FVal.isNaN : FVal → Bool
  | .nan _ => true
  | _ => false

/-- Sum of two read values. -/
def fpAddV (rm : Nat) (x y : FVal) : FpRes :=
  match x, y with
  | .fin n1 m1 e1, .fin n2 m2 e2 => fpAddFin rm n1 m1 e1 n2 m2 e2
  | .inf a, .inf b => if a = b then (fpInf a, 0) else (defaultNaN, fIV)
  | .inf a, .fin .. => (fpInf a, 0)
  | .fin .., .inf b => (fpInf b, 0)
  | x, y => fpNaN [x, y] false

/-- The negation of a read value (for subtraction). -/
def FVal.neg : FVal → FVal
  | .nan s => .nan s
  | .inf n => .inf (!n)
  | .fin n m e => .fin (!n) m e

/-- A result with further flags. -/
def FpRes.with (r : FpRes) (fl : Nat) : FpRes := (r.1, r.2 ||| fl)

def fpAdd (rm : Nat) (a b : Word) : FpRes :=
  let x := fpRead a; let y := fpRead b
  (fpAddV rm x.1 y.1).with (x.2 ||| y.2)

def fpSub (rm : Nat) (a b : Word) : FpRes :=
  let x := fpRead a; let y := fpRead b
  (fpAddV rm x.1 y.1.neg).with (x.2 ||| y.2)

/-- Product of two read values: a rounded result. -/
def fpMulV (rm : Nat) (x y : FVal) : FpRes :=
  match x, y with
  | .fin n1 m1 e1, .fin n2 m2 e2 =>
    if m1 = 0 ∨ m2 = 0 then (fpZero (n1 != n2), 0) else fpRound rm (n1 != n2) (m1 * m2) (e1 + e2)
  | .inf a, .inf b => (fpInf (a != b), 0)
  | .inf a, .fin n m _ => if m = 0 then (defaultNaN, fIV) else (fpInf (a != n), 0)
  | .fin n m _, .inf b => if m = 0 then (defaultNaN, fIV) else (fpInf (n != b), 0)
  | x, y => fpNaN [x, y] false

def fpMul (rm : Nat) (a b : Word) : FpRes :=
  let x := fpRead a; let y := fpRead b
  (fpMulV rm x.1 y.1).with (x.2 ||| y.2)

/-- 0 × ∞ or ∞ × 0 (R104). -/
def zeroTimesInf : FVal → FVal → Bool
  | .fin _ m _, .inf _ => m = 0
  | .inf _, .fin _ m _ => m = 0
  | _, _ => false

/-- Fused multiply-add of read values: the exact product, the exact sum, one rounding. -/
def fpFmaV (rm : Nat) (x y z : FVal) : FpRes :=
  if zeroTimesInf x y then fpNaN [x, y, z] true
  else if x.isNaN || y.isNaN || z.isNaN then fpNaN [x, y, z] false
  else match x, y, z with
    | .fin n1 m1 e1, .fin n2 m2 e2, .fin n3 m3 e3 =>
      fpAddFin rm (n1 != n2) (m1 * m2) (e1 + e2) n3 m3 e3
    | .fin .., .fin .., .inf c => (fpInf c, 0)
    | .inf a, .inf b, z => fpAddV rm (.inf (a != b)) z
    | .inf a, .fin n _ _, z => fpAddV rm (.inf (a != n)) z
    | .fin n _ _, .inf b, z => fpAddV rm (.inf (n != b)) z
    | _, _, _ => (defaultNaN, 0)

def fpFma (rm : Nat) (a b c : Word) : FpRes :=
  let x := fpRead a; let y := fpRead b; let z := fpRead c
  (fpFmaV rm x.1 y.1 z.1).with (x.2 ||| y.2 ||| z.2)

/-- A read operand as a word: a flushed subnormal is a zero of its sign (R114). -/
def fpAsRead (w : Word) : Word := if (fpRead w).2 = fSB then fpZero (bit w 31) else w

/-- Relations of R113. -/
inductive FRel where
  | lt | eq | gt | un
  deriving DecidableEq, Repr

/-- Relation of two integers. -/
def relOfInt (x y : Int) : FRel := if x < y then .lt else if x = y then .eq else .gt

/-- A finite value scaled to an integer for ordering: both operands scaled by the same power of two. -/
def fpScaled (neg : Bool) (m : Nat) (e : Int) : Int := fpInt neg m * 2 ^ (e + 200).toNat

/-- Relation between two read values; -0 equals +0. -/
def fpRel : FVal → FVal → FRel
  | .nan _, _ => .un
  | _, .nan _ => .un
  | .inf a, .inf b => if a = b then .eq else if a then .lt else .gt
  | .inf a, .fin .. => if a then .lt else .gt
  | .fin .., .inf b => if b then .gt else .lt
  | .fin n1 m1 e1, .fin n2 m2 e2 => relOfInt (fpScaled n1 m1 e1) (fpScaled n2 m2 e2)

/-- The relations that a condition accepts (R113): EQ, NE, LT, LE, GT, GE, UN, OR. -/
def fpAccepts (cc : Nat) (r : FRel) : Bool :=
  match cc, r with
  | 0, .eq => true
  | 1, .eq => false
  | 1, _ => true
  | 2, .lt => true
  | 3, .lt => true
  | 3, .eq => true
  | 4, .gt => true
  | 5, .gt => true
  | 5, .eq => true
  | 6, .un => true
  | 7, .un => false
  | 7, _ => true
  | _, _ => false

/-- Comparison (R113): 1 when the relation holds; IV by cc and NaN kind. -/
def fpCmp (cc : Nat) (a b : Word) : FpRes :=
  let x := fpRead a; let y := fpRead b
  let sig := x.1 = .nan true ∨ y.1 = .nan true
  let ordered := 2 ≤ cc ∧ cc ≤ 5
  let nan := x.1.isNaN || y.1.isNaN
  (BitVec.ofNat 32 (b2n (fpAccepts cc (fpRel x.1 y.1))),
    (if sig ∨ (ordered ∧ nan) then fIV else 0) ||| x.2 ||| y.2)

/-- a is taken as less than b: -0 less than +0 (R114). -/
def fpLess (a b : Word) : Bool :=
  match fpRel (fpRead a).1 (fpRead b).1 with
  | .lt => true
  | .eq => bit a 31 && !bit b 31
  | _ => false

/-- minimumNumber (`max` false) and maximumNumber (R114). -/
def fpMinMax (max : Bool) (a b : Word) : FpRes :=
  let x := fpRead a; let y := fpRead b
  let a := fpAsRead a; let b := fpAsRead b
  let iv := if x.1 = .nan true ∨ y.1 = .nan true then fIV else 0
  let r :=
    if x.1.isNaN && y.1.isNaN then defaultNaN
    else if x.1.isNaN then b
    else if y.1.isNaN then a
    else if max then (if fpLess a b then b else a)
    else (if fpLess b a then b else a)
  (r, iv ||| x.2 ||| y.2)

/-- Reciprocal estimate (R111): 12 significant bits, nearest even. -/
def fpRcp (a : Word) : FpRes :=
  let x := fpRead a
  match x.1 with
  | .nan s => (defaultNaN, (if s then fIV else 0))
  | .inf n => (fpZero n, 0)
  | .fin n m e =>
    if m = 0 then (fpInf n, fDZ ||| x.2)
    else if 126 < e + 23 ∨ (e + 23 = 126 ∧ 2 ^ 23 < m) then (fpZero n, fUF + fIX + fSB)
    else
      let q := 2 ^ 35 / m
      let rem := 2 ^ 35 % m
      let q' := if m < 2 * rem ∨ (2 * rem = m ∧ q % 2 = 1) then q + 1 else q
      ((fpRound 0 n q' (-e - 35)).1, 0)

/-- binary32 to int32 (R112). -/
def fpToInt (rm : Nat) (a : Word) : FpRes :=
  let x := fpRead a
  match x.1 with
  | .nan _ => (0x80000000, fIV)
  | .inf n => (if n then 0x80000000 else 0x7FFFFFFF, fIV)
  | .fin n m e =>
    if m = 0 then (0, x.2)
    else
      let sh := (-e).toNat
      let q := if 0 ≤ e then m * 2 ^ e.toNat else m / 2 ^ sh
      let rem := if 0 ≤ e then 0 else m % 2 ^ sh
      let q' := if roundUp rm n q rem sh then q + 1 else q
      let v := fpInt n q'
      if v < -(2 ^ 31) ∨ 2 ^ 31 - 1 < v then (if n then 0x80000000 else 0x7FFFFFFF, fIV)
      else (wordOfInt v, if rem = 0 then 0 else fIX)

/-- int32 to binary32 (R112). -/
def fpOfInt (rm : Nat) (a : Word) : FpRes :=
  let v := a.toInt
  if v = 0 then (0, 0) else fpRound rm (v < 0) v.natAbs 0

end Sys2Proof.Machine
end

