-- ==== Sys2Proof/Machine/Lanes.lean ====
section
/-! DEFINITION. The word lanes (04_word_lanes_and_floating_point.md R93 to R117): what a lane computes on one PE's
words, and the store stage that writes destination and flag planes. -/

namespace Sys2Proof.Machine

/-- Operand width: 32, or 16 for a paired instruction (R94). -/
def laneWidth (half : Bool) : Nat := if half then 16 else 32

/-- Window length L (R95). -/
def laneL (half : Bool) : Nat := if half then 32 else 64

/-- Destination width (R101). -/
def laneDWidth (op : LaneOp) (half : Bool) : Nat :=
  match op with
  | .lmulf _ => 2 * laneWidth half
  | .lfcmp _ => 1
  | _ => laneWidth half

/-- Indices of the flag planes that an instruction writes (R101): OF only, none, or all six. -/
def laneFlags : LaneOp → List Nat
  | .ladd | .lsub | .lmul => [2]
  | .lmulf _ | .lmin _ | .lmax _ => []
  | _ => [0, 1, 2, 3, 4, 5]

/-- Is it a floating-point lane instruction (R109)? -/
def LaneOp.isFp (op : LaneOp) : Bool := (laneFlags op).length = 6

/-- Does the instruction have a second (third) source (R169)? -/
def LaneOp.hasB : LaneOp → Bool
  | .lfrcp | .lfcvtFi | .lfcvtIf => false
  | _ => true

def LaneOp.hasC : LaneOp → Bool
  | .lfma => true
  | _ => false

/-- A signed result modulo 2^n, with OF when it lies outside the signed range (R102). -/
def laneInt (n : Nat) (v : Int) : Nat × Nat :=
  ((v % (2 ^ n : Int)).toNat, if v < -(2 ^ (n - 1) : Int) ∨ (2 ^ (n - 1) : Int) ≤ v then fOF else 0)

/-- The operands of a minimum or maximum in its order. -/
def laneLess (signed : Bool) (n a b : Nat) : Bool :=
  if signed then decide (sext n a < sext n b) else decide (a < b)

/-- What a lane computes from one PE's words: result and flags (R101 to R114). -/
def laneCompute (op : LaneOp) (half : Bool) (rm a b c : Nat) : Nat × Nat :=
  let n := laneWidth half
  let w (x : Nat) : Word := BitVec.ofNat 32 x
  let fp (r : FpRes) : Nat × Nat := (r.1.toNat, r.2)
  match op with
  | .ladd => laneInt n (sext n a + sext n b)
  | .lsub => laneInt n (sext n a - sext n b)
  | .lmul => laneInt n (sext n a * sext n b)
  | .lmulf signed =>
    (if signed then ((sext n a * sext n b) % (2 ^ (2 * n) : Int)).toNat else a * b, 0)
  | .lmin signed => (if laneLess signed n b a then b else a, 0)
  | .lmax signed => (if laneLess signed n a b then b else a, 0)
  | .lfadd => fp (fpAdd rm (w a) (w b))
  | .lfsub => fp (fpSub rm (w a) (w b))
  | .lfmul => fp (fpMul rm (w a) (w b))
  | .lfma => fp (fpFma rm (w a) (w b) (w c))
  | .lfmin => fp (fpMinMax false (w a) (w b))
  | .lfmax => fp (fpMinMax true (w a) (w b))
  | .lfcmp cc => fp (fpCmp cc.val (w a) (w b))
  | .lfrcp => fp (fpRcp (w a))
  | .lfcvtFi => fp (fpToInt rm (w a))
  | .lfcvtIf => fp (fpOfInt rm (w a))

/-- Key of a loaded plane: operand (0 a, 1 b, 2 c), bit, unit. -/
def bufKey (o j u : Nat) : Nat := (o * 64 + j) * 16 + u

/-- The word of PE `i` of unit `u` in the load buffer (R94). -/
def bufWord (buf : Sparse Plane) (o n u i : Nat) : Nat :=
  (List.range n).foldl (fun acc j =>
    acc + (if (sparseGet planeDefault buf (bufKey o j u)).getLsbD i then 2 ^ j else 0)) 0

/-- A plane from a list of bits, PE 0 first. -/
def planeOfBits (l : List Bool) : Plane := BitVec.ofNat 8192 (l.foldr (fun b a => b2n b + 2 * a) 0)

/-- Plane of bit j of a stored operand: base + j * stride (R67). -/
def Slot.plane (t : Slot) (j : Nat) : Nat := (t.base + (j * t.stride : Nat)).toNat

/-- Results and flags of all PEs of a unit. -/
def LaneJob.results (jb : LaneJob) (u : Nat) : List (Nat × Nat) :=
  let n := laneWidth jb.half
  (List.range 8192).map fun i =>
    laneCompute jb.op jb.half jb.rm (bufWord jb.buf 0 n u i) (bufWord jb.buf 1 n u i) (bufWord jb.buf 2 n u i)

/-- Bit j of the results as a plane; halo PEs store 0 (R93). -/
def jobPlane (u : Nat) (res : List (Nat × Nat)) (f : Nat × Nat → Bool) : Plane :=
  if u = 0 ∨ u = 9 then 0 else planeOfBits (res.map f)

/-- The store stage of one unit: destination planes, then flag planes, where X is 1 (R96, R98). -/
def State.storeUnit (s : State) (jb : LaneJob) (u : Nat) : State :=
  let res := if u = 0 ∨ u = 9 then [] else jb.results u
  let x := (s.pe u).x
  let s := forN (laneDWidth jb.op jb.half) (fun j s =>
    s.writePlane u (jb.d.plane j) x (jobPlane u res fun r => r.1.testBit j)) s
  (laneFlags jb.op).foldl (fun s k =>
    s.writePlane u (jb.lfp + k) x (jobPlane u res fun r => r.2.testBit k)) s

/-- The store stage of the oldest lane instruction of sequencer h; in TRAP mode its SB-plane store is a Chimney capture
(R95, R109). -/
def State.storeJob (s : State) (h : Fin 4) : State :=
  match (s.seq h).jobs with
  | [] => s
  | jb :: js =>
    let s := s.modSeq h fun q => { q with jobs := js }
    let s := s.forUnits jb.mask fun u s => s.storeUnit jb u
    if jb.sub && jb.op.isFp then
      s.startCapture h jb.mask fun u =>
        jobPlane u (jb.results u) (fun r => r.2.testBit 5) &&& (s.pe u).x
    else s

/-- Every lane instruction of sequencer h ends its store stage. -/
def State.drainLanes (s : State) (h : Fin 4) : State := forN (s.seq h).jobs.length (fun _ s => s.storeJob h) s

/-- Planes that a lane instruction in flight writes (R97 rule 3). -/
def LaneJob.writes (jb : LaneJob) : List Nat :=
  (List.range (laneDWidth jb.op jb.half)).map jb.d.plane ++ (laneFlags jb.op).map (jb.lfp + ·)

/-- The oldest lane instructions end until none in flight writes a plane of the list (R97 rule 3). -/
def State.drainHazard (s : State) (h : Fin 4) (planes : List Nat) : State :=
  forN (s.seq h).jobs.length (fun _ s =>
    if (s.seq h).jobs.any fun jb => jb.writes.any planes.contains then s.storeJob h else s) s

end Sys2Proof.Machine
end

