-- ==== Sys2Proof/Machine/Routine.lean ====
section
/-! DEFINITION. Array and lane instructions as routines of micro-operations (03_array_operations.md R67 to R92): operand
words, checks, the schedule of R89, REP and REPA (R140, R141), micro-traps and their frames (R135, R229, R230). -/

namespace Sys2Proof.Machine

/-! ### Operand words (R164 to R167, R169) -/

def opD (w : Word) : Nat := bits w 0 4
def opA (w : Word) : Nat := bits w 4 4
def opB (w : Word) : Nat := bits w 8 4
def opC (w : Word) : Nat := bits w 12 4
def opReg (w : Word) : Fin 16 := Fin.ofNat 16 (bits w 12 4)
def opWid (w : Word) : Nat := bits w 16 6
def opAux (w : Word) : Nat := bits w 22 6

/-- The width w of an instruction (R164: WID is the width less 1); single-bit instructions have width 1. -/
def ArrOp.width (op : ArrOp) (word : Word) : Nat :=
  match op with
  | .abit _ | .acnt | .aloc => 1
  | .lane _ half => laneWidth half
  | _ => opWid word + 1

/-- The second source's width wb of AADD and ASUB (R166). -/
def opWb (word : Word) : Nat := opAux word + 1

/-- The distance n of ASHF (R166). -/
def opDist (word : Word) : Nat := opAux word + 1

/-- Hops of an ASHF (R84): the express hops first, then the single ones (DEDUCED, log entry 21). -/
def shiftHops (dir : ShiftDir) (n : Nat) : List NDir :=
  match dir with
  | .e => List.replicate (n / 32) .w32 ++ List.replicate (n % 32) .w
  | .w => List.replicate (n / 32) .e32 ++ List.replicate (n % 32) .e
  | .s => List.replicate n .north
  | .n => List.replicate n .south

/-- Opcode byte on page 1 or 2, with the page above it (R162, R168). -/
def ArrOp.code : ArrOp → Nat
  | .aadd => 0x100 | .aaddi => 0x101 | .asub => 0x102 | .asubi => 0x103 | .amul => 0x104
  | .acmp => 0x105 | .acmpi => 0x106 | .asel => 0x107 | .aset => 0x108 | .acnt => 0x109 | .aloc => 0x10A
  | .ashf .e => 0x110 | .ashf .w => 0x111 | .ashf .s => 0x112 | .ashf .n => 0x113
  | .abit tt => 0x120 + tt.val
  | .alog tt => 0x130 + tt.val
  | .lane op half =>
    let h := if half then 0x10 else 0
    match op with
    | .ladd => 0x200 + h | .lsub => 0x201 + h | .lmul => 0x202 + h
    | .lmulf false => 0x203 + h | .lmulf true => 0x204 + h
    | .lmin false => 0x205 + h | .lmin true => 0x206 + h
    | .lmax false => 0x207 + h | .lmax true => 0x208 + h
    | .lfadd => 0x220 | .lfsub => 0x221 | .lfmul => 0x222 | .lfma => 0x223 | .lfmin => 0x224 | .lfmax => 0x225
    | .lfrcp => 0x226 | .lfcvtFi => 0x227 | .lfcvtIf => 0x228
    | .lfcmp cc => 0x230 + cc.val

/-- Is it a lane instruction? -/
def ArrOp.isLane : ArrOp → Bool
  | .lane _ _ => true
  | _ => false

/-- Selector of a plane pointer (R165). -/
def isPtr (n : Nat) : Bool := decide (n < 8)

/-- A reserved bit or selector in an operand word (R155 check 7, R166, R167, R169). -/
def ArrOp.badWord (op : ArrOp) (w : Word) : Bool :=
  let d := opD w; let a := opA w; let b := opB w; let g := bits w 12 4
  let ok :=
    match op with
    | .aadd | .asub => isPtr d && isPtr a && isPtr b && g = 0
    | .aaddi | .asubi => isPtr d && isPtr a && b = 0 && opAux w = 0
    | .amul | .asel => isPtr d && isPtr a && isPtr b && g = 0 && opAux w = 0
    | .acmp => d = 0 && isPtr a && isPtr b && g = 0 && opAux w < 32 && opAux w % 8 < 6
    | .acmpi => d = 0 && isPtr a && b = 0 && opAux w < 32 && opAux w % 8 < 6
    | .aset => isPtr d && a = 0 && b = 0 && opAux w = 0
    | .alog _ => isPtr d && isPtr a && isPtr b && g = 0 && opAux w = 0
    | .abit _ => d < 10 && a < 12 && b < 12 && g = 0 && opWid w = 0 && opAux w = 0
    | .ashf _ => isPtr d && isPtr a && b = 0 && g = 0
    | .acnt | .aloc => d = 0 && a < 9 && b = 0 && opWid w = 0 && opAux w < 2
    | .lane lop _ => isPtr d && isPtr a && (if lop.hasB then isPtr b else b = 0) && (if lop.hasC then isPtr g else g = 0)
  !ok || (!op.isLane && bits w 28 4 ≠ 0)

/-- A width, second width or distance out of range (R155 check 11, R166). -/
def ArrOp.badRange (op : ArrOp) (w : Word) : Bool :=
  match op with
  | .alog _ | .abit _ | .acnt | .aloc | .lane _ _ => false
  | .ashf .s | .ashf .n => decide (62 < opAux w)
  | .ashf _ => false
  | .aadd | .asub => decide (31 < opWid w) || decide (opWid w < opAux w)
  | _ => decide (31 < opWid w)

/-! ### Operands, stepping and the plane check (R35, R67 to R69) -/

/-- Pointers named by the destination and the sources, with their stepping widths (R76, R101). -/
def ArrOp.ptrs (op : ArrOp) (w : Word) : List (Option (Fin 8 × Nat)) :=
  let n := op.width w
  let sel (k width : Nat) : Option (Fin 8 × Nat) := if isPtr k then some (Fin.ofNat 8 k, width) else none
  match op with
  | .aadd | .asub => [sel (opD w) n, sel (opA w) n, sel (opB w) (opWb w), none]
  | .aaddi | .asubi => [sel (opD w) n, sel (opA w) n, none, none]
  | .amul => [sel (opD w) (2 * n), sel (opA w) n, sel (opB w) n, none]
  | .acmp => [none, sel (opA w) n, sel (opB w) n, none]
  | .acmpi => [none, sel (opA w) n, none, none]
  | .asel | .alog _ => [sel (opD w) n, sel (opA w) n, sel (opB w) n, none]
  | .aset => [sel (opD w) n, none, none, none]
  | .abit _ => [sel (opD w) 1, sel (opA w) 1, sel (opB w) 1, none]
  | .ashf _ => [sel (opD w) n, sel (opA w) n, none, none]
  | .acnt | .aloc => [none, sel (opA w) 1, none, none]
  | .lane lop half =>
    [sel (opD w) (laneDWidth lop half), sel (opA w) n,
      if lop.hasB then sel (opB w) n else none, if lop.hasC then sel (opC w) n else none]

/-- The step of a pointer: the stepping width of the first operand that names it (R68). -/
def stepOf (ps : List (Option (Fin 8 × Nat))) (k : Fin 8) : Nat :=
  ((ps.findSome? fun p => match p with
    | some (j, w) => if j = k then some w else none
    | none => none)).getD 0

/-- The slots of an instruction as its stepping mode forms them (R68); an index register is read as signed (DEDUCED,
log entry 22). -/
def State.formSlots (s : State) (h : Fin 4) (mode : StepMode) (ps : List (Option (Fin 8 × Nat))) : List (Option Slot) :=
  ps.map fun p => p.map fun (k, _) =>
    let base : Int := s.pBase h k
    let stride := s.pStride h k
    let b := match mode with
      | .register | .postInc => base
      | .preDec => base - (stepOf ps k * stride : Nat)
      | .indexed x sc => base + (s.gr h x).toInt * (2 ^ sc.val : Nat)
    { base := b, ptr := k, stride }

/-- Does this iteration write its extension plane (R77, R78)? `chained` is REP, `last` the last iteration. -/
def ArrOp.extends (op : ArrOp) (chained last : Bool) : Bool :=
  match op with
  | .aadd | .aaddi | .asub | .asubi => !chained || last
  | _ => false

/-- Planes of each operand of an iteration, in the order of R571. -/
def operandPlanes (op : ArrOp) (ps : List (Option (Fin 8 × Nat))) (slots : List (Option Slot)) (ext : Bool) :
    List (List Int) :=
  ((ps.zip slots).zipIdx).map fun ((p, t), i) =>
    match p, t with
    | some (_, w), some t =>
      (List.range (w + if i = 0 && ext && op.extends false true then 1 else 0)).map fun j =>
        t.base + (j * t.stride : Nat)
    | _, _ => []

/-- The first plane address that the check of R35 refuses, with post-increment stepping included (R35, R571). The base that a
post-increment operand would step to stands behind that operand's own planes and before the next operand; it is refused above
4095 only, and EAR then holds it (DESIGN CHOICE, log entry 93). -/
def planeFault (op : ArrOp) (mode : StepMode) (ps : List (Option (Fin 8 × Nat))) (slots : List (Option Slot))
    (ext : Bool) : Option Int :=
  let addrs := operandPlanes op ps slots ext
  (addrs.zip slots).findSome? fun (l, t) =>
    match l.find? fun a => a < 0 || 4063 < a with
    | some a => some a
    | none =>
      match mode, t with
      | .postInc, some t =>
        let e := t.base + (stepOf ps t.ptr * t.stride : Nat)
        if 4095 < e then some e else none
      | _, _ => none

/-- The decode-time #AF checks in their order (R155, R571): detail and EAR. -/
def State.afCheck (s : State) (h : Fin 4) (op : ArrOp) (mode : StepMode) (word : Word) (mask : BitVec 8)
    (ext : Bool) : Option (Nat × Word) :=
  let ps := op.ptrs word
  let slots := s.formSlots h mode ps
  match planeFault op mode ps slots ext with
  | some a => some (1, wordOfInt a)
  | none =>
    let ws := (List.range 8).filter (wingIn mask)
    if ws.any fun w => s.wingOwner w ≠ h.val then some (2, 0)
    else if ws.any fun w => !s.wingOn w then some (3, 0)
    else
      let addrs := operandPlanes op ps slots ext
      let d := (addrs[0]?).getD []
      let lfp := bits (s.seq h).lfp 0 12
      let overlap : Option Int :=
        match op with
        | .amul =>
          let src := (addrs[1]?).getD [] ++ (addrs[2]?).getD []
          d.find? src.contains
        | .lane lop _ => d.find? ((laneFlags lop).map fun k => ((lfp + k : Nat) : Int)).contains
        | _ => none
      match overlap with
      | some a => some (4, wordOfInt a)
      | none =>
        match op with
        | .lane lop _ => if !(laneFlags lop).isEmpty && decide (4058 < lfp) then some (5, BitVec.ofNat 32 lfp) else none
        | _ => none

/-! ### Micro-steps: the schedule of R89 -/

/-- One step of a routine. Beside the micro-operations of R36 stand the steps whose microcode is not published, as their
effect: saving X (R82), one bit of a product row (R79), the comparison (R81), a lane's plane loads (R96) and the result
of a capture (R87). -/
inductive MStep where
  | uop (o : Uop)
  | saveX
  | mulAdd (a : Nat) (q : Option Nat) (d : Nat)
  | cmpInit
  | cmpBit (a : Nat) (b : Opnd) (flip : Bool)
  | cmpEnd (cc cb : Nat)
  | load (j : Nat)
  | idle
  | result
  deriving DecidableEq, Repr

/-- Plane j of a slot. -/
def slotPlane (t : Option Slot) (j : Nat) : Nat :=
  match t with
  | some t => t.plane j
  | none => 0

/-- The operand that a selector of ABIT, ACNT or ALOC names (R165). -/
def selOpnd (n : Nat) (t : Option Slot) : Opnd :=
  if isPtr n then .plane (slotPlane t 0)
  else if n = 8 then .f else if n = 9 then .x else if n = 10 then .zero else .one

/-- Is the current iteration chained to others (R78: REP, not REPA)? -/
def Routine.chained (r : Routine) : Bool := r.rep

/-- The number of micro-operations of the current iteration (R76, R78). -/
def Routine.steps (r : Routine) (last : Bool) : Nat :=
  let w := r.op.width r.opword
  let ext := if r.op.extends r.chained last then 1 else 0
  match r.op with
  | .aadd | .aaddi => w + ext
  | .asub | .asubi => (if !r.chained || r.first then 1 else 0) + w + ext
  | .amul => w * (w + 2)
  | .acmp | .acmpi => w + 2
  | .asel => 2 * w + 4
  | .alog _ | .aset => w
  | .abit _ => 1
  | .ashf dir => (shiftHops dir (opDist r.opword)).length * w + 1
  | .acnt | .aloc => 7
  | .lane _ half => laneL half

/-- Bit i of the second operand: a plane, a bit of the scalar, or zero beyond wb (R70, R76). -/
def Routine.bOpnd (r : Routine) (i : Nat) : Opnd :=
  match r.op with
  | .aaddi | .asubi | .acmpi | .aset => if bit r.gval i then .one else .zero
  | .aadd | .asub => if i < opWb r.opword then .plane (slotPlane r.b i) else .zero
  | _ => .plane (slotPlane r.b i)

/-- Micro-operation at an offset of the current iteration (R89). -/
def Routine.step (r : Routine) (off : Nat) : MStep :=
  let w := r.op.width r.opword
  let pass (a : Opnd) (d : Dest) : MStep := .uop { a, dest := d }
  match r.op with
  | .aadd | .aaddi =>
    if off < w then
      .uop { a := .plane (slotPlane r.a off), b := r.bOpnd off, add := true, dest := .plane (slotPlane r.d off) }
    else .uop { a := .zero, add := true, dest := .plane (slotPlane r.d w) }
  | .asub | .asubi =>
    let k := if !r.chained || r.first then 1 else 0
    if off < k then pass .one .c
    else if off < k + w then
      .uop { a := .plane (slotPlane r.a (off - k)), b := r.bOpnd (off - k), add := true, invb := true,
             dest := .plane (slotPlane r.d (off - k)) }
    else .uop { a := .zero, add := true, dest := .plane (slotPlane r.d w) }
  | .amul =>
    let j := off / (w + 2)
    let m := off % (w + 2)
    if m = 0 then pass (.plane (slotPlane r.b j)) .t
    else if m ≤ w then
      .mulAdd (slotPlane r.a (m - 1)) (if j = 0 then none else some (slotPlane r.d (j + m - 1))) (slotPlane r.d (j + m - 1))
    else .uop { a := .zero, add := true, dest := .plane (slotPlane r.d (j + w)) }
  | .acmp | .acmpi =>
    if off = 0 then .cmpInit
    else if off ≤ w then
      .cmpBit (slotPlane r.a (off - 1)) (r.bOpnd (off - 1)) (off = w && decide (4 ≤ opAux r.opword % 8))
    else .cmpEnd (opAux r.opword % 8) (opAux r.opword / 8)
  | .asel =>
    if off = 0 then .saveX
    else if off = 1 then .uop { a := .t, b := .f, tt := 0x8, dest := .x }
    else if off < w + 2 then pass (.plane (slotPlane r.a (off - 2))) (.plane (slotPlane r.d (off - 2)))
    else if off = w + 2 then .uop { a := .t, b := .f, tt := 0x4, dest := .x }
    else if off < 2 * w + 3 then
      pass (.plane (slotPlane r.b (off - (w + 3)))) (.plane (slotPlane r.d (off - (w + 3))))
    else pass .t .x
  | .alog tt =>
    .uop { a := .plane (slotPlane r.a off), b := .plane (slotPlane r.b off), tt := tt.val,
           dest := .plane (slotPlane r.d off) }
  | .aset => pass (r.bOpnd off) (.plane (slotPlane r.d off))
  | .abit tt =>
    let dst : Dest := if isPtr (opD r.opword) then .plane (slotPlane r.d 0) else if opD r.opword = 8 then .f else .x
    .uop { a := selOpnd (opA r.opword) r.a, b := selOpnd (opB r.opword) r.b, tt := tt.val, dest := dst }
  | .ashf dir =>
    let hops := shiftHops dir (opDist r.opword)
    let i := off / hops.length
    let j := off % hops.length
    let dst : Dest := if j = 0 && i ≠ 0 then .plane (slotPlane r.d (i - 1)) else .none
    if i = w then pass .n dst
    else .uop { a := .n, b := if j = 0 then .plane (slotPlane r.a i) else .n, dest := dst,
                ndir := (hops[j]?).getD .none }
  | .acnt | .aloc =>
    if off = 0 then
      let active := opAux r.opword % 2 = 0
      if opA r.opword = 8 then .uop { a := .zero, dest := .none, cap := .f, active }
      else .uop { a := .plane (slotPlane r.a 0), dest := .none, cap := .result, active }
    else if off = 6 then .result else .idle
  | .lane _ _ => .load off

/-- Relation cc from the equality and carry planes (R81): EQ, NE, LTU, GEU, LTS, GES. -/
def cmpOutcome (cc : Nat) (eq ge : Plane) : Plane :=
  match cc with
  | 0 => eq
  | 1 => ~~~eq
  | 2 => ~~~ge
  | 3 => ge
  | 4 => ~~~ge
  | _ => ge

/-- F combined with an outcome (R81): SET, AND, OR, ANDN. -/
def cmpCombine (cb : Nat) (f c : Plane) : Plane :=
  match cb with
  | 0 => c
  | 1 => f &&& c
  | 2 => f ||| c
  | _ => f &&& ~~~c

/-- One step of a routine in the array. During a comparison T holds equality so far and C the carry of a - b. The result of ACNT
and ALOC is the latest total of the sequencer, a handler's capture included where one stopped the routine in between
(R48, R87; DEDUCED, log entry 94). A lane load checks the parity of the planes it reads in the halo units too (R50, R98;
DEDUCED, log entry 117). -/
def State.microStep (s : State) (h : Fin 4) (r : Routine) : MStep → State
  | .uop o => s.uop h r.mask o
  | .saveX => s.forUnits r.mask fun u s => s.setPe u { s.pe u with t := (s.pe u).x }
  | .mulAdd a q d => s.forUnits r.mask fun u s =>
      let s := s.checkPar u a 0
      let s := match q with | some q => if q = a then s else s.checkPar u q 0 | none => s
      let p := s.pe u
      let x := s.plane u a &&& p.t
      let y := match q with | some q => s.plane u q | none => 0
      (s.setPe u { p with c := selX p.x (majP x y p.c) p.c }).writePlane u d p.x (x ^^^ y ^^^ p.c)
  | .cmpInit => s.forUnits r.mask fun u s =>
      let p := s.pe u
      s.setPe u { p with c := selX p.x (unitOnes u) p.c, t := selX p.x (unitOnes u) p.t }
  | .cmpBit a b flip => s.forUnits r.mask fun u s =>
      let s := (s.checkOperand u (.plane a) none).checkOperand u b (some (.plane a))
      let p := s.pe u
      let x := if flip then ~~~s.plane u a &&& unitOnes u else s.plane u a
      let y := if flip then ~~~s.operand u b &&& unitOnes u else s.operand u b
      let eq := ~~~(x ^^^ y) &&& unitOnes u
      s.setPe u { p with c := selX p.x (majP x (~~~y &&& unitOnes u) p.c) p.c, t := selX p.x (p.t &&& eq) p.t }
  | .cmpEnd cc cb => s.forUnits r.mask fun u s =>
      let p := s.pe u
      let c := cmpOutcome cc p.t p.c &&& unitOnes u
      s.setPe u { p with f := selX p.x (cmpCombine cb p.f c) p.f, c := p.c &&& ~~~p.x }
  | .load j =>
      let n := match r.op with | .lane _ half => laneWidth half | _ => 0
      let third := match r.op with | .lane op _ => op.hasC | _ => false
      let one (o : Nat) (t : Option Slot) (j : Nat) (u : Nat) (s : State) : State :=
        match t with
        | none => s
        | some t =>
          let shared := o = 1 && r.a.map (fun ta => ta.plane j) = some (t.plane j)
          let s := if shared then s else s.checkPar u (t.plane j) 0
          let v := s.plane u (t.plane j)
          s.modSeq h fun q => { q with routine := q.routine.map fun r =>
            { r with buf := sparseSet planeDefault r.buf (bufKey o j u) v } }
      if j < n then s.forUnits r.mask fun u s => one 1 r.b j u (one 0 r.a j u s)
      else if third && decide (j < 2 * n) then s.forUnits r.mask fun u s => one 2 r.c (j - n) u s
      else s
  | .idle => s
  | .result =>
      let s := s.completeCaptures h
      let cnt := bits (s.reg (rg .chimCnt h.val)) 0 17
      let first := s.reg (rg .chimFirst h.val)
      let v : Word := match r.op with
        | .acnt => BitVec.ofNat 32 cnt
        | _ => if bit first 30 then 0xFFFFFFFF else BitVec.ofNat 32 (bits first 0 17)
      s.setG h (opReg r.opword) v

/-! ### Running a routine -/

/-- Is the current iteration the last (R140: RC counts iterations not yet completed)? -/
def State.lastIter (s : State) (h : Fin 4) (r : Routine) : Bool := !(r.rep || r.repa) || decide ((s.seq h).rc.toNat ≤ 1)

/-- The routine of a sequencer replaced. -/
def State.setRoutine (s : State) (h : Fin 4) (r : Option Routine) : State := s.modSeq h fun q => { q with routine := r }

/-- R231: a frame that firmware has written makes the results in the kept mask's PEs free values: every plane and PE
register of its units. -/
def State.freeUnits (s : State) (mask : BitVec 8) : State :=
  s.forUnits mask fun u s =>
    let k := s.free
    let s := forN 4096 (fun p s => s.setPlane u p (Config.freePlane (k + p) &&& unitOnes u)) s
    let v (i : Nat) := Config.freePlane (k + 4096 + i) &&& unitOnes u
    { s.setPe u { c := v 0, f := v 1, x := v 2, t := v 3, n := v 4 } with free := k + 4101 }

/-- What an iteration or a routine under an altered frame leaves behind (R231). -/
def State.freeAltered (s : State) (r : Routine) : State := if r.altered.isSome then s.freeUnits r.mask else s

/-- The instruction of a routine completes (R133): the pc moves past it, and TP is set when it began with TE = 1. Its
address is the one kept when it issued, whatever a handler has written to EPC (DESIGN CHOICE, log entry 85). -/
def State.endRoutine (s : State) (h : Fin 4) (r : Routine) : State :=
  let s := s.freeAltered r
  let s := s.setRoutine h none
  let s := s.setPc h (r.addr + BitVec.ofNat 32 r.len)
  if r.te then s.setFlg h flgTP true else s

/-- A routine stopped by a synchronous exception at its instruction (R127, R134). -/
def State.failRoutine (s : State) (h : Fin 4) (r : Routine) (v detail : Nat) (ear : Word) : State :=
  ((s.setRoutine h none).setPc h r.addr).raise h v detail (some ear)

/-- The pointers that the slots name, each with its operand's stepping width (R68, R230). The pointers of a changed frame are
its own, and a slot marked USED beyond the instruction's operands has a width that the spec does not state (log entry 87). -/
def Routine.slotPtrs (r : Routine) : List (Option (Fin 8 × Nat)) :=
  (([r.d, r.a, r.b, r.c].zip (r.op.ptrs r.opword)).zipIdx).map fun ((t, p), i) =>
    t.map fun t => (t.ptr, (p.map (·.2)).getD (Config.slotWidth r.op.code i).toNat)

/-- Pointer stepping at the completion of an iteration (R68, R91, R230). -/
def State.stepPointers (s : State) (h : Fin 4) (r : Routine) : State :=
  let ps := r.slotPtrs
  [r.d, r.a, r.b, r.c].foldl (fun s t =>
    match t, r.mode with
    | some t, .postInc => s.setP h t.ptr (t.base + (stepOf ps t.ptr * t.stride : Nat)).toNat t.stride
    | some t, .preDec => s.setP h t.ptr t.base.toNat t.stride
    | _, _ => s) s

/-- Pointers at the end of a routine whose next iteration does not take place: they stand as the last iteration left them,
which is what the slots formed for the next one tell, whatever a handler has written (R230; DEDUCED, log entry 86). -/
def State.restorePointers (s : State) (h : Fin 4) (r : Routine) : State :=
  let ps := r.slotPtrs
  [r.d, r.a, r.b, r.c].foldl (fun s t =>
    match t, r.mode with
    | some t, .postInc => s.setP h t.ptr t.base.toNat t.stride
    | some t, .preDec => s.setP h t.ptr (t.base + (stepOf ps t.ptr * t.stride : Nat)).toNat t.stride
    | _, _ => s) s

/-- C becomes 0 in every PE of a mask (R74, R134). -/
def State.clearCarry (s : State) (mask : BitVec 8) : State :=
  s.forUnits mask fun u s => s.setPe u { s.pe u with c := 0 }

/-- RC counts one iteration down (R140). -/
def State.countRc (s : State) (h : Fin 4) : State := s.modSeq h fun q => { q with rc := q.rc - 1 }

/-- The planes that a lane instruction reads (R97 rule 3). -/
def Routine.reads (r : Routine) : List Nat :=
  let n := r.op.width r.opword
  [r.a, r.b, r.c].flatMap fun t => match t with
    | some t => (List.range n).map t.plane
    | none => []

/-- The issue conditions of R97: what must leave the lane pipeline before the iteration begins. -/
def State.issueWait (s : State) (h : Fin 4) (r : Routine) : State :=
  match r.op with
  | .lane op half =>
    if (r.sub && op.isFp) || (s.seq h).jobs.any fun jb => laneL jb.half ≠ laneL half then s.drainLanes h
    else s.drainHazard h r.reads
  | _ => s.drainLanes h

/-- REPA's test (R141): the lane pipeline empties, for a lane instruction by R141 and for any other by R97; F is captured over
the mask, and the flag tells whether any PE presented 1. -/
def State.repaTest (s : State) (h : Fin 4) (r : Routine) : State × Bool :=
  let s := (s.drainLanes h).uop h r.mask { a := .zero, dest := .none, cap := .f, active := true }
  let s := s.completeCaptures h
  (s, s.flag (rg .chimCnt h.val) F.chimCnt_OR)

/-- The slots of a routine formed from the pointers as they stand at issue (R68). -/
def State.reform (s : State) (h : Fin 4) (r : Routine) : Routine :=
  let t := s.formSlots h r.mode (r.op.ptrs r.opword)
  let at' (i : Nat) : Option Slot := ((t[i]?).getD none)
  { r with d := at' 0, a := at' 1, b := at' 2, c := at' 3 }

/-- The slots of the next iteration, from those of the one just completed (R69): a post-increment or pre-decrement operand
stands one step on, every other where it stood. No handler that stopped the routine changes them (R91, R187), and the index
register counts as read at issue (DESIGN CHOICE, log entry 116). -/
def Routine.nextSlots (r : Routine) : Routine :=
  let ps := r.slotPtrs
  let next (t : Option Slot) : Option Slot := t.map fun t =>
    let step : Int := (stepOf ps t.ptr * t.stride : Nat)
    match r.mode with
    | .postInc => { t with base := t.base + step }
    | .preDec => { t with base := t.base - step }
    | _ => t
  { r with d := next r.d, a := next r.a, b := next r.b, c := next r.c }

/-- A routine whose next iteration does not take place ends (R140, R141). -/
def State.stopRoutine (s : State) (h : Fin 4) (r : Routine) : State :=
  (if r.first then s else s.restorePointers h r).endRoutine h r

/-- Before an iteration: the REP test, REPA's capture, the plane check of a later iteration and the issue conditions
(R140, R141, R35, R97). The flag tells whether the iteration begins. With RC = 0 nothing waits for the lane pipeline (DESIGN
CHOICE, log entry 118). A check that fails leaves C at 0 (R74). -/
def State.beginIter (s : State) (h : Fin 4) (r : Routine) : State × Bool :=
  if (r.rep || r.repa) && (s.seq h).rc = 0 then (s.stopRoutine h r, false)
  else
    let t : State × Bool := if r.repa then s.repaTest h r else (s, true)
    let s := t.1
    if !t.2 then (s.stopRoutine h r, false)
    else
      match planeFault r.op r.mode r.slotPtrs [r.d, r.a, r.b, r.c] (r.op.extends r.chained (s.lastIter h r)) with
      | some a => (((s.freeAltered r).clearCarry r.mask).failRoutine h r vecAF 1 (wordOfInt a), false)
      | none =>
        let s := s.issueWait h r
        (s.setRoutine h (some { r with begun := true, offset := 0, buf := [] }), true)

/-- The lane instruction of a routine leaves its load stage (R95): at most two others stay behind it. -/
def State.pushJob (s : State) (h : Fin 4) (r : Routine) (op : LaneOp) (half : Bool) : State :=
  let s := if 2 ≤ (s.seq h).jobs.length then s.storeJob h else s
  match r.d with
  | none => s
  | some d => s.modSeq h fun q => { q with
      jobs := q.jobs ++ [{ op, half, mask := r.mask, d, lfp := r.lfp, rm := r.rm, sub := r.sub, buf := r.buf }] }

/-- After the last micro-operation of an iteration (R91, R95, R109, R140). -/
def State.endIter (s : State) (h : Fin 4) (r : Routine) : State × Bool :=
  let s := match r.op with
    | .lane op half => s.pushJob h r op half
    | _ => s
  let s := s.stepPointers h r
  let s := if r.rep || r.repa then s.countRc h else s
  let more := (r.rep || r.repa) && (s.seq h).rc ≠ 0
  let next := if more then
      (s.freeAltered r).setRoutine h (some { r.nextSlots with begun := false, first := false, offset := 0, buf := [] })
    else s.endRoutine h r
  let trap := match r.op with | .lane op _ => r.sub && op.isFp | _ => false
  if trap then
    let next := (next.drainLanes h).completeCaptures h
    if next.flag (rg .chimCnt h.val) F.chimCnt_OR then
      let ret := if more then r.addr else r.addr + BitVec.ofNat 32 r.len
      ((next.setRoutine h none).enter h vecLA ret false 0 none, false)
    else (next, more)
  else (next, more)

/-- #MP at a micro-operation (R134, R213): the hardwired clear of C comes last in the array, then the capture and the entry. -/
def State.microParity (s : State) (h : Fin 4) (r : Routine) (word : Nat) : State :=
  let s := (s.freeAltered r).clearCarry r.mask
  let s := s.capture (rg .asMcPerr) F.asMcPerr_VALID F.asMcPerr_MULTI fun w => setBits (setBits w 0 12 word) 12 2 h.val
  s.failRoutine h r vecMP 1 (BitVec.ofNat 32 word)

/-- The micro-PC of the next micro-operation (R229); after a changed frame, from the frame's own (R231). -/
def Routine.upc (r : Routine) (cs : BitVec 524288) : BitVec 12 :=
  match r.altered with
  | none => Config.upc cs r.op.code r.offset
  | some m => if r.offset = m.offset then m.upc else Config.upcFrom cs m.routine m.upc m.priv (r.offset - m.offset)

/-- The control-store word of the next micro-operation, at its micro-PC, when its parity is wrong (R213). -/
def State.badWord (s : State) (h : Fin 4) (r : Routine) : Option Nat :=
  let w := (r.upc (s.seq h).cs).toNat
  if (s.seq h).csBad.contains w then some w else none

/-- One micro-operation of the routine of sequencer h; the flag tells whether the routine goes on. -/
def State.routineStep (s : State) (h : Fin 4) : State × Bool :=
  match (s.seq h).routine with
  | none => (s, false)
  | some r0 =>
    let t : State × Bool := if r0.begun then (s, true) else s.beginIter h r0
    if !t.2 then t
    else
      let s := t.1
      match (s.seq h).routine with
      | none => (s, false)
      | some r =>
        match s.badWord h r with
        | some w => (s.microParity h r w, false)
        | none =>
          let last := s.lastIter h r
          let s := s.microStep h r (r.step r.offset)
          match (s.seq h).routine with
          | none => (s, false)
          | some r =>
            let r := { r with offset := r.offset + 1 }
            if r.offset < r.steps last then (s.setRoutine h (some r), true)
            else s.endIter h r

/-- At most `n` micro-operations of the routine of sequencer h. -/
def State.runRoutine (s : State) (h : Fin 4) : Nat → State
  | 0 => s
  | n + 1 =>
    let t := s.routineStep h
    if t.2 then t.1.runRoutine h n else t.1

/-- No iteration has more micro-operations than this (R139: the longest has 4,033). -/
def maxSteps : Nat := 4096

/-- The routine of sequencer h runs to its end, or at most to a budget of micro-operations. -/
def State.runRoutineTo (s : State) (h : Fin 4) (stop : Option Nat) : State :=
  s.runRoutine h (match stop with
    | some n => n
    | none => maxSteps * ((s.seq h).rc.toNat + 1))

/-! ### Micro-traps (R135, R229) -/

/-- One operand slot of the frame (R229). -/
def slotWord : Option Slot → Word
  | none => 0
  | some t => BitVec.ofNat 32 ((t.base % 4096).toNat + 4096 * t.ptr.val + 32768 + 65536 * (t.stride % 256))

/-- ROUTINE of the frame (R229). -/
def Routine.routineId (r : Routine) (cs : BitVec 524288) : BitVec 16 :=
  match r.altered with
  | none => Config.routineId cs r.op.code
  | some m => m.routine

/-- MCPRIV of the frame (R229). -/
def Routine.priv (r : Routine) (cs : BitVec 524288) : BitVec 128 :=
  match r.altered with
  | none => Config.mcPriv cs r.op.code r.offset
  | some m => if r.offset = m.offset then m.priv else Config.mcPrivFrom cs m.routine m.upc m.priv (r.offset - m.offset)

/-- LANE of the frame (R229, R231). -/
def Routine.lane (r : Routine) : Bool :=
  match r.altered with
  | none => r.op.isLane
  | some m => m.lane

/-- ROW of the frame: the AMUL row or ASHF hop of the last micro-operation issued (R229), or what a changed frame held. -/
def Routine.row (r : Routine) : Nat :=
  if (r.altered.map (·.offset)) = some r.offset then (r.altered.map (·.row)).getD 0
  else if r.offset = 0 then 0
  else match r.op with
    | .amul => (r.offset - 1) / (r.op.width r.opword + 2)
    | .ashf dir => (r.offset - 1) % (shiftHops dir (opDist r.opword)).length
    | _ => 0

/-- The 64-byte frame of a routine at depth `depth` (R229). -/
def Routine.frame (r : Routine) (cs : BitVec 524288) (depth : Nat) : List Byte :=
  let w0 := 1 + 4 * depth + 16 * b2n r.lane + 32 * b2n r.rep + 64 * b2n r.repa + 128 * b2n r.atom
    + 256 * r.len + 65536 * r.mask.toNat + 2 ^ 24 * (match r.mode with
      | .register => 0 | .postInc => 1 | .preDec => 2 | .indexed _ _ => 3)
  let w1 := (r.upc cs).toNat + 65536 * (r.routineId cs).toNat
  let w2 := r.offset + 65536 * r.row
  let w9 := r.rm + 4 * b2n r.sub + 256 * r.lfp
  [w0, w1, w2, r.opword.toNat, (slotWord r.d).toNat, (slotWord r.a).toNat, (slotWord r.b).toNat, (slotWord r.c).toNat,
    r.gval.toNat, w9, 0, 0].flatMap (bytesLE 4) ++ bytesLE 16 (r.priv cs).toNat

/-- Micro-trap depth of the loaded microcode (R138). -/
def State.mtDepth (s : State) : Nat := s.getF (rg .asMcInfo) F.asMcInfo_MTDEPTH

/-- May the routine of sequencer h be stopped by a micro-trap now (R128, R138)? It must have begun. -/
def State.canMicroTrap (s : State) (h : Fin 4) : Bool :=
  match (s.seq h).routine with
  | none => false
  | some r => (r.begun || !r.first) && decide ((s.seq h).susp.length < s.mtDepth)

/-- A micro-trap into vector `v` (R135): the frame below MTF, then the entry with MIP set. Captures in flight complete before
the handler's first instruction (R49). -/
def State.microTrapTo (s : State) (h : Fin 4) (v : Nat) : State :=
  match (s.seq h).routine with
  | none => s
  | some r =>
    let s := s.completeCaptures h
    let mtf := (s.seq h).mtf - 64
    let s := s.modSeq h fun q => { q with mtf := mtf }
    if !(mtf.toNat % 64 = 0 && decide (mtf.toNat < 0x40000)) then s.haltSeq h 3
    else
      let depth := (s.seq h).susp.length
      let fr := r.frame (s.seq h).cs depth
      let s := s.setStudy h mtf.toNat fr
      let s := s.modSeq h fun q => { q with
        routine := none
        susp := { routine := r, depth, frameAddr := mtf.toNat, frame := fr, spilled := false } :: q.susp }
      s.enter h v r.addr true 0 none

/-- The lazy spill before the first array or lane instruction of a context with MIP = 1 (R137, R230, R100). With MIP = 0 there is
none: the partial load of a suspended lane instruction stays, and its routine goes on at its OFFSET (DEDUCED, log entry 119). -/
def State.lazySpill (s : State) (h : Fin 4) : State :=
  match (s.seq h).susp with
  | [] => s
  | t :: ts =>
    if !s.flgBit h flgMIP || t.spilled then s
    else
      let s := (s.drainLanes h).spill t.routine.mask t.depth
      let put (k : Nat) (b : Byte) (l : List Byte) : List Byte := l.set k b
      let b0 := BitVec.ofNat 8 (s.studyNum h t.frameAddr 1) ||| 2
      let fr := put 0 (((t.frame[0]?).getD 0) ||| 2) t.frame
      let fr := if t.routine.lane then put 8 0 (put 9 0 fr) else fr
      let r := if t.routine.lane then { t.routine with offset := 0, buf := [] } else t.routine
      let s := s.setStudy h t.frameAddr [b0]
      let s := if t.routine.lane then s.setStudy h (t.frameAddr + 8) [0, 0] else s
      s.modSeq h fun q => { q with susp := { t with spilled := true, frame := fr, routine := r } :: ts }

/-- One operand slot as a frame holds it (R229): USED tells whether the operand is there. -/
def slotOfWord (w : Nat) : Option Slot :=
  if w / 32768 % 2 = 1 then some { base := (w % 4096 : Nat), ptr := Fin.ofNat 8 (w / 4096), stride := w / 65536 % 256 } else none

/-- The stepping mode of a frame; the index register and scale of an indexed mode are no field of it. -/
def modeOfFrame (m : Nat) (old : StepMode) : StepMode :=
  match m % 4, old with
  | 0, _ => .register
  | 1, _ => .postInc
  | 2, _ => .preDec
  | _, .indexed x sc => .indexed x sc
  | _, _ => .indexed 0 0

/-- A suspended routine with every field but its mask taken from a frame (R231). Which of the schedules of R89 it goes on with
stays as issued, since what ROUTINE and UPC name is the microcode's own (log entry 87). -/
def Routine.ofFrame (r : Routine) (n : Nat) : Routine :=
  let w (k : Nat) : Nat := n / 2 ^ (32 * k) % 2 ^ 32
  let f (k lo width : Nat) : Nat := w k / 2 ^ lo % 2 ^ width
  { r with
    rep := f 0 5 1 = 1, repa := f 0 6 1 = 1, atom := f 0 7 1 = 1, len := f 0 8 5
    mode := modeOfFrame (f 0 24 2) r.mode
    offset := f 2 0 16, opword := BitVec.ofNat 32 (w 3)
    d := slotOfWord (w 4), a := slotOfWord (w 5), b := slotOfWord (w 6), c := slotOfWord (w 7)
    gval := BitVec.ofNat 32 (w 8), rm := f 9 0 2, sub := f 9 2 1 = 1, lfp := f 9 8 12
    altered := some
      { lane := f 0 4 1 = 1, upc := BitVec.ofNat 12 (w 1), routine := BitVec.ofNat 16 (w 1 / 65536), row := f 2 16 6
        priv := BitVec.ofNat 128 (n / 2 ^ 384), offset := f 2 0 16 } }

/-- Resuming the most recently suspended routine (R130, R230, R231): its spilled PE state is restored behind every lane store
of the handler (R98), the frame is read at MTF and its MIP cleared, and the routine is in progress again. When the frame is
not the one the device wrote, the routine goes on with the fields of the frame, and its results are free values. Where MTF is
no 64-aligned Study address, the fields are those the device wrote, and the results are free (DESIGN CHOICE, log entry 124). -/
def State.resume (s : State) (h : Fin 4) : State :=
  match (s.seq h).susp with
  | [] => s
  | t :: ts =>
    let mtf := (s.seq h).mtf
    let inStudy := mtf.toNat % 64 = 0 && decide (mtf.toNat < 0x40000)
    let n := if inStudy then s.studyNum h mtf.toNat 64 else numLE t.frame
    let same := inStudy && decide (bytesLE 64 n = t.frame)
    let s := if n / 2 % 2 = 1 then (s.drainLanes h).unspill t.routine.mask (n / 4 % 4) else s
    let s := s.modSeq h fun q => { q with susp := ts, mtf := mtf + 64 }
    let s := if inStudy then s.setStudy h mtf.toNat [BitVec.ofNat 8 n &&& 0xFE] else s
    if same then s.setRoutine h (some t.routine)
    else (s.freeUnits t.routine.mask).setRoutine h (some (t.routine.ofFrame n))

end Sys2Proof.Machine
end

