-- ==== Sys2Proof/Machine/Power.lean ====
section
/-! DEFINITION. Spread, power states, wing power and resets (17_clocks_power_reset.md R480 to R498). -/

namespace Sys2Proof.Machine

def State.modPower (s : State) (f : Power → Power) : State := { s with power := f s.power }

/-- STATE of SYS_PWRSTAT: 0 RUN, 1 IDLE, 2 DEEP (R497). -/
def State.pwrState (s : State) : Nat := s.getF (rg .sysPwrstat) F.sysPwrstat_STATE

def State.setPwrState (s : State) (v : Nat) : State := s.setF (rg .sysPwrstat) F.sysPwrstat_STATE v

/-- In DEEP. -/
def State.deep (s : State) : Bool := s.pwrState = 2

/-! ### Spread (R480, R482) -/

/-- SSC_APPLY: the profile of SYS_SSC is applied at the next top; SSCACT shows whether s is above 0. -/
def State.sscApply (s : State) : State :=
  let w := s.reg (rg .sysSsc)
  let act := F.sysSsc_EN.of w = 1 && F.sysSsc_DEPTH.of w ≠ 0
  (s.modPower fun p => { p with ssc := w }).setF (rg .sysClkstat) F.sysClkstat_SSCACT (b2n act)

/-! ### IDLE (R484) -/

/-- The conditions under which the array clocks may stop (R484). -/
def State.idleReady (s : State) : Bool :=
  ((List.finRange 4).all fun h =>
    let q := s.seq h
    q.jobs.isEmpty && q.caps.isEmpty && q.routine.isNone && q.susp.isEmpty) &&
  (List.range 8).all (fun w => !s.wingClearing w) &&
  ((List.finRange 8).all fun w => (s.inl w).writer.isEmpty) && s.outJobs.isEmpty &&
  !s.flag (rg .linkSeamStat) F.linkSeamStat_BUSY

/-- IDLE_ENTER (R484). -/
def State.idleEnter (s : State) : State :=
  if s.flag (rg .sysPwrstat) F.sysPwrstat_PENDING && s.idleReady then
    (s.setF (rg .sysPwrstat) F.sysPwrstat_PENDING 0).setPwrState 1
  else s

/-! ### Stopping the sequencers (R492 step 1) -/

/-- The routine of sequencer h runs to the end of its current iteration. -/
def State.finishIter (s : State) (h : Fin 4) : Nat → State
  | 0 => s
  | n + 1 =>
    match (s.seq h).routine with
    | some r => if r.begun then ((s.routineStep h).1).finishIter h n else s
    | none => s

/-- Sequencer h stops: its iteration, lane stores and captures complete, and what waits or is suspended is abandoned. It is held,
which STATE then shows (R144; DEDUCED, log entry 121); a halted one stays halted, which only a reset ends (R131). -/
def State.stopSeq (s : State) (h : Fin 4) : State :=
  let s := if s.hlock then ((s.finishIter h maxSteps).drainLanes h).completeCaptures h else s
  s.modSeq h fun q => { q with
    run := if q.run = .halted then .halted else .held
    atomRep := false, routine := none, susp := [], wait := none, load := none, vec := none, wdPend := false, jobs := [], caps := [] }

def State.stopSeqs (s : State) : State := (List.finRange 4).foldl State.stopSeq s

/-! ### DEEP (R485, R486) -/

/-- Banks that are ON, or waking to it. -/
def State.onBanks (s : State) : Word :=
  BitVec.ofNat 32 (((List.range 32).map fun b => match s.bank b with
    | .on | .waking _ => 2 ^ b
    | _ => 0).sum)

/-- Entry to DEEP (R485). It does not assert FAULT_N, and one that is asserted stays (DEDUCED, log entry 115). -/
def State.deepEnter (s : State) : State :=
  let s := s.stopSeqs.mantelReset
  let s := (s.modPower fun p => { p with deepBanks := s.onBanks }).banksDeep
  let s := (List.range 10).foldl State.clearUnit s
  let s := (s.annexClear).csInvalidate fun _ => true
  (s.setF (rg .sysPwrstat) F.sysPwrstat_PENDING 0).setPwrState 2

/-- The clocks restart: the banks that were ON wake as from OFF, and the wings that are to be ON are cleared (R486). -/
def State.deepExit (s : State) : State :=
  if !s.deep then s
  else
    let s := forN 32 (fun b s => if bit s.power.deepBanks b then s.setBank b (.waking true) else s) s
    let on := s.getF (rg .sysWpwr) F.sysWpwr_ON
    (s.setF (rg .sysWpwr) F.sysWpwr_CLEARING on).setPwrState 0

/-! ### Resets (R491 to R493) -/

/-- Registers of a block back at their reset values, but for kept families. -/
def State.resetBlock (s : State) (b : Nat) (keep : Fam → Bool) : State :=
  { s with regs := s.regs.filter fun e =>
      !(e.1 / 0x100000 = b && match Reg.ofOff e.1 with
        | some r => !keep r.fam
        | none => false) }

/-- Sequencers at their reset values; Study is kept (R125, R493), and H0 too is held until the release. -/
def State.resetSeqs (s : State) : State :=
  (List.finRange 4).foldl (fun (s : State) (h : Fin 4) =>
    s.modSeq h fun q => { Seq.reset h with run := .held, study := q.study, studyBad := q.studyBad }) s

/-- C := 0 and X := 1 in every PE of every ON wing and its halo (R31, R493). -/
def State.resetPes (s : State) : State :=
  forN 8 (fun w s =>
    if s.wingOn w && !s.wingClearing w then
      ((w + 1) :: haloOf w).foldl (fun (s : State) u => s.setPe u { s.pe u with c := 0, x := unitOnes u }) s
    else s) s

/-- What a reset keeps of Tyashlink (R431): EN, JOIN, port state, peers, DLY, LINK_CTL, LINK_TREE, LINK_RT and LINK_SYNC. -/
def linkKept : Fam → Bool
  | .kpCtl | .kpStat | .kpPeer | .kpDly | .linkCtl | .linkTree | .linkRt | .linkSync => true
  | _ => false

def State.resetLink (s : State) : State :=
  let s := s.resetBlock 7 linkKept
  let s := forN 6 (fun k s => s.setReg (rg .kpStat k) (s.reg (rg .kpStat k) &&& 0x1F)) s
  { s with
    reqs := s.reqs.filter (·.pcie)
    mantel := { s.mantel with shadow := s.mantel.shadow.filter fun e => decide (e.1 % 16 < 9) }
    link := { s.link with
      evq := [], self := [], schim := {}, seamNew := none
      ports := s.link.ports.map fun p => { p with waiting := p.waiting.filter fun f => f.body.cls ≠ 2 } } }

/-- What a warm reset leaves of the Assay: a remote request that it serves (R431; DEDUCED, log entry 108). -/
def Assay.kept (a : Assay) : Assay :=
  { sigQ := a.sigQ.filter fun j => match j with | .remote .. => true | _ => false
    snap := match a.sigQ with | .remote .. :: _ => a.snap | _ => none }

/-- What follows the pins and so stands through a reset: the filtered presence bits (R529) and the supply levels (R552) of `s0`. -/
def State.followPins (s s0 : State) : State :=
  let s := s.setF (rg .sensorHpres) F.sensorHpres_PRES (s0.getF (rg .sensorHpres) F.sensorHpres_PRES)
  forN 12 (fun b s => s.setF (rg .bankStat b) F.bankStat_VLVL (s0.getF (rg .bankStat b) F.bankStat_VLVL)) s

/-- Warm reset effects (R493). A held change of CELLAR_CFG.ILV is dropped, though the register is kept (DESIGN CHOICE, log entry
126). -/
def State.warmBlocks (s0 : State) : State :=
  let s := s0.resetSeqs
  let s := (s.resetBlock 3 fun f => f = .wingCnt || f = .wingFirst).resetPes
  let s := s.resetBlock 6 fun f => f = .cellarCfg || f = .cellarPwr0 || f = .cellarPwr1
  let s := { s with
    dma := Vector.replicate 48 {}
    cellar := { s.cellar with ilvReq := none, planNext := (0, 0), planBanks := 0xFFFFFFFF, planRetry := [] } }
  let s := { s.resetBlock 9 fun _ => false with inlet := Vector.replicate 8 {}, outJobs := [] }
  let s := { s.resetBlock 4 (fun f => f = .peProg) with chans := Vector.replicate 512 {}, gp := {} }
  let s := { s.annexClear.resetBlock 5 (fun _ => false) with
    annex := { s.annexClear.annex with wfifo := [], rfifo := [], wins := [], held := [] } }
  let s := s.mantelReset.resetLink
  let s := s.resetBlock 8 fun f => f = .pcieSubsys || f = .pcieCtl || f = .pcieLink || f = .pcieHdb
  let s := { s.modPcie (fun p => { p with discard := false, outErr := false }) with reqs := [] }
  let s := s.resetBlock 1 fun _ => false
  let s := forN 4 (fun h s => s.setF (rg .wdCfg h) F.wdCfg_EN 0) s
  let s := { s.resetBlock 10 (fun f => f = .asOtp || f = .asMcSrc || f = .asMcCtl) with assay := s.assay.kept, verQ := [] }
  let safe (s' : State) (i : Nat) : State := s'.setF (rg .gpCtl i) F.gpCtl_SAFE (s.getF (rg .gpCtl i) F.gpCtl_SAFE)
  let lock (s' : State) : State := s'.setF (rg .pinsCtl) F.pinsCtl_SAFELOCK (s.getF (rg .pinsCtl) F.pinsCtl_SAFELOCK)
  let s := ((List.range 384).foldl safe (lock (s.resetBlock 12 fun _ => false))).followPins s0
  let s := s.resetBlock 0 fun f => f = .sysClkstat || f = .sysRstcause || f = .sysWpwr
  let s := s.setF (rg .sysClkstat) F.sysClkstat_SSCACT 0
  { s.modPower (fun p => { p with ssc := 0 }) with replies := [], latched := [], fwd := [], service := [], lodge := { s.lodge with wrst := none } }

/-- A warm reset begins, or gains a further cause (R491, R492). One that ends DEEP starts the wake clears of R486. -/
def State.warmReset (s0 : State) (pin : Bool) (lodge : Option Nat) (deep : Bool) : State :=
  let old := s0.power.warm.getD {}
  let s := s0.deepExit.stopSeqs.warmBlocks
  s.modPower fun p => { p with warm := some {
    pin := old.pin || pin
    lodge := if lodge.isSome then lodge else old.lodge
    deep := old.deep || deep
    banks := if s0.deep then s0.power.deepBanks else old.banks
    wings := if s0.deep then s0.getF (rg .sysWpwr) F.sysWpwr_ON else old.wings } }

/-- WARM_RESET: WRST_N low for 4 LCLK (`pin`), or the WRST action of a Lodge cause, after that cause's record (R462). -/
def State.warmEvent (s : State) (pin : Bool) : State :=
  if pin then s.warmReset true none false
  else match s.lodge.wrst with
    | some c => s.warmReset false (some c) false
    | none => s

/-- The strap is sampled and the boot ROM of H0 is at its start (R499, R503). -/
def State.sampleStrap (s : State) (sel : BitVec 3) : State :=
  let x := rg .asBootStat
  ((s.setF x F.asBootStat_BOOTSEL sel.toNat).setF x F.asBootStat_STRAPERR (b2n (decide (4 ≤ sel.toNat)))).modAssay fun a =>
    { a with boot := { stage := .start } }

/-- Has every wake clear of R486 that the warm reset waits for ended (R492)? -/
def State.wakesDone (s : State) (w : Warm) : Bool :=
  (List.range 32).all (fun b => !(bit w.banks b && s.bankWaking b)) &&
    (List.range 8).all fun i => !(w.wings.testBit i && s.wingClearing i)

/-- RESET_RELEASE: WRST_N is high, the PLL is locked and every wake clear of R486 has ended (R492, R498). -/
def State.resetRelease (s : State) (sel : BitVec 3) : State :=
  match s.power.warm with
  | none => s
  | some w =>
    if !s.hlock || !s.wakesDone w then s
    else
      let kind := if w.pin then 1 else if w.lodge.isSome then 2 else 3
      let x := rg .sysRstcause
      let s := s.setF x F.sysRstcause_KIND kind
      let s := s.setF x F.sysRstcause_LCAUSE (if kind = 2 then w.lodge.getD 0 else 0)
      let s := (s.setF x F.sysRstcause_BOOTSEL sel.toNat).sampleStrap sel
      (s.modPower fun p => { p with warm := none }).modSeq 0 fun q => { q with run := .running }

/-- The wake cause that ends DEEP (R486): 1 WHDB, 2 WEVT, 3 WTICK; the lowest when several hold. -/
def State.wakeCause (s : State) : Option Nat :=
  let c := s.reg (rg .sysPwrctl)
  if F.sysPwrctl_WHDB.of c = 1 && s.reg (rg .pcieHdb) ≠ 0 then some 1
  else if F.sysPwrctl_WEVT.of c = 1 && !s.link.evq.isEmpty then some 2
  else if F.sysPwrctl_WTICK.of c = 1 &&
      decide ((s.reg (rg .sysWakelo)).toNat + 2 ^ 32 * (s.reg (rg .sysWakehi)).toNat ≤ s.count.toNat) then some 3
  else none

/-- DEEP_WAKE (R486): the wake cause is recorded in the PWRSTAT that the reset leaves. -/
def State.deepWake (s : State) : State :=
  if !s.deep then s
  else match s.wakeCause with
    | some c => (s.warmReset false none true).setF (rg .sysPwrstat) F.sysPwrstat_WCAUSE c
    | none => s

/-- POR_N low, or a rail outside its conditions (R491): cold reset. OTP, what waits at the queue and the model's index of
free values stand, what follows the pins does, and so does Study unless VDDM goes (`vddm`; R125); everything else is as reset
leaves it, and nothing runs. -/
def State.porLow (s : State) (vddm : Bool) : State :=
  let r : State := { State.reset with
    pending := s.pending, free := s.free
    regs := s.regs.filter fun e => match Reg.ofOff e.1 with
      | some x => x.fam = .asOtp
      | none => false }
  let study (h : Fin 4) (q : Seq) : Seq :=
    if vddm then q else { q with study := (s.seq h).study, studyBad := (s.seq h).studyBad }
  { (List.finRange 4).foldl (fun (r : State) (h : Fin 4) => r.modSeq h fun q => { study h q with run := .held })
      (r.followPins s) with
    hlock := false, power := { por := true }, assay := {} }

/-- Is VIO1 below its valid level: is the supply of bank 0 absent or out of range (R546)? -/
def State.vio1Bad (s : State) : Bool := s.supplyOff 0

/-- The supply of a bank changes. VIO1 supplies bank 0 and POR_N: below its valid level POR_N is taken as low (R546, R552). -/
def State.supplyLevel (s : State) (b lvl : Nat) : State :=
  if s.power.por then s.setF (rg .bankStat b) F.bankStat_VLVL lvl
  else
    let s := s.supplyChange b lvl
    if s.vio1Bad then s.porLow false else s

/-- COLD_POWER_UP: POR_N rises and the sequence of R490 runs to the first fetch of H0; BOOTSEL is sampled. While VIO1 is
below its valid level POR_N is taken as low (R546). -/
def State.coldUp (s : State) (sel : BitVec 3) : State :=
  if !s.power.por || s.vio1Bad then s
  else
    let s := { s with hlock := true, power := {} }
    let s := (s.setF (rg .sysRstcause) F.sysRstcause_BOOTSEL sel.toNat).sampleStrap sel
    s.modSeq 0 fun q => { q with run := .running }

/-! ### Wing power (R488) -/

/-- Does a suspended routine of a sequencer that is not halted name wing w (R26, R488)? -/
def State.frameNames (s : State) (w : Nat) : Bool :=
  (List.finRange 4).any fun h =>
    (s.seq h).run ≠ .halted && (s.seq h).susp.any fun t => t.routine.mask.getLsbD w

/-- One bit of a write of SYS_WPWR by sequencer h. -/
def State.wingPower (s : State) (h : Fin 4) (w : Nat) (on : Bool) : State :=
  if s.wingOn w = on then s
  else if s.wingOwner w ≠ h.val || s.frameNames w then
    let x := rg .sysPwrstat
    if s.flag x F.sysPwrstat_WREF then s else (s.setF x F.sysPwrstat_WREF 1).setF x F.sysPwrstat_WREFW w
  else
    let x := rg .sysWpwr
    let s := s.setReg x (setBits (s.reg x) w 1 (b2n on))
    if on then s.setReg x (setBits (s.reg x) (8 + w) 1 1)
    else
      let s := s.setReg x (setBits (s.reg x) (8 + w) 1 0)
      ((w + 1) :: haloOf w).foldl State.clearUnit s

/-- A write of SYS_WPWR (R488): it takes effect after the writer's earlier instructions, lane stores included. -/
def State.wpwrWrite (s : State) (r : Requester) (v : Word) : State :=
  match r with
  | .seq h => forN 8 (fun w s => s.wingPower h w (bit v w)) ((s.runRoutineTo h none).drainLanes h)
  | _ => s

/-! ### Pins that no register shows (R494, R546) -/

/-- What launch output k drives at its pin: nothing while VIO12 is not valid (R380, R463, R494, R546). -/
def State.outDrive (s : State) (k : Nat) : Option Bool := if s.supplyOff 11 then none else some (s.outPin k)

/-- Is FAULT_N, an open drain, driven low (R463, R494, R557)? -/
def State.faultLow (s : State) : Bool := !s.power.por && s.flag (rg .lodgeStat) F.lodgeStat_FAULTN

/-- Who drives the BSPI_* pins. -/
inductive FlashUser where
  | released
  | lodge
  | bootRom
  | port
  deriving DecidableEq, Repr

/-- The Lodge for its records, else the boot ROM while it runs, else a transaction of the flash port (R464, R494, R507, R521;
DEDUCED, log entry 130). -/
def State.flashUser (s : State) : FlashUser :=
  if s.power.por then .released
  else if s.flag (rg .lodgeStat) F.lodgeStat_RECBUSY then .lodge
  else if s.assay.boot.stage ≠ .off && s.power.warm.isNone then .bootRom
  else if s.flag (rg .asBspiStat) F.asBspiStat_BUSY then .port
  else .released

/-- A BSPI_* pin: high impedance, pulled high, an input, or driven. -/
inductive BspiPad where
  | off
  | pulledHigh
  | input
  | driven (by' : FlashUser)
  deriving DecidableEq, Repr

/-- The BSPI_* pins (R494, R546): while nobody drives them the chip select is pulled high and the others are inputs, and without
their supply, VIO1, they are high impedance. -/
def State.bspiPad (s : State) (chipSelect : Bool) : BspiPad :=
  if s.vio1Bad then .off
  else match s.flashUser with
    | .released => if chipSelect then .pulledHigh else .input
    | u => .driven u

/-! ### Register accesses (R483, R495 to R497) -/

/-- Reserved encodings (R496, R497). -/
def powerReserved (x : Reg) (v : Word) : Bool :=
  match x.fam with
  | .sysSsc => decide (32 < F.sysSsc_DEPTH.of v)
  | .sysPwrctl => F.sysPwrctl_REQ.of v = 3
  | _ => false

/-- A sequencer's write of SYS_PWRCTL (R483 to R485). -/
def State.pwrctlWrite (s : State) (v : Word) : State :=
  let s := s.writeDefault (rg .sysPwrctl) v
  let st := rg .sysPwrstat
  match F.sysPwrctl_REQ.of v with
  | 0 =>
    let s := s.setF st F.sysPwrstat_PENDING 0
    if s.pwrState = 1 then s.setPwrState 0 else s
  | 1 => if s.pwrState = 0 then s.setF st F.sysPwrstat_PENDING 1 else s
  | _ => s.deepEnter

/-- Writes of the chapter's registers (R495). -/
def State.powerWrite (s : State) (r : Requester) (x : Reg) (v : Word) : State :=
  match x.fam with
  | .sysWpwr => s.wpwrWrite r v
  | .sysPwrctl => if fromSeq r then s.pwrctlWrite v else s
  | _ => if fromSeq r then s.writeDefault x v else s

/-- Reads: HLOCK (R479). -/
def State.powerRead (s : State) (x : Reg) : Word :=
  match x.fam with
  | .sysClkstat => setBits (s.reg x) 0 1 (b2n s.hlock)
  | _ => s.reg x

end Sys2Proof.Machine
end

