-- ==== Sys2Proof/Machine/Doorbell.lean ====
section
/-! DEFINITION. The doorbells: source levels, routing, claim and complete, forwarding to MSI-X
(16_doorbells_faults_lodge.md R450 to R457). -/

namespace Sys2Proof.Machine

/-- Is a source asserted (R450, R451)? -/
def State.asserted (s : State) (src : Nat) : Bool :=
  if src < 576 then s.porchSource src
  else if src < 624 then s.cellarSource src
  else if src < 648 then s.linkSource src
  else if src < 664 then s.pcieSource src
  else if src < 696 then s.sensorSource src
  else if src < 712 then s.mantelSource src
  else if src < 744 then s.annexSource src
  else if src < 752 then s.cellarSource src
  else if src < 760 then s.assaySource src
  else if src < 768 then s.lodgeSource src
  else false

/-- The sources whose DB_SRC is not 0, with that word, in ascending order. -/
def State.routed (s : State) : List (Nat × Word) :=
  if s.regs.any fun e => decide (0x100000 ≤ e.1) && decide (e.1 < 0x100C00) then
    (List.range 768).filterMap fun src =>
      let w := s.reg (rg .dbSrc src)
      if w = 0 then none else some (src, w)
  else []

/-- Is a source in service? -/
def State.inService (s : State) (src : Nat) : Bool := s.service.any fun e => e.1 = src

/-- The candidates of sequencer h with their levels, in ascending order (R453). -/
def State.candidates (s : State) (h : Fin 4) : List (Nat × Nat) :=
  (s.routed.filter fun e => F.dbSrc_SEN.of e.2 = 1 && F.dbSrc_SEQ.of e.2 = h.val && s.asserted e.1 && !s.inService e.1).map
    fun e => (e.1, F.dbSrc_LEVEL.of e.2)

/-- The candidate that a claim chooses: highest level, then lowest number (R454). -/
def bestOf (l : List (Nat × Nat)) : Option (Nat × Nat) :=
  l.foldl (fun a e => match a with
    | some b => if b.2 < e.2 then some e else some b
    | none => some e) none

/-- The highest level presented to h (R453). -/
def State.topLevel (s : State) (h : Fin 4) : Option Nat := (bestOf (s.candidates h)).map (·.2)

/-- DB_SEQ[h]_PEND (R453). -/
def State.pendWord (s : State) (h : Fin 4) : Word :=
  BitVec.ofNat 32 ((List.range 16).map fun l => if (s.candidates h).any fun e => e.2 = l then 2 ^ l else 0).sum

/-- Does a status bit record the happening that raised a source: DONE of a DMA channel (R451)? -/
def State.recorded (s : State) (src : Nat) : Bool :=
  decide (576 ≤ src) && decide (src < 624) && s.flag (rg .dmaStat (src - 576)) F.dmaStat_DONE

/-- A read of DB_SEQ[h]_CLAIM (R454). A source that a happening without a status bit raised is lowered by its claim
(R451; DEDUCED, log entry 23). -/
def State.claim (s : State) (r : Requester) (h : Fin 4) : State × Word :=
  if r ≠ .seq h then (s, 0)
  else match bestOf (s.candidates h) with
    | none => (s, 0)
    | some (src, l) =>
      ({ s with
          latched := if s.recorded src then s.latched else s.latched.filter (· ≠ src)
          service := s.service ++ [(src, h)] }, BitVec.ofNat 32 (src + 1024 * l + 2 ^ 31))

/-- A write of DB_SEQ[h]_COMPLETE (R455). -/
def State.complete' (s : State) (r : Requester) (h : Fin 4) (v : Word) : State :=
  if r ≠ .seq h then s
  else
    let src := F.dbComplete_SRC.of v
    if s.service.contains (src, h) then { s with service := s.service.erase (src, h) }
    else s.capture (rg .dbErr) F.dbErr_VALID F.dbErr_MULTI fun w => setBits (setBits w 0 10 src) 10 2 h.val

/-- A word of 32 bits, bit i from `p`. -/
def maskWord (p : Nat → Bool) : Word := BitVec.ofNat 32 ((List.range 32).map fun i => if p i then 2 ^ i else 0).sum

/-- Reads of the block (R453, R454, R472). -/
def State.dbRead (s : State) (r : Requester) (x : Reg) : State × Word :=
  match x.fam with
  | .dbRaw => (s, maskWord fun i => s.asserted (32 * x.i + i))
  | .dbInsvc => (s, maskWord fun i => s.inService (32 * x.i + i))
  | .dbClaim => s.claim r (Fin.ofNat 4 x.i)
  | .dbPend => (s, s.pendWord (Fin.ofNat 4 x.i))
  | _ => (s, s.reg x)

/-- Writes of the block (R455, R472). -/
def State.dbWrite (s : State) (r : Requester) (x : Reg) (v : Word) : State :=
  match x.fam with
  | .dbSrc => if fromSeq r || r = .host then s.writeDefault x v (s.flag (rg .dbCtl) F.dbCtl_LOCK) else s
  | .dbCtl => if fromSeq r || r = .host then s.writeDefault x v else s
  | .dbComplete => s.complete' r (Fin.ofNat 4 x.i) v
  | _ => s.writeDefault x v

/-- The OR of the forwarded sources of each MSI-X vector (R457). A claim does not lower one that no status bit records. -/
def State.forwarded (s : State) : BitVec 64 :=
  s.routed.foldl (fun w e =>
    if F.dbSrc_HEN.of e.2 = 1 && (s.asserted e.1 || s.fwd.contains e.1) then w ||| (1#64 <<< F.dbSrc_VEC.of e.2) else w) 0

/-- MSI-X messages follow the sources (R444). -/
def State.sync (s : State) : State := s.msixSync s.forwarded

end Sys2Proof.Machine
end

