-- ==== Sys2Proof/Machine/Regs.lean ====
section
/-! DEFINITION. The register space: one read and one write for every requester (00_scope.md R7 to R16, R570,
21_address_and_register_index.md R568), and the SYS block. -/

namespace Sys2Proof.Machine

/-- SYS_SEQ[h]_STAT (R144). -/
def State.seqStatWord (s : State) (h : Fin 4) : Word :=
  let q := s.seq h
  BitVec.ofNat 32 (runCode q.run + 4 * q.hcause + 32 * q.susp.length + 256 * q.atomx)

/-- Writes of the SYS block (R12, R144, R198, R199, R495, R509). -/
def State.sysWrite (s : State) (r : Requester) (x : Reg) (v : Word) : State :=
  let h := Fin.ofNat 4 x.i
  match x.fam with
  | .sysSeqStat => if F.sysSeqStat_ATOMCLR.of v = 1 then s.modSeq h fun q => { q with atomx := 0 } else s
  | .sysSeqEvl => s.modSeq h fun q => { q with ev := q.ev ||| v }
  | .sysSeqEvc => s.modSeq h fun q => { q with ev := q.ev &&& ~~~v }
  | .sysSeqrel => s.seqrel r v
  | .sysRegerr | .sysSeqEntry => s.writeDefault x v
  | _ => s.powerWrite r x v

/-- Reads of the SYS block; REV is the silicon's (R569, log entry 6). -/
def State.sysRead (s : State) (x : Reg) : Word :=
  let h := Fin.ofNat 4 x.i
  match x.fam with
  | .sysSeqStat => s.seqStatWord h
  | .sysSeqEvl | .sysSeqEvc => (s.seq h).ev
  | .sysId => setBits (s.reg x) 16 8 Config.siliconRev.toNat
  | _ => s.powerRead x

/-- Would the write be discarded under R11? The test comes before any ownership check. -/
def State.regReserved (s : State) (r : Requester) (x : Reg) (v : Word) : Bool :=
  match x.off / 0x100000 with
  | 0 => powerReserved x v
  | 2 => s.mantelReserved x r v
  | 3 => arrayReserved x v
  | 4 => s.porchReserved x v
  | 5 => annexReserved x v
  | 6 => cellarReserved x v
  | 7 => s.linkReserved x v
  | 9 => s.sensorReserved x v
  | 10 => s.assayReserved x v
  | 11 => s.lodgeReserved x v
  | 12 => s.pinsReserved x v
  | _ => false

/-- A write that its block accepts. -/
def State.regEffect (s : State) (r : Requester) (x : Reg) (v : Word) : State :=
  match x.off / 0x100000 with
  | 0 => s.sysWrite r x v
  | 1 => s.dbWrite r x v
  | 2 => s.mantelWrite r x v
  | 3 => s.arrayWrite r x v
  | 4 => s.porchWrite r x v
  | 5 => s.annexWrite r x v
  | 6 => s.cellarWrite r x v
  | 7 => s.linkWrite r x v
  | 8 => s.pcieWrite r x v
  | 9 => s.sensorWrite r x v
  | 10 => s.assayWrite r x v
  | 11 => s.lodgeWrite r x v
  | _ => s.pinsWrite r x v

/-- A write of a register by a requester (R9 to R12). -/
def State.regPut (s : State) (r : Requester) (x : Reg) (v : Word) : State :=
  if s.regReserved r x v then s.regErr r x.off else s.regEffect r x v

/-- The register at an offset that is an aligned word (R7, R8). -/
def regAt (off : Nat) : Option Reg := if off % 4 = 0 then Reg.ofOff off else none

/-- A write at an offset: none where no register stands there or the access is no aligned word (R7, R8). -/
def State.regWrite (s : State) (r : Requester) (off : Nat) (v : Word) : Option State :=
  (regAt off).map fun x => s.regPut r x v

/-- Does the block hold the write back (R350)? -/
def State.regHolds (s : State) (r : Requester) (off : Nat) : Bool :=
  match regAt off with
  | some x => s.annexHolds r x
  | none => false

/-- The block holds a write of ANNEX_CFG_DATA (R350). -/
def State.regHold (s : State) (r : Requester) (v : Word) : State :=
  s.modAnnex fun a => { a with held := a.held ++ [(r, v)] }

/-- Writes held by the block are taken, in order, while the FIFO has room: at most `n` of them. -/
def State.unhold (s : State) : Nat → State
  | 0 => s
  | n + 1 =>
    match s.annex.held with
    | [] => s
    | (r, v) :: l =>
      if s.regHolds r (rg .annexCfgData).off then s
      else ((s.modAnnex fun a => { a with held := l }).regPut r (rg .annexCfgData) v).unhold n

/-- Is a register the low word of a pair read under R368? -/
def lowOfPair (x : Reg) : Bool :=
  match x.fam with
  | .mantelCntlo | .encTlo | .lcLastlo | .linkSyncRxlo | .linkSyncAtlo => true
  | _ => false

/-- Is the register a Chimney result that sequencer h consumes: its own total, or the result of a wing it owns (R48)? -/
def State.ownResult (s : State) (h : Fin 4) (x : Reg) : Bool :=
  match x.fam with
  | .chimCnt | .chimFirst => x.i = h.val
  | .wingCnt | .wingFirst => s.wingOwner x.i = h.val
  | _ => false

/-- A read by a sequencer of such a result waits until the captures it has issued have completed (R48). -/
def State.awaitCaptures (s : State) (r : Requester) (x : Reg) : State :=
  match r with
  | .seq h => if s.ownResult h x then s.completeCaptures h else s
  | _ => s

/-- A read of a register by a requester, with what the read itself changes. -/
def State.regGet (s : State) (r : Requester) (x : Reg) : State × Word :=
  let s := s.awaitCaptures r x
  match pairOf x with
  | some p => if lowOfPair x then s.readLow r p else (s, s.readHigh r p)
  | none =>
    match x.off / 0x100000 with
    | 0 => (s, s.sysRead x)
    | 1 => s.dbRead r x
    | 4 => s.porchRead r x
    | 5 => s.annexRegRead r x
    | 6 => (s, s.cellarRead x)
    | 7 => if x.fam = .linkEvqhi then s.popEvent else (s, s.linkRead x)
    | 8 => (s, s.pcieRead x)
    | 10 => (s, s.assayRead x)
    | 12 =>
      if x.fam = .pinsIn then
        let t := s.fresh
        (t.2, t.2.pinsInWord x.i t.1)
      else (s, s.reg x)
    | _ => (s, s.reg x)

/-- A read at an offset; none as for a write. -/
def State.regRead (s : State) (r : Requester) (off : Nat) : Option (State × Word) :=
  (regAt off).map fun x => s.regGet r x

end Sys2Proof.Machine
end

