-- ==== Sys2Proof/Machine/Serve.lean ====
section
/-! DEFINITION. The device as a target of requests from outside: Tyashlink BULK (14_tyashlink.md R412 to R416, R518, R519)
and inbound PCI Express (15_pcie_host_port.md R441, R442). -/

namespace Sys2Proof.Machine

/-- The clocks derived from the hearth PLL run and the device is not in DEEP (R479, R485). -/
def State.coreOn (s : State) : Bool := s.hlock && !s.deep

/-! ### BULK requests served (R415, R242, R247, R505) -/

/-- Response statuses (R408). -/
def stOk : Nat := 0
def stError : Nat := 1
def stNotReady : Nat := 2
def stLost : Nat := 3
def stUnreachable : Nat := 4

/-- Is a range open to remote requests: within one of the three ranges, permitted by RACC, within 256 bytes (R415)? -/
def State.bulkRange (s : State) (a n : Nat) : Option Region :=
  let acc (k : Nat) : Bool := (s.getF (rg .linkCtl) F.linkCtl_RACC).testBit k
  if 256 < a % 256 + n then none
  else match regionOfRange a n with
    | some .landing => if acc 0 then some .landing else none
    | some .cellar => if acc 1 then some .cellar else none
    | some .regs => if acc 2 && n = 4 && a % 4 = 0 then some .regs else none
    | _ => none

/-- A READ served: status and data. -/
def State.serveRead (s : State) (a n : Nat) : State × Nat × Nat :=
  match s.bulkRange a n with
  | some .regs =>
    match s.regRead .remote (a - 0x40000000) with
    | some (s, v) => (s, stOk, v.toNat)
    | none => (s, stError, 0)
  | some _ =>
    if (s.bankSt a).isDown then (s, stError, 0)
    else if (s.bankSt a).isWaking then (s, stNotReady, 0)
    else match s.ramRead 6 a n with
      | (s, some l) => (s, stOk, numLE l)
      | (s, none) => (s, stError, 0)
  | none => (s, stError, 0)

/-- A WRITE served: its status; `lost` names the Landing words that a sequencer writes in the same ACLK (R247). -/
def State.serveWrite (s : State) (a : Nat) (l : List Byte) (lost : List (BitVec 16)) : State × Nat :=
  match s.bulkRange a l.length with
  | some .regs =>
    match s.regWrite .remote (a - 0x40000000) (BitVec.ofNat 32 (numLE l)) with
    | some s => (s, stOk)
    | none => (s, stError)
  | some g =>
    if s.lockout then (s.lockoutDrop, stError)
    else if (s.bankSt a).isDown then (s, stError)
    else if (s.bankSt a).isWaking then (s, stNotReady)
    else if g = .landing then
      let t := s.landWrite 6 a l lost
      (t.1, if t.2.1 then stLost else if t.2.2 then stOk else stError)
    else
      let t := s.ramWrite 6 a l
      (t.1, if t.2 then stOk else stError)
  | none => (s, stError)

/-- An ATTEST request: held for the Assay, or answered NOT_READY (R518). -/
def State.serveAttest (s : State) (port : Fin 6) (hdr : LinkHdr) (tag req : Nat) : State :=
  if s.assay.sigQ.any fun j => match j with | .remote .. => true | _ => false then
    let x := rg .asAttSrv
    (s.setF x F.asAttSrv_NOTREADY (satAdd (s.getF x F.asAttSrv_NOTREADY) 1 (2 ^ F.asAttSrv_NOTREADY.width - 1))).bulkAnswer
      port hdr 5 tag 1 stNotReady 0 0
  else s.modAssay fun a => { a with sigQ := a.sigQ ++ [.remote port hdr tag req] }

/-! ### Responses (R416, R519) -/

/-- A response whose request is no longer outstanding (R416, R254, R430). -/
def State.lateResponse (s : State) (port : Option (Fin 6)) (tag : Nat) : State :=
  let x := rg .linkBstat
  let s := s.setF x F.linkBstat_LATE (satAdd (s.getF x F.linkBstat_LATE) 1 255)
  let s := match port with
    | some k => s.setF (rg .kpStat k) F.kpStat_BERR 1
    | none => s
  match s.link.lateTags.find? fun e => e.1 = tag with
  | some (_, c) => (s.modLink fun l => { l with lateTags := l.lateTags.eraseP fun e => e.1 = tag }).dmaLate c
  | none => s

/-- A response with its status and data (R416); NOT_READY marks the request for reissue. -/
def State.respond (s : State) (port : Option (Fin 6)) (tag status off len data : Nat) : State :=
  match s.reqs.find? fun q => q.tag = tag && !q.pcie with
  | none => s.lateResponse port tag
  | some q =>
    let status := if 4 < status then stError else status
    if status = stNotReady then
      { s with reqs := s.reqs.map fun p => if p.tag = tag then { p with again := true } else p }
    else if q.who = .attest && status = stOk then
      match s.assay.att with
      | some a =>
        let s := s.attPart a off len data
        if s.assay.att.isNone then s.dropReq tag else s
      | none => s.dropReq tag
    else (s.dropReq tag).reqEnd q status false data

/-! ### BULK frames (R412, R413) -/

/-- The response op to a request op. -/
def answerOp (op : Nat) : Nat := if op = 0 then 2 else if op = 1 then 3 else 5

/-- A BULK frame of port k for this device (R415, R416, R518). -/
def State.bulkTake (s : State) (k : Fin 6) (hdr : LinkHdr) (op tag len status addr data : Nat) (lost : List (BitVec 16)) :
    State :=
  match op with
  | 0 =>
    let t := s.serveRead addr len
    t.1.bulkAnswer k hdr 2 tag len t.2.1 addr t.2.2
  | 1 =>
    let t := s.serveWrite addr (bytesLE len data) lost
    t.1.bulkAnswer k hdr 3 tag len t.2 addr 0
  | 4 => s.serveAttest k hdr tag data
  | _ => s.respond (some k) tag status addr len data

/-- Does a BULK request await an answer? -/
def bulkAsks (op : Nat) : Bool := op = 0 || op = 1 || op = 4

/-- Is a frame a BULK one that this device consumes? -/
def State.forUs (s : State) (k : Fin 6) : LinkHdr × LinkBody → Bool
  | (hdr, .bulk ..) => decide (s.routeOf hdr k false = .consume) && (hdr.rt || s.joined k)
  | _ => false

/-- A BULK frame arrives: consumed, forwarded, or dropped; a table-routed request dropped is answered UNREACHABLE
(R412, R413). -/
def State.bulkIn (s : State) (k : Fin 6) (hdr : LinkHdr) (op tag len status addr data : Nat) (lost : List (BitVec 16)) :
    State :=
  if !hdr.rt && !s.joined k then s.portDrop k
  else match s.routeOf hdr k false with
    | .consume => s.bulkTake k hdr op tag len status addr data lost
    | .send k' hdr => s.frameSend k' ⟨hdr, .bulk op tag len status addr data⟩
    | .drop =>
      let s := s.portDrop k
      if !hdr.rt && bulkAsks op then s.bulkAnswer k hdr (answerOp op) tag 1 stUnreachable addr 0 else s

/-- The fraction of a tick at which a frame arrives, a free value where none is given (log entry 106). -/
def State.arrival (s : State) (own : Option (Fin 16)) : Nat × State :=
  match own with
  | some n => (n.val, s)
  | none => (s.fresh.1.toNat % 16, s.fresh.2)

/-- A frame with body b arrives at a port: what the class and body that its blocks spell ask. `own` is the fraction of a tick at
which its SOF arrives, `lost` the Landing words that a sequencer writes in the same ACLK (R247), `collide` the planes whose
write meets a micro-operation (R34). While the core clocks stand still a BULK frame for this device is not taken (DESIGN
CHOICE, log entry 38). -/
def State.frameIn (s : State) (f : FrameIn) (b : LinkBody) (own : Option (Fin 16) := none) (lost : List (BitVec 16) := [])
    (collide : BitVec 32 := 0) : State :=
  let k := f.port
  match s.frameArrives k (frameWire f b) with
  | (s, none) => s
  | (t, some (hdr, b)) =>
    if !t.coreOn && t.forUs k (hdr, b) then s
    else match b with
      | .hello peer id idv join => t.hello k peer id idv join
      | .dlyreq => (t.arrival own).2.dlyreqIn k (t.arrival own).1
      | .dlyrsp turn => (t.arrival own).2.dlyrspIn k turn (t.arrival own).1
      | .sync count frac => (t.arrival own).2.syncIn k count frac.toNat (t.arrival own).1
      | .seam plane east planes => t.seamIn k hdr.dst plane east planes collide
      | .bulk op tag len status addr data => t.bulkIn k hdr op tag len status addr data lost

/-! ### Requests that this device sends to itself -/

/-- The words of `n` Landing bytes at `a` that a sequencer writes in the same ACLK: of those that stand at the head of a write
buffer, which ones is free (R247; log entry 97). -/
def State.selfHits (s : State) (a n : Nat) : List (BitVec 16) × State :=
  let words (a n : Nat) : List Nat := span ((a - 0x10000000) / 4) ((a % 4 + n + 3) / 4)
  let near := ((List.finRange 4).flatMap fun h => match (s.seq h).wbuf with
    | e :: _ => if regionOf e.addr = some .landing then words e.addr e.size else []
    | [] => []).filter fun w => regionOf a = some .landing && (words a n).contains w
  if near.isEmpty then ([], s)
  else
    let t := s.fresh
    ((near.filter fun w => t.1.getLsbD (w % 32)).map (BitVec.ofNat 16), t.2)

/-- The first frame of the device to itself is served or ends its request. -/
def State.selfServe (s : State) : State :=
  match s.link.self with
  | [] => s
  | ⟨hdr, .bulk op tag len status addr data⟩ :: rest =>
    let s := s.modLink fun l => { l with self := rest }
    let t := if op = 1 then s.selfHits addr len else ([], s)
    if bulkAsks op then t.2.bulkTake 0 hdr op tag len status addr data t.1 else s.respond none tag status addr len data
  | _ :: rest => s.modLink fun l => { l with self := rest }

/-- At most `n` such frames. -/
def State.selfServeN (s : State) : Nat → State
  | 0 => s
  | n + 1 => if s.link.self.isEmpty then s else s.selfServe.selfServeN n

/-! ### Timeouts and reissue (R254, R416, R443, R519) -/

/-- The requests that `p` selects whose limit has passed end with a timeout; late responses of a DMA burst are counted at its
channel (R254). -/
def State.timeouts (s : State) (p : Req → Bool) : State :=
  let expired (q : Req) : Bool := p q && (match q.due with
    | some t => decide (t < s.ns)
    | none => false)
  let gone := s.reqs.filter expired
  let s := { s with reqs := s.reqs.filter fun q => !expired q }
  gone.foldl (fun (s : State) q =>
    let s := match q.who with
      | .dma c => s.modLink fun l => { l with lateTags := l.lateTags ++ [(q.tag, c)] }
      | _ => s
    let s := if q.pcie then s.aerLog aerTimeout false else s
    s.reqEnd q 0 true 0) s

/-- A request answered NOT_READY is sent again (R416); a source route that has gone drops it (R412). -/
def State.reissue (s : State) (tag : Nat) : State :=
  match s.reqs.find? fun q => q.tag = tag && !q.pcie && q.again with
  | none => s
  | some q =>
    let op := if q.who = .attest then 4 else b2n q.write
    let body := LinkBody.bulk op tag q.len 0 q.addr (if q.write then q.data else 0)
    let put (port : Nat) (s : State) : State :=
      { s with reqs := s.reqs.map fun p => if p.tag = tag then { p with again := false, port := port } else p }
    match s.routeOf q.hdr 0 true with
    | .send k hdr => (put k s).frameSend k ⟨hdr, body⟩
    | .consume => (put 6 s).modLink fun l => { l with self := l.self ++ [⟨q.hdr, body⟩] }
    | .drop => if q.hdr.rt then put 6 s else (s.dropReq tag).reqEnd q stUnreachable false 0

/-! ### Inbound PCI Express (R7, R236, R242, R247, R441, R442) -/

def State.answered (s : State) (a : Answer) : State := { s with answer := some a }

/-- The host's request ends with Unsupported Request or Completer Abort, which AER logs (R445); `posted` requests get no answer
on the link. -/
def State.unsupported (s : State) (posted : Bool) : State := (s.aerLog aerUnsupported !posted).answered .unsupported

/-- The answer to a read. -/
def State.readAnswer (s : State) (a : Answer) : State :=
  match a with
  | .unsupported => s.unsupported false
  | .abort => (s.aerLog aerAbort true).answered .abort
  | _ => s.answered a

/-- Size of a BAR's memory and its sequencer address (R440, R441): BAR2 the Landing, BAR4 the Cellar. -/
def barMem (bar : Fin 3) : Nat × Nat := if bar = 1 then (0x10000000, 0x40000) else (0x20000000, 0x3000000)

/-- Is an access to the MSI-X table or PBA one of those accepted (R441)? -/
def msixAccess (off size : Nat) : Bool := (size = 4 || size = 8) && off % size = 0
def inMsixTable (off size : Nat) : Bool := decide (0xF00000 ≤ off) && decide (off + size ≤ 0xF00400) && msixAccess off size
def inMsixPba (off size : Nat) : Bool := decide (0xF01000 ≤ off) && decide (off + size ≤ 0xF01008) && msixAccess off size

/-- Inbound reads of BAR0. -/
def State.bar0Read (s : State) (off size : Nat) : State :=
  if off < 0xD00000 then
    match (if size = 4 then s.regRead .host off else none) with
    | some (s, v) => s.answered (.data v.toNat)
    | none => s.unsupported false
  else if inMsixTable off size then
    let k := (off - 0xF00000) / 4
    let lo := (s.msixWord k).toNat
    s.answered (.data (if size = 8 then lo + 2 ^ 32 * (s.msixWord (k + 1)).toNat else lo))
  else if inMsixPba off size then
    s.answered (.data ((s.pcie.pba.toNat >>> (8 * (off - 0xF01000))) % 2 ^ (8 * size)))
  else s.unsupported false

/-- One part of an inbound read within a granule (R236, R242). -/
def State.inReadPart (s : State) (a n : Nat) : State × Answer :=
  if (s.bankSt a).isDown then (s, .unsupported)
  else if (s.bankSt a).isWaking then (s, .abort)
  else match s.ramRead 7 a n with
    | (s, some l) => (s, .data (numLE l))
    | (s, none) => (s, .poisoned)

/-- The parts of an inbound read at granule boundaries, each served by itself (R441); the first that fails answers for the
request (DEDUCED, log entry 99). -/
def State.inReadParts (s : State) (a : Nat) : Nat → Nat → State × Answer
  | 0, _ => (s, .data 0)
  | f + 1, n =>
    let k := Nat.min n (256 - a % 256)
    let t := s.inReadPart a k
    if n ≤ k then t
    else
      let u := t.1.inReadParts (a + k) f (n - k)
      (u.1, match t.2, u.2 with
        | .data x, .data y => .data (x + 256 ^ k * y)
        | .data _, e => e
        | e, _ => e)

/-- An inbound read (R441); D3hot stops inbound memory access (R445), and so does Memory Space Enable 0 (log entry 17). -/
def State.pcieIn (s : State) (bar : Fin 3) (off size : Nat) : State :=
  if !s.hostOpen then s.unsupported false
  else if bar = 0 then s.bar0Read off size
  else
    let m := barMem bar
    let a := m.1 + off
    if size = 0 || decide (m.2 < off + size) then s.unsupported false
    else
      let t := s.inReadParts a size size
      t.1.readAnswer t.2

/-- The parts of `l` at granule boundaries (R235, R441). -/
def granules (a : Nat) (l : List Byte) : List (Nat × List Byte) := cutBytes 256 l.length a l

/-- One part of an inbound write to memory (R236, R242, R442). -/
def State.inPart (s : State) (a : Nat) (l : List Byte) : State :=
  if (s.bankSt a).isDown then s.unsupported true
  else if (s.bankSt a).isWaking then s.pcieReport 2 a
  else
    let t := s.ramWrite 7 a l
    if t.2 then t.1 else t.1.answered .poisoned

/-- Inbound writes of BAR0. The Annex port may hold one (R350). -/
def State.bar0Write (s : State) (off : Nat) (l : List Byte) : State :=
  let v := numLE l
  if off < 0xD00000 then
    if l.length = 4 && s.regHolds .host off then s.regHold .host (BitVec.ofNat 32 v) else
    match (if l.length = 4 then s.regWrite .host off (BitVec.ofNat 32 v) else none) with
    | some s => s
    | none => s.unsupported true
  else if inMsixTable off l.length then
    let k := (off - 0xF00000) / 4
    let s := s.setMsixWord k (BitVec.ofNat 32 v)
    if l.length = 8 then s.setMsixWord (k + 1) (BitVec.ofNat 32 (v / 2 ^ 32)) else s
  else if inMsixPba off l.length then s
  else s.unsupported true

/-- An inbound write (R441, R442): one above Max Payload Size is malformed and has no effect (R437; PRESUMED, log entry 17); a
Cellar write is served granule by granule. `lost` names the Landing words that a sequencer
writes in the same ACLK (R247). -/
def State.pcieOut (s : State) (bar : Fin 3) (off : Nat) (l : List Byte) (lost : List (BitVec 16)) : State :=
  if !s.hostOpen then s.unsupported true
  else if s.maxPayload < l.length then s.aerLog aerMalformed false
  else if bar = 0 then s.bar0Write off l
  else
    let m := barMem bar
    let a := m.1 + off
    if l.isEmpty || decide (m.2 < off + l.length) then s.unsupported true
    else if s.lockout then s.lockoutDrop
    else if bar = 1 then
      let t := s.landWrite 7 a l lost
      if t.2.2 then t.1 else t.1.answered .poisoned
    else (granules a l).foldl (fun s p => s.inPart p.1 p.2) s

/-- What AER logs of a completion: one that is late is unexpected, one with the EP bit poisoned (R445). -/
def State.cplLog (s : State) (st : CplStatus) (late : Bool) : State :=
  if late then s.aerLog aerUnexpected true else if st = .poisoned then s.aerLog aerPoisoned false else s

/-- A completion of an outbound request (R443): one with an error status ends it in error, a late one is counted. -/
def State.completion (s : State) (tag : Nat) (st : CplStatus) (l : List Byte) : State :=
  match s.reqs.find? fun q => q.tag = tag && q.pcie with
  | none =>
    let x := rg .pcieErr
    let s := (s.cplLog st true).setF x F.pcieErr_LATE (satAdd (s.getF x F.pcieErr_LATE) 1 255)
    (match s.link.lateTags.find? fun e => e.1 = tag with
      | some (_, c) => (s.modLink fun l => { l with lateTags := l.lateTags.eraseP fun e => e.1 = tag }).dmaLate c
      | none => s)
  | some q => ((s.cplLog st false).dropReq tag).reqEnd q (if st = .ok then 0 else 1) false (numLE l)

end Sys2Proof.Machine
end

