-- ==== Sys2Proof/Machine/Dma.lean ====
section
/-! DEFINITION. The DMA engine: bursts, the completion of descriptors, and timeouts (09_cellar_landing_dma.md R248 to R256,
R242, R247). Bursts go one at a time (log entry 42). -/

namespace Sys2Proof.Machine

/-- Bytes of one Annex request at `a` with `n` bytes left: naturally aligned, at most 8 (R346). -/
def annexUnit (a n : Nat) : Nat :=
  if a % 8 = 0 && decide (8 ≤ n) then 8 else if a % 4 = 0 && decide (4 ≤ n) then 4 else if a % 2 = 0 && decide (2 ≤ n) then 2 else 1

/-- Bytes of the next burst at an address: registers word by word, elsewhere up to the end of its 256-byte granule. -/
def burstAt (a n : Nat) : Nat :=
  match regionOf a with
  | some .regs => Nat.min 4 n
  | some .annex => annexUnit a n
  | _ => Nat.min n (256 - a % 256)

/-- Source and destination address of the next unit, and its length: the whole word of a register side (R7), else the request of
an Annex side, otherwise what lies within a granule on both sides. -/
def DmaCh.unit (k : DmaCh) (d : Desc) : Nat × Nat × Nat :=
  let sa := rowAddr d.src d.sstride k.row + k.pos
  let da := rowAddr d.dst d.dstride k.row + k.pos
  let left := d.len - k.pos
  let src := if d.kind = 2 then left else burstAt sa left
  let fixed (a : Nat) : Bool := regionOf a = some .regs || regionOf a = some .annex
  let n := if d.kind ≠ 2 && regionOf sa = some .regs then src
    else if regionOf da = some .regs then burstAt da left
    else if d.kind ≠ 2 && fixed sa && !fixed da then src
    else if fixed da && (d.kind = 2 || !fixed sa) then burstAt da left
    else Nat.min src (burstAt da left)
  (sa, da, n)

/-- Address and length of the next read within the unit, and of the next write: a side that is cut at a granule may need two
bursts for a unit of the other side (R7, R248). A read from the host is cut at Max Read Request Size too (R437). -/
def DmaCh.readPart (k : DmaCh) (d : Desc) : Nat × Nat :=
  let u := k.unit d
  let a := u.1 + k.got
  let n := burstAt a (u.2.2 - k.got)
  (a, if regionOf a = some .pcie then Nat.min n k.mrrs else n)

def DmaCh.writePart (k : DmaCh) (d : Desc) : Nat × Nat :=
  let u := k.unit d
  let a := u.2.1 + k.put
  (a, burstAt a (u.2.2 - k.put))

/-- The bytes of a fill (R250). -/
def fillData (d : Desc) (pos n : Nat) : Nat := numLE ((span pos n).map fun i => BitVec.ofNat 8 (d.src.toNat >>> (8 * (i % 4))))

/-- The channel's owner code. -/
def State.dmaOwner (s : State) (c : Fin 48) : Nat := s.getF (rg .dmaCtl c) F.dmaCtl_OWNER

/-- The limit of a burst (R254), as taken at the channel's start (R266). -/
def State.dmaDue (s : State) (c : Fin 48) : Option Nat := s.dueUs (s.dmaCh c).tmo

/-- The limit of a burst from the host: PCIE_OTMO.TMO holds for it too (R254, R443), and the earlier one ends it. -/
def State.dmaHostDue (s : State) (c : Fin 48) : Option Nat :=
  match s.dmaDue c, s.dueUs (s.getF (rg .pcieOtmo) F.pcieOtmo_TMO) with
  | some a, some b => some (Nat.min a b)
  | some a, none => some a
  | none, b => b

/-- What a part of a burst answers: data read, the channel waits, or it has failed. -/
inductive DmaRes where
  | data (s : State) (v : Nat)
  | stop (s : State)

/-- The channel waits for an answer. -/
def State.dmaWait (s : State) (c : Fin 48) (tag : Nat) : State := s.modDma c fun k => { k with wait := some tag }

/-- The read of a burst (R242, R255). -/
def State.dmaReadAt (s : State) (c : Fin 48) (a n : Nat) : DmaRes :=
  match regionOf a with
  | some .landing | some .cellar =>
    if (s.bankSt a).isDown then .stop (s.dmaFail c 3)
    else if (s.bankSt a).isWaking then .stop s
    else match s.ramRead 5 a n with
      | (s, some l) => .data s (numLE l)
      | (s, none) => .stop (s.dmaFail c 5)
  | some .regs =>
    match s.regRead (.dma c) (a - 0x40000000) with
    | some (s, v) => .data s v.toNat
    | none => .stop (s.dmaFail c 6)
  | some .annex => .stop ((s.winSend (.dma c) a n none).dmaWait c 4096)
  | some .remote =>
    match s.remoteTarget (s.dmaOwner c) a with
    | none => .stop (s.dmaFail c 3)
    | some (dev, ra) =>
      match s.freeTag (.dma c), s.linkIssue (.dma c) { dst := dev } 0 false ra n 0 (s.dmaDue c) with
      | some t, some s' => .stop (if s'.dmaState c = 1 then s'.dmaWait c t else s')
      | _, _ => .stop s
  | some .pcie =>
    match s.freeTag (.dma c), s.pcieIssue (.dma c) false a n 0 (s.dmaHostDue c) with
    | some t, some s' => .stop (if s'.dmaState c = 1 then s'.dmaWait c t else s')
    | _, _ => .stop s
  | _ => .stop (s.dmaFail c 3)

/-- A read of the unit has its data `v`, of `n` bytes. -/
def DmaCh.take (k : DmaCh) (v n : Nat) : DmaCh := { k with wait := none, held := k.held + 256 ^ k.got * v, got := k.got + n }

/-- The engine has written `n` bytes of its unit, and moves on behind the last of them. -/
def State.dmaAdvance (s : State) (c : Fin 48) (d : Desc) (n : Nat) : State :=
  s.modDma c fun k =>
    let u := (k.unit d).2.2
    let k := { k with put := k.put + n, wait := none }
    if k.put < u then k
    else
      let k := { k with held := 0, got := 0, put := 0 }
      if d.len ≤ k.pos + u then { k with row := k.row + 1, pos := 0 } else { k with pos := k.pos + u }

/-- The write of a burst; the answer tells whether the engine goes on at once. -/
def State.dmaWriteAt (s : State) (c : Fin 48) (d : Desc) (a n v : Nat) (lost : List (BitVec 16)) : State × Bool :=
  let next (s : State) : State × Bool := (s.dmaAdvance c d n, true)
  let plus (s : State) : State := s.modDma c fun k => { k with acks := k.acks + 1 }
  match regionOf a with
  | some .landing =>
    let t := s.landWrite 5 a (bytesLE n v) lost
    if t.2.1 then (t.1.dmaFail c 8, false) else if t.2.2 then next t.1 else (t.1.dmaFail c 5, false)
  | some .cellar =>
    let t := s.ramWrite 5 a (bytesLE n v)
    if t.2 then next t.1 else (t.1.dmaFail c 5, false)
  | some .regs =>
    match s.regWrite (.dma c) (a - 0x40000000) (BitVec.ofNat 32 v) with
    | some s => next s
    | none => (s.dmaFail c 6, false)
  | some .annex => ((s.winSend (.dma c) a n (some v)).dmaWait c 4097, false)
  | some .remote =>
    match s.remoteTarget (s.dmaOwner c) a with
    | none => (s.dmaFail c 4, false)
    | some (dev, ra) =>
      match (plus s).linkIssue (.dma c) { dst := dev } 1 true ra n v (s.dmaDue c) with
      | some s' => if s'.dmaState c = 1 then next s' else (s', false)
      | none => (s, false)
  | some .pcie =>
    match (plus s).pcieIssue (.dma c) true a n v none with
    | some s' => if s'.dmaState c = 1 then next s' else (s', false)
    | none => (s, false)
  | _ => (s.dmaFail c 4, false)

/-- Is the destination of a burst ready: none where the channel fails with error 4, some false where it waits (R242)? -/
def State.dmaDest (s : State) (c : Fin 48) (a : Nat) : Option Bool :=
  match regionOf a with
  | some .cellar => if (s.bankSt a).isDown then none else some !(s.bankSt a).isWaking
  | some .regs => some !s.regHolds (.dma c) (a - 0x40000000)
  | _ => some true

/-- One burst: a read while the unit lacks data, then a write, whose destination is tested first. -/
def State.dmaBurst (s : State) (c : Fin 48) (d : Desc) (lost : List (BitVec 16)) : State × Bool :=
  let k := s.dmaCh c
  if d.kind ≠ 2 && decide (k.got < (k.unit d).2.2) then
    let r := k.readPart d
    match s.dmaReadAt c r.1 r.2 with
    | .stop s => (s, false)
    | .data s v =>
      -- the channel may have been changed by the register it read
      if s.dmaState c = 1 then (s.modDma c fun k => k.take v r.2, true) else (s, false)
  else
    let w := k.writePart d
    match s.dmaDest c w.1 with
    | none => (s.dmaFail c 4, false)
    | some false => (s, false)
    | some true =>
      let v := if d.kind = 2 then fillData d (k.pos + k.put) w.2 else k.held / 256 ^ k.put % 256 ^ w.2
      s.dmaWriteAt c d w.1 w.2 v lost

/-- The engine runs until its descriptor completes, it waits, or it fails (R250 to R252). A descriptor that waits for its
bank to wake is read first. -/
def State.dmaGo (s : State) (c : Fin 48) (lost : List (BitVec 16)) : Nat → State
  | 0 => s
  | n + 1 =>
    if s.dmaState c ≠ 1 || (s.dmaCh c).wait.isSome then s
    else match (s.dmaCh c).desc with
      | none => s
      | some d =>
        if d.rows < (s.dmaCh c).row then
          if (s.dmaCh c).acks = 0 then s.dmaDescDone c d else s
        else
          let t := s.dmaBurst c d lost
          if t.2 then t.1.dmaGo c lost n else t.1

/-- DMA_DESCRIPTOR_COMPLETE: channel c's engine runs; `lost` names the Landing words that a sequencer writes in the same ACLK as
the channel (R247). -/
def State.dmaRun (s : State) (c : Fin 48) (lost : List (BitVec 16)) : State :=
  let s := if s.dmaState c = 1 && (s.dmaCh c).desc.isNone then s.dmaFetch c else s
  match (s.dmaCh c).desc with
  | some d => s.dmaGo c lost (2 * (d.rows + 1) * (d.len + 1) + 1)
  | none => s

/-- The answer to the burst that channel c waits for. -/
def State.dmaAnswer (s : State) (c : Fin 48) (v : Option Nat) : State :=
  match (s.dmaCh c).wait, (s.dmaCh c).desc with
  | some t, some d =>
    match v with
    | none => s.dmaFail c 6
    | some v =>
      if t = 4097 then s.dmaAdvance c d ((s.dmaCh c).writePart d).2
      else s.modDma c fun k => k.take v (k.readPart d).2
  | _, _ => s

end Sys2Proof.Machine
end

