-- ==== Sys2Proof/Machine/Operands.lean ====
section
/-! DEFINITION. Operand forms and the decode checks of a sequencer instruction (06_instruction_encoding.md R145 to
R172). -/

namespace Sys2Proof.Machine

/-- What the decoder knows of an instruction beside its operands: opcode page (R148), length without prefixes (R156),
and which of the checks of R155 its operands fail or which prefixes it refuses. -/
structure Shape where
  page : Nat := 0
  len : Nat
  /-- check 6: a reserved special-register number -/
  badSpecial : Bool := false
  /-- check 7: a reserved value in an operand field -/
  resv : Bool := false
  /-- check 11: a width, distance or count out of range -/
  badRange : Bool := false
  /-- check 9: the instruction can write RC, or names it in MFS or MTS (R142, R175) -/
  writesRc : Bool := false
  /-- check 10: REP is not accepted (R142) -/
  noRep : Bool := false
  /-- NARROW is accepted (R147) -/
  narrowOk : Bool := false
  deriving DecidableEq, Repr

/-- Bytes of a prefix (R145). -/
def prefixLen : Prefix → Nat
  | .wm _ => 2
  | _ => 1

/-- Bytes behind the prefixes: an undefined opcode ends at the byte that is undefined; 17 stands for an instruction that
does not end within 16 bytes (R155). -/
def opcLen (iss : Issue) (sh : Shape) : Nat :=
  match iss.opc with
  | .defined => sh.len
  | .undef escaped => if escaped then 2 else 1
  | .over => 17

/-- Length of an instruction with its prefixes. -/
def instrLen (iss : Issue) (sh : Shape) : Nat := (iss.prefixes.map prefixLen).sum + opcLen iss sh

/-- REP and REPA count as the same prefix for duplication, and so do two masks (R147). -/
def prefixKind : Prefix → Nat
  | .rep | .repa => 1
  | .narrow => 2
  | .atom => 3
  | .wm _ => 4
  | .reserved b => 256 + b.toNat

def hasRep (iss : Issue) : Bool := iss.prefixes.contains .rep
def hasRepa (iss : Issue) : Bool := iss.prefixes.contains .repa
def hasNarrow (iss : Issue) : Bool := iss.prefixes.contains .narrow
def hasAtom (iss : Issue) : Bool := iss.prefixes.contains .atom

/-- The wing mask of a WM prefix. -/
def wmMask (iss : Issue) : Option Byte := iss.prefixes.findSome? fun p => match p with
  | .wm m => some m
  | _ => none

/-- Is a prefix reserved (R146)? -/
def prefixReserved : Prefix → Bool
  | .reserved _ => true
  | _ => false

/-- Does some prefix appear twice (R147)? -/
def dupPrefix (ps : List Prefix) : Bool := !decide (ps.map prefixKind).Nodup

/-- The first failing decode check of R155, as its ESR.DETAIL. -/
def udDetail (iss : Issue) (sh : Shape) : Option Nat :=
  let rep := hasRep iss || hasRepa iss
  if 16 < instrLen iss sh then some 0x06
  else if 4 < iss.prefixes.length then some 0x04
  else if iss.prefixes.any prefixReserved then some 0x02
  else if dupPrefix iss.prefixes then some 0x03
  else if iss.opc ≠ .defined then some 0x01
  else if sh.badSpecial then some 0x0A
  else if iss.resv || sh.resv then some 0x05
  else if (hasNarrow iss && !sh.narrowOk) || ((wmMask iss).isSome && sh.page ≠ 1 && sh.page ≠ 2) then some 0x02
  else if rep && sh.writesRc then some 0x07
  else if (rep && (sh.noRep || sh.page = 4)) || (hasRepa iss && (sh.page = 0 || sh.page = 3)) then some 0x08
  else if sh.badRange then some 0x09
  else none

/-- Bytes of a displacement (R151). -/
def dispBytes (dsize : Fin 4) : Nat := match dsize.val with
  | 0 => 0 | 1 => 1 | 2 => 2 | _ => 4

/-- A displacement sign-extended to 32 bits (R152). -/
def dispValue (dsize : Fin 4) (disp : Word) : Word :=
  if dsize.val = 0 then 0 else wordOfInt (sext (8 * dispBytes dsize) disp.toNat)

/-- Bytes of the form, index and displacement of a memory operand (R156). -/
def memOpLen : MemOp → Nat
  | .reserved | .postInc _ | .preDec _ => 1
  | .indexed _ _ dsize _ => 2 + dispBytes dsize

/-- Access size in bytes (R150). -/
def szBytes (sz : Fin 4) : Nat := 2 ^ sz.val

/-- Address of a memory operand, and the base register with its value afterwards (R152). -/
def State.memAddr (s : State) (h : Fin 4) (n : Nat) : MemOp → Word × Option (Fin 16 × Word)
  | .reserved => (0, none)
  | .postInc b => (s.gr h b, some (b, s.gr h b + BitVec.ofNat 32 n))
  | .preDec b => (s.gr h b - BitVec.ofNat 32 n, some (b, s.gr h b - BitVec.ofNat 32 n))
  | .indexed b x dsize disp =>
    (s.gr h b + (if x.val = 15 then 0 else s.gr h x * BitVec.ofNat 32 n) + dispValue dsize disp, none)

/-- Is the memory operand's MODE reserved (R158)? -/
def memResv : MemOp → Bool
  | .reserved => true
  | _ => false

/-- Immediate bytes of the immediate group by SZ; SZ 0b11 takes none (R155, R159). -/
def immBytes (sz : Fin 4) : Nat := match sz.val with
  | 0 => 1 | 1 => 2 | 2 => 4 | _ => 0

/-- The immediate sign-extended to the operation width n (R154, R159). -/
def immValue (sz : Fin 4) (imm : Word) (n : Nat) : Nat :=
  ((sext (8 * immBytes sz) imm.toNat) % (2 ^ n : Int)).toNat

/-! ### Issue -/

/-- What executing an instruction's own effect answers. -/
inductive Body where
  /-- completed; the next instruction follows -/
  | done (s : State)
  /-- completed; the next instruction stands at `a` -/
  | jump (s : State) (a : Word)
  /-- a synchronous exception: vector, detail, EAR -/
  | exc (s : State) (v detail : Nat) (ear : Option Word)
  /-- completed, then an exception of vector `v` (#SC) -/
  | after (s : State) (v : Nat)
  /-- not completed: the pc stays at the instruction -/
  | wait (s : State)

/-- What fetching the bytes of an instruction answers. -/
inductive Fetch where
  | ok | wait
  | fault (detail : Nat) (a : Word)
  deriving DecidableEq, Repr

/-- Fetching one byte (R126, R242). -/
def State.fetchByte (s : State) (h : Fin 4) (a : Nat) : Fetch :=
  let bad (d : Nat) : Fetch := .fault d (BitVec.ofNat 32 a)
  match regionOf a with
  | some .study => if s.studyBad h a 1 then bad 5 else .ok
  | some .landing => if s.eccBad a 1 then bad 5 else .ok
  | some .cellar =>
    match s.bankSt a with
    | .on => if s.eccBad a 1 then bad 5 else .ok
    | .waking _ => .wait
    | _ => bad 2
  | some .rom => .ok
  | _ => bad 1

/-- The byte of code at an address. -/
def State.codeByte (s : State) (h : Fin 4) (a : Nat) : Byte :=
  match regionOf a with
  | some .study => BitVec.ofNat 8 (s.studyNum h a 1)
  | some .landing | some .cellar => s.memByte a
  | some .rom => Config.romByte (a - 0xF0000000)
  | _ => 0

/-- The instruction that stands at the pc of sequencer h (R145, R155): the sequencer instruction that its program would issue
next. The block takes its instructions as commands (log entry 5). -/
def State.instrAt (s : State) (h : Fin 4) : Instr :=
  Decode.instr h ((span (s.seq h).pc.toNat 16).map fun a => s.codeByte h (a % 2 ^ 32))

/-- Fetching all `n` bytes of an instruction: the first byte that cannot be fetched decides. -/
def State.fetch (s : State) (h : Fin 4) (a : Word) (n : Nat) : Fetch :=
  ((span a.toNat n).findSome? fun x => match s.fetchByte h (x % 2 ^ 32) with
    | .ok => none
    | r => some r).getD .ok

/-- Do the protected words of Cellar and Landing hold the byte at `a`? -/
def byteInRam (a : Nat) : Bool := regionOf a = some .landing || regionOf a = some .cellar

/-- What a fetch leaves in the error registers: an uncorrectable error in Cellar or Landing is captured, and the corrected
errors of the fetched bytes are counted (R236, R246; log entry 50). -/
def State.fetchErr (s : State) (h : Fin 4) (a : Word) (n : Nat) : Fetch → State
  | .fault _ x => if byteInRam x.toNat && s.eccBad x.toNat 1 then s.eccCapture h.val x.toNat 1 else s
  | .ok => if byteInRam a.toNat then s.eccCount a.toNat n else s
  | .wait => s

/-- An instruction completes (R133): pc moves on, and TP is set when it began with TE = 1. -/
def State.complete (s : State) (h : Fin 4) (te : Bool) (next : Word) : State :=
  let s := s.modSeq h fun q => { q with pc := next, atomRep := false }
  if te then s.setFlg h flgTP true else s

/-- May sequencer h issue: running, its clock running, no load or handler word outstanding, no trace entry due (R129, R132,
R182). -/
def State.ready (s : State) (h : Fin 4) : Bool :=
  s.hlock && decide ((s.seq h).run = .running) && (s.seq h).load.isNone && (s.seq h).vec.isNone && !s.flgBit h flgTP

/-- The end of an instruction by what its effect answered. -/
def Body.finish (h : Fin 4) (te : Bool) (next : Word) : Body → State
  | .done s => s.complete h te next
  | .jump s a => s.complete h te a
  | .exc s v d e => s.raise h v d e
  | .after s v => (s.complete h te next).enter h v next false 0 none
  | .wait s => s

/-- REP of a scalar instruction (R140): at most `k` iterations from here; `budget` iterations remain before the
environment's stop. -/
def repLoop (h : Fin 4) (body : State → Body) : Nat → Option Nat → State → Body
  | 0, _, s => .done s
  | k + 1, budget, s =>
    if (s.seq h).rc = 0 then .done s
    else if budget = some 0 then .wait s
    else match body s with
      | .done s' =>
        repLoop h body k (budget.map (· - 1)) (s'.modSeq h fun q => { q with rc := q.rc - 1 })
      | r => r

/-- Issue of a scalar or system instruction: the bytes are fetched, the checks of R155 made, and the effect performed,
once or under REP. -/
def State.issueAt (s : State) (iss : Issue) (sh : Shape) (body : State → Body) : State :=
  let h := iss.h
  if !s.ready h then s
  else
    let pc := (s.seq h).pc
    let n := instrLen iss sh
    let f := s.fetch h pc (Nat.min n 16)
    let s := s.fetchErr h pc (Nat.min n 16) f
    match f with
    | .wait => s
    | .fault d a => s.raise h vecBF d (some a)
    | .ok =>
      match udDetail iss sh with
      | some d => s.raise h vecUD d none
      | none =>
        let te := s.flgBit h flgTE
        let next := pc + BitVec.ofNat 32 n
        let s := s.modSeq h fun q => { q with atomRep := hasRep iss && hasAtom iss }
        (if hasRep iss then repLoop h body ((s.seq h).rc.toNat + 1) iss.stop s else body s).finish h te next

end Sys2Proof.Machine
end

