-- ==== Sys2Proof/Machine/Memory.lean ====
section
/-! DEFINITION. Loads, stores and the write buffer of a sequencer (05_hall_sequencers.md R126, 07_instruction_reference.md
R182 to R184). -/

namespace Sys2Proof.Machine

/-! ### Checks (R7, R8, R126, R242, R414) -/

/-- Is an access of `n` bytes at `a` aligned as its range asks (R126)? -/
def alignOk (g : Region) (a n : Nat) : Bool :=
  match g with
  | .regs => n = 4 && a % 4 = 0
  | .annex | .remote | .pcie => a % n = 0
  | _ => true

/-- Does some bank of the access stand RETAIN or OFF, or wake (R242)? -/
def State.bankDownAt (s : State) (a n : Nat) : Bool := (s.bankSt a).isDown || (s.bankSt (a + n - 1)).isDown
def State.bankWakesAt (s : State) (a n : Nat) : Bool := (s.bankSt a).isWaking || (s.bankSt (a + n - 1)).isWaking

/-- The detail of the #BF that a data access raises before it is made, if any. Size and alignment are tested before the address
inside a range: a misaligned access where no register stands raises 0x03 (DESIGN CHOICE, log entry 90). -/
def State.accessFault (s : State) (h : Fin 4) (a n : Nat) (write : Bool) : Option Nat :=
  match regionOfRange a n with
  | none => some 2
  | some g =>
    if !alignOk g a n then some 3
    else match g with
      | .rom => if write then some 4 else none
      | .regs => if (regAt (a - 0x40000000)).isNone then some 2 else none
      | .cellar => if s.bankDownAt a n then some 2 else none
      | .remote => if (s.remoteTarget (h.val + 1) a).isNone then some 2 else none
      | _ => none

/-- Does a write of `n` bytes of Study meet an uncorrectable error in a doubleword it does not cover (R125)? -/
def State.studyMergeBad (s : State) (h : Fin 4) (a n : Nat) : Bool :=
  (s.seq h).studyBad.any fun d => decide (8 * d < a + n) && decide (a < 8 * d + 8) && !(decide (a ≤ 8 * d) && decide (8 * d + 8 ≤ a + n))

/-! ### The write buffer (R183, R184) -/

/-- The oldest entry leaves the buffer. -/
def State.popWrite (s : State) (h : Fin 4) : State := s.modSeq h fun q => { q with wbuf := q.wbuf.tail }

/-- A remote or PCI Express write counts as unacknowledged until its outcome is known (R208). -/
def State.countUnacked (s : State) (h : Fin 4) : State := s.modSeq h fun q => { q with unacked := q.unacked + 1 }

/-- An Annex window write stands at the head of the buffer until its interface accepts it (R183). -/
def State.sendWindow (s : State) (h : Fin 4) (e : WriteEntry) : State :=
  (s.modSeq h fun q => { q with wbuf := { e with sent := true } :: q.wbuf }).winSend (.store h) e.addr e.size (some e.data)

/-- A remote or PCI Express write stands at the head of the buffer until it is sent from the device (R183). -/
def State.keepWrite (s : State) (h : Fin 4) (e : WriteEntry) (tag : Nat) : State :=
  s.modSeq h fun q => { q with wbuf := { e with sent := true, tag } :: q.wbuf }

/-- Is a frame this device's own WRITE request with a tag, not yet sent? -/
def ownWrite (tag : Nat) (f : Frame) : Bool :=
  match f.body with
  | .bulk op t _ _ _ _ => op = 1 && t = tag && !f.hdr.rt && decide (f.hdr.hops ≤ 1)
  | _ => false

/-- Has the write of entry e, handed on before, yet to leave the device? -/
def State.unsent (s : State) (h : Fin 4) (e : WriteEntry) : Bool :=
  match regionOf e.addr with
  | some .remote => s.link.self.any (ownWrite e.tag) || (List.finRange 6).any fun k => (s.lport k).waiting.any (ownWrite e.tag)
  | some .pcie => s.pcie.tlps.any fun t => match t with | .write _ _ w => w = some (.store h) | _ => false
  | _ => true

/-- Entries at the head of the buffer whose writes have left the device are freed (R183). -/
def State.freeSent (s : State) (h : Fin 4) : State :=
  s.modSeq h fun q => { q with wbuf := q.wbuf.dropWhile fun e => e.sent && !s.unsent h e }

/-- Performing one write at its destination, its entry being out of the buffer; none where it waits: for a waking bank, a full
port, a tag, a window's interface, or to be sent from the device. A write whose bank has gone down, or whose window has changed
hands, since the store's checks is lost (DEDUCED, log entry 41). -/
def State.performEntry (s : State) (h : Fin 4) (e : WriteEntry) : Option State :=
  match regionOf e.addr with
  | some .landing => some (s.ramWrite h e.addr (bytesLE e.size e.data)).1
  | some .cellar =>
    if s.bankDownAt e.addr e.size then some s
    else if s.bankWakesAt e.addr e.size then none
    else some (s.ramWrite h e.addr (bytesLE e.size e.data)).1
  | some .regs =>
    if s.regHolds (.seq h) (e.addr - 0x40000000) then none
    else some ((s.regWrite (.seq h) (e.addr - 0x40000000) (BitVec.ofNat 32 e.data)).getD s)
  | some .annex => if e.sent then none else some (s.sendWindow h e)
  | some .remote =>
    if e.sent then none
    else match s.remoteTarget (h.val + 1) e.addr, s.freeTag (.store h) with
      | none, _ => some s
      | some (dev, a), some t =>
        ((s.countUnacked h).keepWrite h e t).linkIssue (.store h) { dst := dev } 1 true a e.size e.data
          (s.dueUs (s.getF (rg .linkBulk) F.linkBulk_TMO))
      | _, none => none
  | some .pcie =>
    if e.sent then none else ((s.countUnacked h).keepWrite h e 0).pcieIssue (.store h) true e.addr e.size e.data none
  | _ => some s

/-- The buffer performs its oldest write; unchanged where that waits. A write to a remote or PCI Express range that waits holds
back those behind it, which R183 allows and does not require (DESIGN CHOICE, log entry 91). -/
def State.performOldest (s : State) (h : Fin 4) : State :=
  let s := s.freeSent h
  match (s.seq h).wbuf with
  | [] => s
  | e :: _ => ((s.popWrite h).performEntry h e).getD s

/-- At most `n` writes performed in program order. -/
def State.performN (s : State) (h : Fin 4) : Nat → State
  | 0 => s
  | n + 1 => (s.performOldest h).performN h n

/-- Number of entries up to the last one in a range: those that a load from that range waits for (R183). -/
def rangeDepth (g : Region) (l : List WriteEntry) : Nat :=
  l.length - (l.reverse.takeWhile fun e => regionOf e.addr ≠ some g).length

/-- Every buffered write before and in the load's own range performed; still some there if one waits. -/
def State.drainRange (s : State) (h : Fin 4) (g : Region) : State := s.performN h (rangeDepth g (s.seq h).wbuf)

/-- A handler word that waits for the buffered writes of its range is read when they are performed (R129, R183). -/
def State.vectorStep (s : State) (h : Fin 4) : State :=
  match (s.seq h).vec with
  | none => s
  | some a =>
    let s := match regionOf a with
      | some g => s.drainRange h g
      | none => s
    if s.buffers h a then s else (s.modSeq h fun q => { q with vec := none }).readVector h a

/-! ### Loads -/

/-- Where a load puts what it read. -/
def State.putLoaded (s : State) (h : Fin 4) (fp : Bool) (d : Fin 16) (n v : Nat) : State :=
  if fp then s.setFr h d (BitVec.ofNat 32 v)
  else
    let s := s.setG h d (BitVec.ofNat 32 v)
    if n = 8 then s.setG h (d + 1) (BitVec.ofNat 32 (v / 2 ^ 32)) else s

/-- The base register's update, then the loaded value, which prevails (R153). -/
def State.finishLoad (s : State) (h : Fin 4) (fp : Bool) (d : Fin 16) (n v : Nat) (upd : Option (Fin 16 × Word)) : State :=
  (match upd with
    | some (b, w) => s.setG h b w
    | none => s).putLoaded h fp d n v

/-- The operands of a load or store instruction beside its registers. -/
structure MemForm where
  fp : Bool
  size : Nat
  len : Nat
  rep : Bool
  m : MemOp

/-- A load whose answer comes later (R182). -/
def State.blockLoad (s : State) (h : Fin 4) (f : MemForm) (d : Fin 16) (a : Nat) (upd : Option (Fin 16 × Word)) : State :=
  s.modSeq h fun q =>
    let l : PendingLoad :=
      { addr := a, size := f.size, fp := f.fp, d, upd, instr := q.pc, next := q.pc + BitVec.ofNat 32 f.len
        te := bit q.flg flgTE, rep := f.rep }
    { q with load := some l }

/-- One load (R182). -/
def loadBody (h : Fin 4) (f : MemForm) (d : Fin 16) (s : State) : Body :=
  let t := s.memAddr h f.size f.m
  let a := t.1.toNat
  let n := f.size
  let bf (s : State) (k : Nat) : Body := .exc s vecBF k (some t.1)
  match s.accessFault h a n false with
  | some k => bf s k
  | none =>
    match regionOf a with
    | none => bf s 2
    | some g =>
      let s := s.drainRange h g
      if (s.seq h).wbuf.any fun e => regionOf e.addr = some g then .wait s
      else match g with
        | .study => if s.studyBad h a n then bf s 5 else .done (s.finishLoad h f.fp d n (s.studyNum h a n) t.2)
        | .rom => .done (s.finishLoad h f.fp d n (numLE ((span (a - 0xF0000000) n).map Config.romByte)) t.2)
        | .landing | .cellar =>
          if s.bankWakesAt a n then .wait s
          else match s.ramRead h a n with
            | (s, none) => bf s 5
            | (s, some l) => .done (s.finishLoad h f.fp d n (numLE l) t.2)
        | .regs =>
          match s.regRead (.seq h) (a - 0x40000000) with
          | some (s, v) => .done (s.finishLoad h f.fp d n v.toNat t.2)
          | none => bf s 2
        | .annex =>
          if s.regionState ((a - 0x60000000) / 0x800000) ≠ 2 then bf s 6
          else .wait ((s.winSend (.load h) a n none).blockLoad h f d a t.2)
        | .remote =>
          match s.remoteTarget (h.val + 1) a with
          | none => bf s 2
          | some (dev, ra) =>
            match s.linkIssue (.load h) { dst := dev } 0 false ra n 0 (s.dueUs (s.getF (rg .linkBulk) F.linkBulk_TMO)) with
            | some s => .wait (s.blockLoad h f d a t.2)
            | none => .wait s
        | .pcie =>
          match s.pcieIssue (.load h) false a n 0 (s.dueUs (s.getF (rg .pcieOtmo) F.pcieOtmo_TMO)) with
          | some s => .wait (s.blockLoad h f d a t.2)
          | none => .wait s

/-- The answer to an outstanding load (R182); under REP the instruction issues again while RC is not 0 (R140). -/
def State.loadEnd (s : State) (h : Fin 4) (v : Option Nat) : State :=
  match (s.seq h).load with
  | none => s
  | some l =>
    let s := s.modSeq h fun q => { q with load := none }
    match v with
    | none => s.raise h vecBF 6 (some (BitVec.ofNat 32 l.addr))
    | some v =>
      let s := s.finishLoad h l.fp l.d l.size v l.upd
      if !l.rep then s.complete h l.te l.next
      else
        let s := s.modSeq h fun q => { q with rc := q.rc - 1 }
        if (s.seq h).rc = 0 then s.complete h l.te l.next else s

/-! ### Stores -/

/-- The base register after a store. -/
def State.finishStore (s : State) (h : Fin 4) (upd : Option (Fin 16 × Word)) : State :=
  match upd with
  | some (b, w) => s.setG h b w
  | none => s

/-- One store (R182 to R184): Study directly, everything else through the buffer, which makes room first. -/
def storeBody (h : Fin 4) (f : MemForm) (data : State → Nat) (s : State) : Body :=
  let t := s.memAddr h f.size f.m
  let a := t.1.toNat
  let n := f.size
  match s.accessFault h a n true with
  | some k => .exc s vecBF k (some t.1)
  | none =>
    let v := data s % 2 ^ (8 * n)
    if regionOf a = some .study then
      if s.studyMergeBad h a n then .exc s vecBF 5 (some t.1)
      else .done ((s.setStudy h a (bytesLE n v)).finishStore h t.2)
    else
      let s := if (s.seq h).wbuf.length < 8 then s else s.performOldest h
      if (s.seq h).wbuf.length < 8 then
        .done ((s.modSeq h fun q => { q with wbuf := q.wbuf ++ [{ addr := a, size := n, data := v }] }).finishStore h t.2)
      else .wait s

end Sys2Proof.Machine
end

