-- ==== Sys2Proof/Machine/Settle.lean ====
section
/-! DEFINITION. What follows every command at once: Lodge causes are accepted, answers reach their requesters, what waits for
a tag is issued, the device serves its requests to itself, and MSI-X follows the sources. -/

namespace Sys2Proof.Machine

/-- One answer reaches its requester (R182, R184, R347). -/
def State.deliver (s : State) (e : ReqWho × Option Nat) : State :=
  match e.1 with
  | .load h => s.loadEnd h e.2
  | .dma c => s.dmaAnswer c e.2
  | .store _ | .manage _ | .attest => s

/-- Every answer, in order. -/
def State.deliverAll (s : State) : State := s.replies.foldl State.deliver { s with replies := [] }

/-- What the Lodge does at the end of a command (R460, R461). -/
def State.lodgeSettle (s : State) : State := if s.lodgeQ.isEmpty then s else s.acceptCauses

/-- What the sequencers' write buffers do at the end of a command: entries whose writes have left the device are freed, and
handler words that waited for writes are read (R129, R183). -/
def State.bufferSettle (s : State) : State :=
  (List.finRange 4).foldl (fun s h =>
    let s := if (s.seq h).wbuf.any (·.sent) then s.freeSent h else s
    if (s.seq h).vec.isSome && s.coreOn then s.vectorStep h else s) s

/-- The end of every command. -/
def State.settle (s : State) : State :=
  let s := s.bufferSettle
  let s := if s.link.self.isEmpty then s else s.selfServeN 64
  let s := if s.replies.isEmpty then s else s.deliverAll
  let s := if s.annex.held.isEmpty then s else s.unhold s.annex.held.length
  let s := if s.verQ.isEmpty then s else s.verBegin
  (s.quoteStart.attIssue.manageIssue.lodgeSettle).sync

end Sys2Proof.Machine
end

