-- ==== Sys2Proof/Machine/Event.lean ====
section
/-! DEFINITION. How commands that are no sequencer instruction reach the blocks: register accesses by a requester, and
happenings gated by the clocks they need (00_scope.md R7, R8, 17_clocks_power_reset.md R479, R485, R491). -/

namespace Sys2Proof.Machine

/-- A register access that fails ends with the interface's error status (R7, R8): Unsupported Request for the host, error
0x06 for a DMA channel. -/
def State.accessError (s : State) (r : Requester) (posted : Bool) : State :=
  match r with
  | .host => s.unsupported posted
  | .dma c => s.dmaFail c 6
  | _ => s

/-- Do a requester's register accesses reach the device? The host's come as inbound memory requests (R441, R445). -/
def State.reaches (s : State) (r : Requester) : Bool := r ≠ .host || s.hostOpen

/-- A requester writes `v` to the register at an offset. The Annex port may hold the write (R350); in POR_N-low nothing
happens. -/
def State.access (s : State) (r : Requester) (off : Nat) (v : Word) : State :=
  if s.power.por then s
  else if !s.reaches r then (s.accessError r true).settle
  else if s.regHolds r off then (s.regHold r v).settle
  else ((s.regWrite r off v).getD (s.accessError r true)).settle

/-- A requester reads the register at an offset: the answer is its value. -/
def State.accessRead (s : State) (r : Requester) (off : Nat) : State :=
  if s.power.por then s
  else if !s.reaches r then (s.accessError r false).settle
  else match s.regRead r off with
    | some (s, v) => (s.answered (.data v.toNat)).settle
    | none => (s.accessError r false).settle

/-- A happening that needs only power. -/
def State.event (s : State) (f : State → State) : State := if s.power.por then s else (f s).settle

/-- A happening on TCLK. -/
def State.tclkEvent (s : State) (f : State → State) : State := if s.power.por || !s.hlock then s else (f s).settle

/-- A happening on the core clocks, which DEEP stops. -/
def State.coreEvent (s : State) (f : State → State) : State := if s.power.por || !s.coreOn then s else (f s).settle

end Sys2Proof.Machine
end

