-- ==== Sys2Proof/Machine/AnnexCmd.lean ====
section
/-! DEFINITION. Commands of the Annex: packets at the configuration port, image loads, windows (12_annex_fabric.md). -/

namespace Sys2Proof.Machine

/-- ANNEX_PORT_CLAIM (R349). -/
def execAnnexPortClaim (r : Requester) (v : Word) (s : State) : Host.Outcome State Fault Refusal :=
  .next (s.access r (rg .annexCfgCtl).off v)

/-- OPEN (R351). -/
def execAnnexOpen (s : State) : Host.Outcome State Fault Refusal :=
  .next (s.coreEvent fun s => s.annexPort 1)

/-- WRITE (R352). -/
def execAnnexWrite (s : State) : Host.Outcome State Fault Refusal :=
  .next (s.coreEvent fun s => s.annexPort 2)

/-- READ (R351). -/
def execAnnexRead (edges : Nat) (s : State) : Host.Outcome State Fault Refusal :=
  .next (s.coreEvent fun s => s.annexPort 3 edges)

/-- COMMIT (R355). -/
def execCommit (s : State) : Host.Outcome State Fault Refusal :=
  .next (s.coreEvent fun s => s.annexPort 4)

/-- ABORT (R351). -/
def execAnnexAbort (s : State) : Host.Outcome State Fault Refusal :=
  .next (s.coreEvent fun s => s.annexPort 5)

/-- CAPTURE (R358). -/
def execAnnexCapture (edges : Nat) (s : State) : Host.Outcome State Fault Refusal :=
  .next (s.coreEvent fun s => s.annexPort 6 edges)

/-- ANNEX_NOP (R351). -/
def execAnnexNop (s : State) : Host.Outcome State Fault Refusal :=
  .next (s.coreEvent fun s => s.annexPort 0)

/-- FRAME_CLEAR_END (R351). -/
def execFrameClearEnd (s : State) : Host.Outcome State Fault Refusal :=
  .next (s.coreEvent fun s => s.frameClearEnd)

/-- CFG_RDATA_READ (R351). -/
def execCfgRdataRead (r : Requester) (s : State) : Host.Outcome State Fault Refusal :=
  .next (s.accessRead r (rg .annexCfgRdata).off)

/-- RESYNC (R363). -/
def execResync (r : Requester) (v : Word) (s : State) : Host.Outcome State Fault Refusal :=
  .next (s.access r (rg .annexCfgCtl).off v)

/-- ANNEX_IMAGE_LOAD (R360). -/
def execAnnexImageLoad (r : Requester) (v : Word) (s : State) : Host.Outcome State Fault Refusal :=
  .next (s.access r (rg .annexImgCtl).off v)

/-- ANNEX_IMAGE_LOAD_END (R360). -/
def execAnnexImageLoadEnd (s : State) : Host.Outcome State Fault Refusal :=
  .next (s.coreEvent fun s => s.imageLoadEnd)

/-- ANNEX_WINDOW_REQUEST (R346). -/
def execAnnexWindowRequest (s : State) : Host.Outcome State Fault Refusal :=
  .next (s.coreEvent fun s => s.winReach)

/-- ANNEX_WINDOW_ANSWER (R347). -/
def execAnnexWindowAnswer (g : Fin 32) (data : BitVec 64) (late irq : Bool) (s : State) : Host.Outcome State Fault Refusal :=
  .next (s.coreEvent fun s => s.winAnswer g data late irq)

/-- ANNEX_WINDOW_TIMEOUT (R347). -/
def execAnnexWindowTimeout (g : Fin 32) (s : State) : Host.Outcome State Fault Refusal :=
  .next (s.coreEvent fun s => s.winTimeout g)

/-- WSTAT_CLR (R364). -/
def execWstatClr (r : Requester) (v : Word) (s : State) : Host.Outcome State Fault Refusal :=
  .next (s.access r (rg .annexWstat).off v)

end Sys2Proof.Machine
end

