-- ==== Sys2Proof/Machine/Issue.lean ====
section
/-! DEFINITION. Issue of sequencer instructions: scalar instructions over `State.issueAt`, array and lane instructions as
routines (07_instruction_reference.md R173 to R191, 08_microcode_and_control_store.md R209 to R213). -/

namespace Sys2Proof.Machine

/-- Issue of a scalar or system instruction: an array or lane instruction of the same sequencer that stands part-way
runs to its end first (R173). -/
def State.issue (s : State) (iss : Issue) (sh : Shape) (body : State → Body) : State :=
  (s.runRoutineTo iss.h none).issueAt iss sh body

/-- Is the control store of sequencer h being loaded (R210)? -/
def State.csLoading (s : State) (h : Fin 4) : Bool :=
  s.flag (rg .asMcStat) F.asMcStat_BUSY && s.getF (rg .asMcCtl) F.asMcCtl_TARGET / 2 ^ h.val % 2 = 1

/-- The effective mask: WM and the wing-mask prefix (R52). -/
def State.effMask (s : State) (iss : Issue) : BitVec 8 :=
  BitVec.ofNat 8 (s.seq iss.h).wm.toNat &&& (wmMask iss).getD 0xFF

/-- The scalar operand Gk of an array instruction (R70, R166); 0 when it has none. -/
def State.scalarOperand (s : State) (h : Fin 4) (op : ArrOp) (word : Word) : Word :=
  match op with
  | .aaddi | .asubi | .acmpi | .aset => s.gr h (opReg word)
  | _ => 0

/-- An array or lane instruction past its checks: the routine begins and runs (R72, R120). -/
def State.startRoutine (s : State) (iss : Issue) (op : ArrOp) (mode : StepMode) (word : Word) (len : Nat) : State :=
  let h := iss.h
  let s := s.wakeArray
  let s := s.lazySpill h
  let q := s.seq h
  let r : Routine :=
    { op, addr := q.pc, len, mask := s.effMask iss, mode, opword := word
      rep := hasRep iss, repa := hasRepa iss, atom := hasAtom iss, te := bit q.flg flgTE
      d := none, a := none, b := none, c := none
      gval := s.scalarOperand h op word
      rm := bits q.fpctl 0 2, sub := bit q.fpctl 2, lfp := bits q.lfp 0 12 }
  (s.setRoutine h (some (s.reform h r))).runRoutineTo h iss.stop

/-- Issue of a page 1 or page 2 instruction: fetch, the checks of R155, the control store (R210), the #AF checks, and a
wait while a wing of the mask is being cleared (R31) or an earlier write of ARRAY_WOWN, ARRAY_BOUND or ARRAY_TOPO has not
taken effect (R55). With RC = 0 or 1 the first iteration counts as the last, so the plane check takes in the extension
plane (R35, R78, R140; DESIGN CHOICE for RC = 0, log entry 92). -/
def State.issueArr (s : State) (iss : Issue) (op : ArrOp) (mode : StepMode) (word : Word) : State :=
  let h := iss.h
  let s := s.runRoutineTo h none
  if !s.ready h then s
  else
    let sh : Shape :=
      { page := if op.isLane then 2 else 1, len := if op.isLane then 5 else 7
        resv := op.badWord word, badRange := op.badRange word }
    let pc := (s.seq h).pc
    let n := instrLen iss sh
    let f := s.fetch h pc (Nat.min n 16)
    let s := s.fetchErr h pc (Nat.min n 16) f
    match f with
    | .wait => s
    | .fault d a => s.raise h vecBF d (some a)
    | .ok =>
      match udDetail iss sh with
      | some d => s.raise h vecUD d none
      | none =>
        match (s.seq h).csDigest with
        | none => if s.csLoading h then s else s.raise h vecUD 1 none
        | some _ =>
          if s.arrayWaits h then s else
          let mask := s.effMask iss
          let last := !(hasRep iss || hasRepa iss) || decide ((s.seq h).rc.toNat ≤ 1)
          match s.afCheck h op mode word mask (op.extends (hasRep iss) last) with
          | some (d, ear) => s.raise h vecAF d (some ear)
          | none =>
            if (List.range 8).any fun w => wingIn mask w && s.wingClearing w then s
            else s.startRoutine iss op mode word n

end Sys2Proof.Machine
end

