-- ==== Sys2Proof/Machine/ArrayInstr.lean ====
section
/-! DEFINITION. Page 1 and page 2: array and lane instructions, and the events of the Chimney and of the lane pipeline
(07_instruction_reference.md R188 to R191). -/

namespace Sys2Proof.Machine

/-- AADD (R76, R189). -/
def execAadd (iss : Issue) (a : P1) (s : State) : Host.Outcome State Fault Refusal :=
  .next (s.issueArr iss .aadd a.mode a.word).settle

/-- AADDI (R76, R189). -/
def execAaddi (iss : Issue) (a : P1) (s : State) : Host.Outcome State Fault Refusal :=
  .next (s.issueArr iss .aaddi a.mode a.word).settle

/-- ASUB (R76, R189). -/
def execAsub (iss : Issue) (a : P1) (s : State) : Host.Outcome State Fault Refusal :=
  .next (s.issueArr iss .asub a.mode a.word).settle

/-- ASUBI (R76, R189). -/
def execAsubi (iss : Issue) (a : P1) (s : State) : Host.Outcome State Fault Refusal :=
  .next (s.issueArr iss .asubi a.mode a.word).settle

/-- AMUL (R76, R189). -/
def execAmul (iss : Issue) (a : P1) (s : State) : Host.Outcome State Fault Refusal :=
  .next (s.issueArr iss .amul a.mode a.word).settle

/-- ACMP (R76, R189). -/
def execAcmp (iss : Issue) (a : P1) (s : State) : Host.Outcome State Fault Refusal :=
  .next (s.issueArr iss .acmp a.mode a.word).settle

/-- ACMPI (R76, R189). -/
def execAcmpi (iss : Issue) (a : P1) (s : State) : Host.Outcome State Fault Refusal :=
  .next (s.issueArr iss .acmpi a.mode a.word).settle

/-- ASEL (R76, R189). -/
def execAsel (iss : Issue) (a : P1) (s : State) : Host.Outcome State Fault Refusal :=
  .next (s.issueArr iss .asel a.mode a.word).settle

/-- ASET (R76, R189). -/
def execAset (iss : Issue) (a : P1) (s : State) : Host.Outcome State Fault Refusal :=
  .next (s.issueArr iss .aset a.mode a.word).settle

/-- ALOG.tt (R76, R189). -/
def execAlog (iss : Issue) (tt : Fin 16) (a : P1) (s : State) : Host.Outcome State Fault Refusal :=
  .next (s.issueArr iss (.alog tt) a.mode a.word).settle

/-- ABIT.tt (R76, R189). -/
def execAbit (iss : Issue) (tt : Fin 16) (a : P1) (s : State) : Host.Outcome State Fault Refusal :=
  .next (s.issueArr iss (.abit tt) a.mode a.word).settle

/-- ASHF.dir (R84). -/
def execAshf (iss : Issue) (dir : ShiftDir) (a : P1) (s : State) : Host.Outcome State Fault Refusal :=
  .next (s.issueArr iss (.ashf dir) a.mode a.word).settle

/-- ACNT (R87). -/
def execAcnt (iss : Issue) (a : P1) (s : State) : Host.Outcome State Fault Refusal :=
  .next (s.issueArr iss .acnt a.mode a.word).settle

/-- ALOC (R87). -/
def execAloc (iss : Issue) (a : P1) (s : State) : Host.Outcome State Fault Refusal :=
  .next (s.issueArr iss .aloc a.mode a.word).settle

/-- CHIMNEY_RESULT (R48): the oldest capture in flight of sequencer h becomes valid. -/
def execChimneyResult (h : Fin 4) (s : State) : Host.Outcome State Fault Refusal :=
  .next (s.coreEvent fun s => s.completeCapture h)

/-- The operand field of a lane instruction as a word (R169, R229). -/
def laneWord (a : P2) : Word := a.fld.setWidth 32

/-- LADD, with .H (R101, R102). -/
def execLadd (iss : Issue) (half : Bool) (a : P2) (s : State) : Host.Outcome State Fault Refusal :=
  .next (s.issueArr iss (.lane .ladd half) a.mode (laneWord a)).settle

/-- LSUB, with .H (R101, R102). -/
def execLsub (iss : Issue) (half : Bool) (a : P2) (s : State) : Host.Outcome State Fault Refusal :=
  .next (s.issueArr iss (.lane .lsub half) a.mode (laneWord a)).settle

/-- LMUL, with .H (R101, R102). -/
def execLmul (iss : Issue) (half : Bool) (a : P2) (s : State) : Host.Outcome State Fault Refusal :=
  .next (s.issueArr iss (.lane .lmul half) a.mode (laneWord a)).settle

/-- LMULF.U and .S, with .H (R101). -/
def execLmulf (iss : Issue) (signed half : Bool) (a : P2) (s : State) : Host.Outcome State Fault Refusal :=
  .next (s.issueArr iss (.lane (.lmulf signed) half) a.mode (laneWord a)).settle

/-- LMIN.U and .S, with .H (R101). -/
def execLmin (iss : Issue) (signed half : Bool) (a : P2) (s : State) : Host.Outcome State Fault Refusal :=
  .next (s.issueArr iss (.lane (.lmin signed) half) a.mode (laneWord a)).settle

/-- LMAX.U and .S, with .H (R101). -/
def execLmax (iss : Issue) (signed half : Bool) (a : P2) (s : State) : Host.Outcome State Fault Refusal :=
  .next (s.issueArr iss (.lane (.lmax signed) half) a.mode (laneWord a)).settle

/-- LFADD (R101). -/
def execLfadd (iss : Issue) (a : P2) (s : State) : Host.Outcome State Fault Refusal :=
  .next (s.issueArr iss (.lane .lfadd false) a.mode (laneWord a)).settle

/-- LFSUB (R101). -/
def execLfsub (iss : Issue) (a : P2) (s : State) : Host.Outcome State Fault Refusal :=
  .next (s.issueArr iss (.lane .lfsub false) a.mode (laneWord a)).settle

/-- LFMUL (R101). -/
def execLfmul (iss : Issue) (a : P2) (s : State) : Host.Outcome State Fault Refusal :=
  .next (s.issueArr iss (.lane .lfmul false) a.mode (laneWord a)).settle

/-- LFMA (R101). -/
def execLfma (iss : Issue) (a : P2) (s : State) : Host.Outcome State Fault Refusal :=
  .next (s.issueArr iss (.lane .lfma false) a.mode (laneWord a)).settle

/-- LFMIN (R101). -/
def execLfmin (iss : Issue) (a : P2) (s : State) : Host.Outcome State Fault Refusal :=
  .next (s.issueArr iss (.lane .lfmin false) a.mode (laneWord a)).settle

/-- LFMAX (R101). -/
def execLfmax (iss : Issue) (a : P2) (s : State) : Host.Outcome State Fault Refusal :=
  .next (s.issueArr iss (.lane .lfmax false) a.mode (laneWord a)).settle

/-- LFRCP (R101). -/
def execLfrcp (iss : Issue) (a : P2) (s : State) : Host.Outcome State Fault Refusal :=
  .next (s.issueArr iss (.lane .lfrcp false) a.mode (laneWord a)).settle

/-- LFCVTFI (R101). -/
def execLfcvtFi (iss : Issue) (a : P2) (s : State) : Host.Outcome State Fault Refusal :=
  .next (s.issueArr iss (.lane .lfcvtFi false) a.mode (laneWord a)).settle

/-- LFCVTIF (R101). -/
def execLfcvtIf (iss : Issue) (a : P2) (s : State) : Host.Outcome State Fault Refusal :=
  .next (s.issueArr iss (.lane .lfcvtIf false) a.mode (laneWord a)).settle

/-- LFCMP.cc (R113). -/
def execLfcmp (iss : Issue) (cc : Fin 8) (a : P2) (s : State) : Host.Outcome State Fault Refusal :=
  .next (s.issueArr iss (.lane (.lfcmp cc) false) a.mode (laneWord a)).settle

/-- LANE_STORE_STAGE (R95): the oldest lane instruction of sequencer h behind its load stage writes its destination and
flag planes. -/
def execLaneStoreStage (h : Fin 4) (s : State) : Host.Outcome State Fault Refusal :=
  .next (s.coreEvent fun s => s.storeJob h)

end Sys2Proof.Machine
end

