-- ==== Sys2Proof/Machine/BootCmd.lean ====
section
/-! DEFINITION. Commands of boot, OTP, measurement, attestation and the flash port (18_boot_and_assay.md). -/

namespace Sys2Proof.Machine

/-- BOOT_PUSH (R500). -/
def execBootPush (r : Requester) (v : Word) (s : State) : Host.Outcome State Fault Refusal :=
  .next (s.access r (rg .asBootPush).off v)

/-- SYS_SEQREL (R509). -/
def execSysSeqrel (r : Requester) (v : Word) (s : State) : Host.Outcome State Fault Refusal :=
  .next (s.access r (rg .sysSeqrel).off v)

/-- ADVANCE (R514). -/
def execAdvance (r : Requester) (v : Word) (s : State) : Host.Outcome State Fault Refusal :=
  .next (s.access r (rg .asOtpCtl).off v)

/-- REVOKE (R514). -/
def execRevoke (r : Requester) (v : Word) (s : State) : Host.Outcome State Fault Refusal :=
  .next (s.access r (rg .asOtpCtl).off v)

/-- PROGRAM (R514). -/
def execProgram (r : Requester) (v : Word) (s : State) : Host.Outcome State Fault Refusal :=
  .next (s.access r (rg .asOtpCtl).off v)

/-- OTP_DONE (R514). -/
def execOtpDone (ok : Bool) (s : State) : Host.Outcome State Fault Refusal :=
  .next (s.coreEvent fun s => s.otpDone ok)

/-- EXTEND (R515). -/
def execExtend (r : Requester) (v : Word) (s : State) : Host.Outcome State Fault Refusal :=
  .next (s.access r (rg .asExtctl).off v)

/-- EXTENSION_END (R510). -/
def execExtensionEnd (s : State) : Host.Outcome State Fault Refusal :=
  .next (s.coreEvent fun s => s.extensionEnd)

/-- ATT_CTL_GO (R518). -/
def execAttCtlGo (r : Requester) (v : Word) (s : State) : Host.Outcome State Fault Refusal :=
  .next (s.access r (rg .asAttCtl).off v)

/-- QUOTE_DONE (R517). -/
def execQuoteDone (s : State) : Host.Outcome State Fault Refusal :=
  .next (s.coreEvent fun s => s.quoteDone)

/-- BSPI_TRANSACTION (R521). -/
def execBspiTransaction (r : Requester) (v : Word) (s : State) : Host.Outcome State Fault Refusal :=
  .next (s.access r (rg .asBspiCmd).off v)

/-- BSPI_DONE (R521). -/
def execBspiDone (data : List Byte) (s : State) : Host.Outcome State Fault Refusal :=
  .next (s.coreEvent fun s => s.bspiDone data)

end Sys2Proof.Machine
end

