-- ==== Sys2Proof/Machine/CellarCmd.lean ====
section
/-! DEFINITION. Commands of the Cellar, its banks, the Planisher and the DMA channels (09_cellar_landing_dma.md). -/

namespace Sys2Proof.Machine

/-- ILV_CHANGE (R234). -/
def execIlvChange (s : State) : Host.Outcome State Fault Refusal :=
  .next (s.coreEvent fun s => s.ilvChange)

/-- BANK_POWER_REQUEST (R240). -/
def execBankPowerRequest (r : Requester) (half : Fin 2) (v : Word) (s : State) : Host.Outcome State Fault Refusal :=
  .next (s.access r (rg (if half = 0 then .cellarPwr0 else .cellarPwr1)).off v)

/-- BANK_POWER_DOWN (R240). -/
def execBankPowerDown (b : Fin 32) (s : State) : Host.Outcome State Fault Refusal :=
  .next (s.coreEvent fun s => s.bankDown b)

/-- BANK_WAKE_END (R241). -/
def execBankWakeEnd (b : Fin 32) (s : State) : Host.Outcome State Fault Refusal :=
  .next (s.coreEvent fun s => s.bankWakeEnd b)

/-- STARVATION (R238). -/
def execStarvation (cls : Fin 6) (b : Fin 32) (s : State) : Host.Outcome State Fault Refusal :=
  .next (s.coreEvent fun s => s.starve cls b)

/-- CELLAR_ECC_CLR (R263). -/
def execCellarEccClr (r : Requester) (v : Word) (s : State) : Host.Outcome State Fault Refusal :=
  .next (s.access r (rg .cellarEcc).off v)

/-- CLRHIGH (R264). -/
def execClrhigh (r : Requester) (v : Word) (s : State) : Host.Outcome State Fault Refusal :=
  .next (s.access r (rg .cellarTags).off v)

/-- DMA_CLAIM (R249). -/
def execDmaClaim (r : Requester) (c : Fin 48) (v : Word) (s : State) : Host.Outcome State Fault Refusal :=
  .next (s.access r (rg .dmaCtl c).off v)

/-- DMA_START (R253). -/
def execDmaStart (r : Requester) (c : Fin 48) (v : Word) (s : State) : Host.Outcome State Fault Refusal :=
  .next (s.access r (rg .dmaCtl c).off v)

/-- DMA_ABORT (R253). -/
def execDmaAbort (r : Requester) (c : Fin 48) (v : Word) (s : State) : Host.Outcome State Fault Refusal :=
  .next (s.access r (rg .dmaCtl c).off v)

/-- DMA_DESCRIPTOR_COMPLETE (R252). -/
def execDmaDescriptorComplete (c : Fin 48) (lost : List (BitVec 16)) (s : State) : Host.Outcome State Fault Refusal :=
  .next (s.coreEvent fun s => s.dmaRun c lost)

/-- DMA_TIMEOUT (R254). -/
def execDmaTimeout (c : Fin 48) (s : State) : Host.Outcome State Fault Refusal :=
  .next (s.event fun s => s.timeouts fun q => q.who = .dma c)

/-- PLANISHER_WINDOW (R257). -/
def execPlanisherWindow (cut : PlanCut) (fail : Option (Nat × Nat)) (s : State) : Host.Outcome State Fault Refusal :=
  .next (s.coreEvent fun s => s.planWindow cut fail)

end Sys2Proof.Machine
end

