-- ==== Sys2Proof/Machine/LinkCmd.lean ====
section
/-! DEFINITION. Commands of Tyashlink (14_tyashlink.md, 18_boot_and_assay.md R518, R519). -/

namespace Sys2Proof.Machine

/-- Requests under LINK_BULK.TMO (R416, R417). -/
def seqRequest : ReqWho → Bool
  | .load _ | .store _ | .manage _ => true
  | .dma _ | .attest => false

/-- PORT_ENABLE (R401). -/
def execPortEnable (r : Requester) (k : Fin 6) (v : Word) (s : State) : Host.Outcome State Fault Refusal :=
  .next (s.access r (rg .kpCtl k).off v)

/-- TRAINING_RETRY (R402). -/
def execTrainingRetry (k : Fin 6) (s : State) : Host.Outcome State Fault Refusal :=
  .next (s.event fun s => s.trainRetry k)

/-- PORT_DOWN (R403). -/
def execPortDown (k : Fin 6) (s : State) : Host.Outcome State Fault Refusal :=
  .next (s.event fun s => if s.portSt k = 0 then s else (s.linkDown k 1).schimTry 0)

/-- RETRAIN (R403). -/
def execRetrain (r : Requester) (k : Fin 6) (v : Word) (s : State) : Host.Outcome State Fault Refusal :=
  .next (s.access r (rg .kpCtl k).off v)

/-- HELLO (R401, R406): what arrives is what its blocks spell. -/
def execHello (f : FrameIn) (peer : BitVec 3) (id : BitVec 10) (idv join : Bool) (s : State) :
    Host.Outcome State Fault Refusal :=
  .next (s.event fun s => s.frameIn f (.hello peer.toNat id.toNat idv join))

/-- DLYREQ (R421): what arrives is what its blocks spell. -/
def execDlyreq (f : FrameIn) (s : State) :
    Host.Outcome State Fault Refusal :=
  .next (s.event fun s => s.frameIn f .dlyreq)

/-- DLYRSP (R421): what arrives is what its blocks spell. -/
def execDlyrsp (f : FrameIn) (turn : Word) (own : Fin 16) (s : State) :
    Host.Outcome State Fault Refusal :=
  .next (s.event fun s => s.frameIn f (.dlyrsp turn) own)

/-- DLYGO (R421). -/
def execDlygo (r : Requester) (k : Fin 6) (v : Word) (s : State) : Host.Outcome State Fault Refusal :=
  .next (s.access r (rg .kpCtl k).off v)

/-- SYNC_FRAME (R422): what arrives is what its blocks spell. -/
def execSyncFrame (f : FrameIn) (count : BitVec 64) (frac : BitVec 4) (own : Fin 16) (s : State) :
    Host.Outcome State Fault Refusal :=
  .next (s.event fun s => s.frameIn f (.sync count frac) own)

/-- SYNC_SEND (R422). -/
def execSyncSend (s : State) : Host.Outcome State Fault Refusal :=
  .next (s.event fun s => s.syncSend)

/-- NAK (R409). -/
def execNak (k : Fin 6) (b : BitVec 56) (s : State) : Host.Outcome State Fault Refusal :=
  .next (s.event fun s => s.idleBlock k 0 {} b)

/-- REPLAY_TIMEOUT (R409). -/
def execReplayTimeout (k : Fin 6) (s : State) : Host.Outcome State Fault Refusal :=
  .next (s.event fun s => s.replayTimeout k)

/-- IDLE_BLOCK (R410). -/
def execIdleBlock (k : Fin 6) (lane : Fin 2) (run : LaneRun) (b : BitVec 56) (s : State) : Host.Outcome State Fault Refusal :=
  .next (s.event fun s => s.idleBlock k lane run b)

/-- BULK_READ (R415): what arrives is what its blocks spell. -/
def execBulkRead (f : FrameIn) (tag : BitVec 12) (len : Fin 256) (addr : Word) (s : State) :
    Host.Outcome State Fault Refusal :=
  .next (s.event fun s => s.frameIn f (.bulk 0 tag.toNat (len.val + 1) 0 addr.toNat 0))

/-- BULK_WRITE (R415): what arrives is what its blocks spell. -/
def execBulkWrite (f : FrameIn) (tag : BitVec 12) (len : Fin 256) (addr : Word) (data : Nat) (lost : List (BitVec 16)) (s : State) :
    Host.Outcome State Fault Refusal :=
  .next (s.event fun s => s.frameIn f (.bulk 1 tag.toNat (len.val + 1) 0 addr.toNat data) none lost)

/-- RDRSP (R416): what arrives is what its blocks spell. -/
def execRdrsp (f : FrameIn) (tag : BitVec 12) (status : BitVec 4) (data : Nat) (s : State) :
    Host.Outcome State Fault Refusal :=
  .next (s.event fun s => s.frameIn f (.bulk 2 tag.toNat (f.len.val + 1) status.toNat f.addr.toNat data))

/-- WRRSP (R416): what arrives is what its blocks spell. -/
def execWrrsp (f : FrameIn) (tag : BitVec 12) (status : BitVec 4) (s : State) :
    Host.Outcome State Fault Refusal :=
  .next (s.event fun s => s.frameIn f (.bulk 3 tag.toNat (f.len.val + 1) status.toNat f.addr.toNat 0))

/-- ATTEST (R518): what arrives is what its blocks spell. -/
def execAttest (f : FrameIn) (tag : BitVec 12) (req : BitVec 512) (s : State) :
    Host.Outcome State Fault Refusal :=
  .next (s.event fun s => s.frameIn f (.bulk 4 tag.toNat 64 0 f.addr.toNat req.toNat))

/-- ATTRSP (R519): what arrives is what its blocks spell. -/
def execAttrsp (f : FrameIn) (tag : BitVec 12) (status : BitVec 4) (off : Word) (data : Nat) (s : State) :
    Host.Outcome State Fault Refusal :=
  .next (s.event fun s => s.frameIn f (.bulk 5 tag.toNat (f.len.val + 1) status.toNat off.toNat data))

/-- BULK_TIMEOUT (R416). -/
def execBulkTimeout (tag : BitVec 12) (s : State) : Host.Outcome State Fault Refusal :=
  .next (s.event fun s => s.timeouts fun q => q.tag = tag.toNat && !q.pcie && seqRequest q.who)

/-- NOT_READY_REISSUE (R416). -/
def execNotReadyReissue (tag : BitVec 12) (s : State) : Host.Outcome State Fault Refusal :=
  .next (s.event fun s => s.reissue tag.toNat)

/-- MANAGEMENT_ACCESS (R417). -/
def execManagementAccess (r : Requester) (v : Word) (s : State) : Host.Outcome State Fault Refusal :=
  .next (s.access r (rg .linkMgCtl).off v)

/-- USER_EVENT (R419): what arrives is what its slot spells. -/
def execUserEvent (ev : EventIn) (s : State) : Host.Outcome State Fault Refusal := .next (s.event fun s => s.eventIn ev)

/-- DISTRESS (R419): what arrives is what its slot spells. -/
def execDistress (ev : EventIn) (s : State) : Host.Outcome State Fault Refusal := .next (s.event fun s => s.eventIn ev)

/-- SCHIM_UP (R424): what arrives is what its slot spells. -/
def execSchimUp (ev : EventIn) (s : State) : Host.Outcome State Fault Refusal := .next (s.event fun s => s.eventIn ev)

/-- SCHIM_DOWN (R424): what arrives is what its slot spells. -/
def execSchimDown (ev : EventIn) (s : State) : Host.Outcome State Fault Refusal := .next (s.event fun s => s.eventIn ev)

/-- SCHIM_IN (R424). -/
def execSchimIn (r : Requester) (v : Word) (s : State) : Host.Outcome State Fault Refusal :=
  .next (s.access r (rg .linkSchimIn).off v)

/-- SCHIM_TIMEOUT (R425). -/
def execSchimTimeout (s : State) : Host.Outcome State Fault Refusal :=
  .next (s.event fun s => s.schimTimeout)

/-- EVENT_QUEUE_POP (R434). -/
def execEventQueuePop (r : Requester) (s : State) : Host.Outcome State Fault Refusal :=
  .next (s.accessRead r (rg .linkEvqhi).off)

/-- EVSTAT_CLR (R434). -/
def execEvstatClr (r : Requester) (v : Word) (s : State) : Host.Outcome State Fault Refusal :=
  .next (s.access r (rg .linkEvstat).off v)

/-- SEAM_ENGINE_CLAIM (R426). -/
def execSeamEngineClaim (r : Requester) (v : Word) (s : State) : Host.Outcome State Fault Refusal :=
  .next (s.access r (rg .linkSeamCtl).off v)

/-- REMOTE_WINDOW_CLAIM (R414). -/
def execRemoteWindowClaim (r : Requester) (m : Fin 16) (v : Word) (s : State) : Host.Outcome State Fault Refusal :=
  .next (s.access r (rg .linkRwin m).off v)

/-- SEAM_EXCHANGE (R426). -/
def execSeamExchange (r : Requester) (v : Word) (s : State) : Host.Outcome State Fault Refusal :=
  .next (s.access r (rg .linkSeamCtl).off v)

/-- SEAM_FRAME (R427): what arrives is what its blocks spell. -/
def execSeamFrame (f : FrameIn) (plane : BitVec 12) (east : Bool) (planes : List (BitVec 64)) (collide : BitVec 32) (s : State) :
    Host.Outcome State Fault Refusal :=
  .next (s.event fun s => s.frameIn f (.seam plane.toNat east planes) none [] collide)

/-- SEAM_EXCHANGE_DONE (R426). -/
def execSeamExchangeDone (s : State) : Host.Outcome State Fault Refusal :=
  .next (s.event fun s => s.seamDone)

/-- P_ERR_CLR (R436). -/
def execPErrClr (r : Requester) (k : Fin 6) (v : Word) (s : State) : Host.Outcome State Fault Refusal :=
  .next (s.access r (rg .kpErr k).off v)

/-- ATTEST_TIMEOUT (R519). -/
def execAttestTimeout (tag : BitVec 12) (s : State) : Host.Outcome State Fault Refusal :=
  .next (s.event fun s => s.timeouts fun q => q.tag = tag.toNat && q.who = .attest)

end Sys2Proof.Machine
end

