-- ==== Sys2Proof/Machine/LoadStore.lean ====
section
/-! DEFINITION. Loads, stores and the write buffer as commands (07_instruction_reference.md R182 to R184, R195). -/

namespace Sys2Proof.Machine

/-- What decode knows of LD and ST (R151 to R156): SZ 0b11 wants an even register. -/
def ldShape (d : Fin 16) (sz : Fin 4) (m : MemOp) : Shape :=
  { len := 1 + memOpLen m, resv := memResv m || (sz = 3 && d.val % 2 = 1) }

/-- FLD and FST: one word, so SZ is 0b10 (R195). -/
def fldShape (sz : Fin 4) (m : MemOp) : Shape := { page := 3, len := 2 + memOpLen m, resv := memResv m || sz ≠ 2 }

/-- The form of a load or store. -/
def memForm (iss : Issue) (sh : Shape) (fp : Bool) (sz : Fin 4) (m : MemOp) : MemForm :=
  { fp, size := szBytes sz, len := instrLen iss sh, rep := hasRep iss, m }

/-- LD. -/
def execLd (iss : Issue) (d : Fin 16) (sz : Fin 4) (m : MemOp) (s : State) : Host.Outcome State Fault Refusal :=
  let sh := ldShape d sz m
  .next (s.issue iss sh (loadBody iss.h (memForm iss sh false sz m) d)).settle

/-- ST: Gd, and Gd+1 for a doubleword (R153). -/
def execSt (iss : Issue) (d : Fin 16) (sz : Fin 4) (m : MemOp) (s : State) : Host.Outcome State Fault Refusal :=
  let sh := ldShape d sz m
  let data (s : State) : Nat := (s.gr iss.h d).toNat + 2 ^ 32 * (s.gr iss.h (d + 1)).toNat
  .next (s.issue iss sh (storeBody iss.h (memForm iss sh false sz m) data)).settle

/-- FLD. -/
def execFld (iss : Issue) (d : Fin 16) (sz : Fin 4) (m : MemOp) (s : State) : Host.Outcome State Fault Refusal :=
  let sh := fldShape sz m
  .next (s.issue iss sh (loadBody iss.h (memForm iss sh true sz m) d)).settle

/-- FST. -/
def execFst (iss : Issue) (d : Fin 16) (sz : Fin 4) (m : MemOp) (s : State) : Host.Outcome State Fault Refusal :=
  let sh := fldShape sz m
  .next (s.issue iss sh (storeBody iss.h (memForm iss sh true sz m) fun s => (s.fr iss.h d).toNat)).settle

/-- BUFFERED_WRITE_PERFORM: the write buffer of sequencer h performs its oldest write (R183). -/
def execBufferedWritePerform (h : Fin 4) (s : State) : Host.Outcome State Fault Refusal :=
  .next (if s.coreOn then (s.performOldest h).settle else s)

end Sys2Proof.Machine
end

