-- ==== Sys2Proof/Machine/LodgeCmd.lean ====
section
/-! DEFINITION. Commands of the doorbells, the Lodge and the watchdogs (16_doorbells_faults_lodge.md). -/

namespace Sys2Proof.Machine

/-- CLAIM (R454). -/
def execClaim (r : Requester) (h : Fin 4) (s : State) : Host.Outcome State Fault Refusal :=
  .next (s.accessRead r (rg .dbClaim h).off)

/-- COMPLETE (R455). -/
def execComplete (r : Requester) (h : Fin 4) (v : Word) (s : State) : Host.Outcome State Fault Refusal :=
  .next (s.access r (rg .dbComplete h).off v)

/-- LODGE_CMD (R460). -/
def execLodgeCmd (r : Requester) (v : Word) (s : State) : Host.Outcome State Fault Refusal :=
  .next (s.access r (rg .lodgeCmd).off v)

/-- POWER_FAILING (R460). -/
def execPowerFailing (s : State) : Host.Outcome State Fault Refusal :=
  .next (s.event fun s => s.holdup true)

/-- HOLDUP_N_HIGH (R474). -/
def execHoldupNHigh (s : State) : Host.Outcome State Fault Refusal :=
  .next (s.event fun s => s.holdup false)

/-- HEARTH_PLL_LOST (R479). -/
def execHearthPllLost (s : State) : Host.Outcome State Fault Refusal :=
  .next (s.event fun s => s.pllLost)

/-- HEARTH_PLL_RELOCK (R479). -/
def execHearthPllRelock (s : State) : Host.Outcome State Fault Refusal :=
  .next (s.event fun s => s.pllRelock)

/-- THERMAL_TRIP (R470). -/
def execThermalTrip (t : BitVec 10) (s : State) : Host.Outcome State Fault Refusal :=
  .next (s.event fun s => s.setTemp t)

/-- THERMAL_WARN (R470). -/
def execThermalWarn (t : BitVec 10) (s : State) : Host.Outcome State Fault Refusal :=
  .next (s.event fun s => s.setTemp t)

/-- FAULT_RECORD (R464). -/
def execFaultRecord (s : State) : Host.Outcome State Fault Refusal :=
  .next (s.event fun s => s.faultRecord)

/-- RELEASE (R463). -/
def execRelease (r : Requester) (v : Word) (s : State) : Host.Outcome State Fault Refusal :=
  .next (s.access r (rg .lodgeStat).off v)

/-- FREL (R463). -/
def execFrel (r : Requester) (v : Word) (s : State) : Host.Outcome State Fault Refusal :=
  .next (s.access r (rg .lodgeStat).off v)

/-- WATCHDOG_KICK (R468). -/
def execWatchdogKick (r : Requester) (h : Fin 4) (v : Word) (s : State) : Host.Outcome State Fault Refusal :=
  .next (s.access r (rg .wdKick h).off v)

/-- WATCHDOG_WARN (R468). -/
def execWatchdogWarn (h : Fin 4) (s : State) : Host.Outcome State Fault Refusal :=
  .next (s.event fun s => s.wdWarn h)

/-- WATCHDOG_EXPIRE (R468). -/
def execWatchdogExpire (h : Fin 4) (s : State) : Host.Outcome State Fault Refusal :=
  .next (s.event fun s => s.wdExpire h)

end Sys2Proof.Machine
end

