-- ==== Sys2Proof/Machine/MantelCmd.lean ====
section
/-! DEFINITION. Commands of the Mantel (13_mantel_and_launch.md). -/

namespace Sys2Proof.Machine

/-- The low word of a pair read under R368. -/
def pairLow (pair : Fin 11) : Reg :=
  if pair = 0 then rg .mantelCntlo
  else if pair < 5 then rg .encTlo (pair - 1)
  else if pair < 9 then rg .lcLastlo (pair - 5)
  else if pair = 9 then rg .linkSyncRxlo
  else rg .linkSyncAtlo

/-- The register that holds OWNER of a resource, numbered as MANTEL_CLAIM.RES (R381). -/
def mantelResource (res : Fin 284) : Reg :=
  if res < 0x100 then rg .leCtl res
  else if res < 0x110 then rg .outCtl (res - 0x100)
  else if res < 0x118 then rg .grpCtl (res - 0x110)
  else rg .encCtl (res - 0x118)

/-- STEP (R370). -/
def execStep (r : Requester) (v : Word) (s : State) : Host.Outcome State Fault Refusal :=
  .next (s.access r (rg .mantelCtl).off v)

/-- SYNC_TIMEOUT (R371). -/
def execSyncTimeout (s : State) : Host.Outcome State Fault Refusal :=
  .next (s.event fun s => s.syncTimeout)

/-- COUNT_LOW_READ (R368). -/
def execCountLowRead (r : Requester) (pair : Fin 11) (s : State) : Host.Outcome State Fault Refusal :=
  .next (s.accessRead r (pairLow pair).off)

/-- ARM (R374). -/
def execArm (r : Requester) (i : Fin 256) (v : Word) (s : State) : Host.Outcome State Fault Refusal :=
  .next (s.access r (rg .leCtl i).off v)

/-- DISARM (R398). -/
def execDisarm (r : Requester) (i : Fin 256) (v : Word) (s : State) : Host.Outcome State Fault Refusal :=
  .next (s.access r (rg .leCtl i).off v)

/-- LAUNCH_FIRE (R373). -/
def execLaunchFire (i : Fin 256) (s : State) : Host.Outcome State Fault Refusal :=
  .next (s.event fun s => s.launchFire i)

/-- PULSE_END (R379). -/
def execPulseEnd (k : Fin 16) (s : State) : Host.Outcome State Fault Refusal :=
  .next (s.event fun s => s.pulseEnd k)

/-- MANTEL_CLAIM_WRITE (R381). -/
def execMantelClaimWrite (r : Requester) (res : Fin 284) (v : Word) (s : State) : Host.Outcome State Fault Refusal :=
  .next (s.access r (mantelResource res).off v)

/-- GSTOP (R384). -/
def execGstop (r : Requester) (v : Word) (s : State) : Host.Outcome State Fault Refusal :=
  .next (s.access r (rg .mantelGstop).off v)

/-- ENCODER_EDGE (R386, R387): the levels of A and B at the pads, as sampled at the present TCLK edge and at those before it,
newest first. -/
def execEncoderEdge (e : Fin 4) (a b : List Bool) (s : State) : Host.Outcome State Fault Refusal :=
  .next (s.tclkEvent fun s => s.encoderEdge e a b)

/-- ENCODER_Z (R386, R388): the level of Z at the pad, sampled likewise. -/
def execEncoderZ (e : Fin 4) (samples : List Bool) (s : State) : Host.Outcome State Fault Refusal :=
  .next (s.tclkEvent fun s => s.encoderZ e samples)

/-- SMOOTHED_LINE_EVENT (R390). -/
def execSmoothedLineEvent (e : Fin 4) (up : Bool) (s : State) : Host.Outcome State Fault Refusal :=
  .next (s.tclkEvent fun s => s.smoothedEvent e up)

/-- LINE_CLOCK_STALL (R390). -/
def execLineClockStall (e : Fin 4) (s : State) : Host.Outcome State Fault Refusal :=
  .next (s.tclkEvent fun s => s.lineStall e)

end Sys2Proof.Machine
end

