-- ==== Sys2Proof/Machine/PcieCmd.lean ====
section
/-! DEFINITION. Commands of the PCI Express port (15_pcie_host_port.md). -/

namespace Sys2Proof.Machine

/-- PCIE_CONFIG_REQUEST (R438). -/
def execPcieConfigRequest (q : CfgReq) (early : Bool) (s : State) : Host.Outcome State Fault Refusal :=
  .next (s.event fun s => s.pcieConfig q early)

/-- HOT_RESET (R438). -/
def execHotReset (s : State) : Host.Outcome State Fault Refusal :=
  .next (s.event fun s => s.hotReset)

/-- PCIE_INBOUND_READ (R441). -/
def execPcieInboundRead (bar : Fin 3) (off size : Nat) (s : State) : Host.Outcome State Fault Refusal :=
  .next (s.event fun s => s.pcieIn bar off size)

/-- PCIE_INBOUND_WRITE (R441). -/
def execPcieInboundWrite (bar : Fin 3) (off : Nat) (data : List Byte) (lost : List (BitVec 16)) (s : State) : Host.Outcome State Fault Refusal :=
  .next (s.event fun s => s.pcieOut bar off data lost)

/-- PCIE_COMPLETION (R443). -/
def execPcieCompletion (tag : BitVec 12) (st : CplStatus) (data : List Byte) (s : State) : Host.Outcome State Fault Refusal :=
  .next (s.event fun s => s.completion tag.toNat st data)

/-- PCIE_OUTBOUND_TIMEOUT (R443). -/
def execPcieOutboundTimeout (tag : BitVec 12) (s : State) : Host.Outcome State Fault Refusal :=
  .next (s.event fun s => s.timeouts fun q => q.tag = tag.toNat && q.pcie)

/-- HDB_SET (R449). -/
def execHdbSet (r : Requester) (v : Word) (s : State) : Host.Outcome State Fault Refusal :=
  .next (s.access r (rg .pcieHdbSet).off v)

/-- TAKE (R449). -/
def execTake (r : Requester) (v : Word) (s : State) : Host.Outcome State Fault Refusal :=
  .next (s.access r (rg .pcieBoot).off v)

/-- PCIE_ATTCTL_GO (R447). -/
def execPcieAttctlGo (r : Requester) (v : Word) (s : State) : Host.Outcome State Fault Refusal :=
  .next (s.access r (rg .pcieAttctl).off v)

/-- PCIE_LINK_STATE_CHANGE (R449). -/
def execPcieLinkStateChange (rate : Option (Fin 4)) (width : Fin 3) (up l1 : Bool) (s : State) : Host.Outcome State Fault Refusal :=
  .next (s.event fun s => s.pcieLinkChange rate width up l1)

end Sys2Proof.Machine
end

