-- ==== Sys2Proof/Machine/PinsCmd.lean ====
section
/-! DEFINITION. Commands of the pins (20_pins_and_electrical.md). -/

namespace Sys2Proof.Machine

/-- PIN_CLAIM (R548). -/
def execPinClaim (r : Requester) (i : Fin 384) (v : Word) (s : State) : Host.Outcome State Fault Refusal :=
  .next (s.access r (rg .gpOwn i).off v)

/-- PIN_CTL_WRITE (R550). -/
def execPinCtlWrite (r : Requester) (i : Fin 384) (v : Word) (s : State) : Host.Outcome State Fault Refusal :=
  .next (s.access r (rg .gpCtl i).off v)

/-- BANK_SUPPLY_CHANGE (R546, R552). -/
def execBankSupplyChange (b : Fin 12) (level : Fin 4) (s : State) : Host.Outcome State Fault Refusal :=
  let t := s.supplyLevel b level
  .next (if t.power.por then t else t.settle)

end Sys2Proof.Machine
end

