-- ==== Sys2Proof/Machine/PorchCmd.lean ====
section
/-! DEFINITION. Commands of the porch engines: instructions at their opportunities, and registers (11_porch_engines.md). -/

namespace Sys2Proof.Machine

/-- BR (R315). -/
def execBr (n : Fin 512) (pads : BitVec 384) (s : State) : Host.Outcome State Fault Refusal :=
  .next (s.coreEvent fun s => s.porchRun n pads 0)

/-- BRR (R315). -/
def execBrr (n : Fin 512) (s : State) : Host.Outcome State Fault Refusal :=
  .next (s.coreEvent fun s => s.porchRun n 0 1)

/-- WAIT (R320). -/
def execWait (n : Fin 512) (pads : BitVec 384) (s : State) : Host.Outcome State Fault Refusal :=
  .next (s.coreEvent fun s => s.porchRun n pads 2)

/-- WAIT_TIMEOUT (R320). -/
def execWaitTimeout (n : Fin 512) (pads : BitVec 384) (s : State) : Host.Outcome State Fault Refusal :=
  .next (s.coreEvent fun s => if s.waitExpired n pads then s.porchRun n pads 2 else s)

/-- SHO (R315). -/
def execSho (n : Fin 512) (s : State) : Host.Outcome State Fault Refusal :=
  .next (s.coreEvent fun s => s.porchRun n 0 3)

/-- SHI (R315). -/
def execShi (n : Fin 512) (pads : BitVec 384) (s : State) : Host.Outcome State Fault Refusal :=
  .next (s.coreEvent fun s => s.porchRun n pads 4)

/-- SHX (R315). -/
def execShx (n : Fin 512) (pads : BitVec 384) (s : State) : Host.Outcome State Fault Refusal :=
  .next (s.coreEvent fun s => s.porchRun n pads 5)

/-- PULL (R315). -/
def execPull (n : Fin 512) (s : State) : Host.Outcome State Fault Refusal :=
  .next (s.coreEvent fun s => s.porchRun n 0 6)

/-- PUSH (R315). -/
def execPush (n : Fin 512) (s : State) : Host.Outcome State Fault Refusal :=
  .next (s.coreEvent fun s => s.porchRun n 0 7)

/-- ALU (R315). -/
def execAlu (n : Fin 512) (pads : BitVec 384) (s : State) : Host.Outcome State Fault Refusal :=
  .next (s.coreEvent fun s => s.porchRun n pads 8)

/-- LDI (R315). -/
def execLdi (n : Fin 512) (s : State) : Host.Outcome State Fault Refusal :=
  .next (s.coreEvent fun s => s.porchRun n 0 9)

/-- SIG (R315). -/
def execSig (n : Fin 512) (s : State) : Host.Outcome State Fault Refusal :=
  .next (s.coreEvent fun s => s.porchRun n 0 10)

/-- GATE (R315). -/
def execGate (n : Fin 512) (s : State) : Host.Outcome State Fault Refusal :=
  .next (s.coreEvent fun s => s.porchRun n 0 11)

/-- HALT (R315). -/
def execHalt (n : Fin 512) (s : State) : Host.Outcome State Fault Refusal :=
  .next (s.coreEvent fun s => s.porchRun n 0 13)

/-- PORCH_CHANNEL_CLAIM (R329). -/
def execPorchChannelClaim (r : Requester) (n : Fin 512) (v : Word) (s : State) : Host.Outcome State Fault Refusal :=
  .next (s.access r (rg .chCtl n).off v)

/-- PORCH_ENGINE_CLAIM (R329). -/
def execPorchEngineClaim (r : Requester) (e : Fin 64) (v : Word) (s : State) : Host.Outcome State Fault Refusal :=
  .next (s.access r (rg .peCtl e).off v)

/-- PORCH_ENABLE (R307). -/
def execPorchEnable (r : Requester) (n : Fin 512) (v : Word) (s : State) : Host.Outcome State Fault Refusal :=
  .next (s.access r (rg .chCtl n).off v)

/-- PORCH_DISABLE (R325). -/
def execPorchDisable (r : Requester) (n : Fin 512) (v : Word) (s : State) : Host.Outcome State Fault Refusal :=
  .next (s.access r (rg .chCtl n).off v)

/-- RESTART (R325). -/
def execRestart (r : Requester) (n : Fin 512) (v : Word) (s : State) : Host.Outcome State Fault Refusal :=
  .next (s.access r (rg .chCtl n).off v)

/-- PORCH_SYNC (R326). -/
def execPorchSync (r : Requester) (v : Word) (s : State) : Host.Outcome State Fault Refusal :=
  .next (s.access r (rg .porchSync).off v)

/-- PORCH_TXF (R330). -/
def execPorchTxf (r : Requester) (n : Fin 512) (v : Word) (s : State) : Host.Outcome State Fault Refusal :=
  .next (s.access r (rg .chTxf n).off v)

/-- PORCH_RXF (R330). -/
def execPorchRxf (r : Requester) (n : Fin 512) (s : State) : Host.Outcome State Fault Refusal :=
  .next (s.accessRead r (rg .chRxf n).off)

/-- PORCH_INJECT (R323). -/
def execPorchInject (r : Requester) (n : Fin 512) (v : Word) (s : State) : Host.Outcome State Fault Refusal :=
  .next (s.access r (rg .chInj n).off v)

/-- INJECTION_EXECUTE (R323). -/
def execInjectionExecute (n : Fin 512) (pads : BitVec 384) (s : State) : Host.Outcome State Fault Refusal :=
  .next (s.coreEvent fun s => s.injExec n pads)

/-- PORCH_EVT (R336). -/
def execPorchEvt (r : Requester) (n : Fin 512) (v : Word) (s : State) : Host.Outcome State Fault Refusal :=
  .next (s.access r (rg .chEvt n).off v)

/-- FLUSH (R336). -/
def execFlush (r : Requester) (n : Fin 512) (v : Word) (s : State) : Host.Outcome State Fault Refusal :=
  .next (s.access r (rg .chFstat n).off v)

/-- CH_EXEC_PC_WRITE (R335). -/
def execChExecPcWrite (r : Requester) (n : Fin 512) (v : Word) (s : State) : Host.Outcome State Fault Refusal :=
  .next (s.access r (rg .chExec n).off v)

/-- DWELL_OPPORTUNITY (R311). -/
def execDwellOpportunity (n : Fin 512) (s : State) : Host.Outcome State Fault Refusal :=
  .next (s.coreEvent fun s => s.dwellOpp n)

end Sys2Proof.Machine
end

