-- ==== Sys2Proof/Machine/PowerCmd.lean ====
section
/-! DEFINITION. Commands of clocks, power states and resets (17_clocks_power_reset.md). -/

namespace Sys2Proof.Machine

/-- SSC_APPLY (R482). -/
def execSscApply (s : State) : Host.Outcome State Fault Refusal :=
  .next (s.event fun s => s.sscApply)

/-- IDLE_REQUEST (R484). -/
def execIdleRequest (r : Requester) (v : Word) (s : State) : Host.Outcome State Fault Refusal :=
  .next (s.access r (rg .sysPwrctl).off v)

/-- IDLE_ENTER (R484). -/
def execIdleEnter (s : State) : Host.Outcome State Fault Refusal :=
  .next (s.coreEvent fun s => s.idleEnter)

/-- DEEP_ENTER (R485). -/
def execDeepEnter (r : Requester) (v : Word) (s : State) : Host.Outcome State Fault Refusal :=
  .next (s.access r (rg .sysPwrctl).off v)

/-- DEEP_WAKE (R486). -/
def execDeepWake (s : State) : Host.Outcome State Fault Refusal :=
  .next (s.event fun s => s.deepWake)

/-- WING_POWER_WRITE (R488). -/
def execWingPowerWrite (r : Requester) (v : Word) (s : State) : Host.Outcome State Fault Refusal :=
  .next (s.access r (rg .sysWpwr).off v)

/-- COLD_POWER_UP (R490). -/
def execColdPowerUp (sel : BitVec 3) (s : State) : Host.Outcome State Fault Refusal :=
  .next ((s.coldUp sel).settle)

/-- WARM_RESET (R492). -/
def execWarmReset (pin : Bool) (s : State) : Host.Outcome State Fault Refusal :=
  .next (s.event fun s => s.warmEvent pin)

/-- RESET_RELEASE (R492). -/
def execResetRelease (sel : BitVec 3) (s : State) : Host.Outcome State Fault Refusal :=
  .next (s.event fun s => s.resetRelease sel)

/-- POR_N_LOW (R491). -/
def execPorNLow (s : State) : Host.Outcome State Fault Refusal :=
  let t := s.fresh
  .next (t.2.porLow (t.1.getLsbD 0))

end Sys2Proof.Machine
end

