-- ==== Sys2Proof/Machine/RegCmd.lean ====
section
/-! DEFINITION. Register writes in general, and the registers of the sequencers, the array and the control store (00_scope.md R9 to R12, 02, 05, 07, 08). -/

namespace Sys2Proof.Machine

/-- REGISTER_WRITE (R9). -/
def execRegisterWrite (r : Requester) (off : Nat) (v : Word) (s : State) : Host.Outcome State Fault Refusal :=
  .next (s.access r off v)

/-- SYS_SEQ_EVL (R198). -/
def execSysSeqEvl (r : Requester) (h : Fin 4) (v : Word) (s : State) : Host.Outcome State Fault Refusal :=
  .next (s.access r (rg .sysSeqEvl h).off v)

/-- SYS_SEQ_EVC (R199). -/
def execSysSeqEvc (r : Requester) (h : Fin 4) (v : Word) (s : State) : Host.Outcome State Fault Refusal :=
  .next (s.access r (rg .sysSeqEvc h).off v)

/-- ATOMCLR (R144). -/
def execAtomclr (r : Requester) (h : Fin 4) (v : Word) (s : State) : Host.Outcome State Fault Refusal :=
  .next (s.access r (rg .sysSeqStat h).off v)

/-- ARRAY_WOWN_WRITE (R26). -/
def execArrayWownWrite (r : Requester) (v : Word) (s : State) : Host.Outcome State Fault Refusal :=
  .next (s.access r (rg .arrayWown).off v)

/-- ARRAY_BOUND_WRITE (R53). -/
def execArrayBoundWrite (r : Requester) (v : Word) (s : State) : Host.Outcome State Fault Refusal :=
  .next (s.access r (rg .arrayBound).off v)

/-- ARRAY_TOPO_WRITE (R53). -/
def execArrayTopoWrite (r : Requester) (v : Word) (s : State) : Host.Outcome State Fault Refusal :=
  .next (s.access r (rg .arrayTopo).off v)

/-- ARRAY_WRITE_TAKES_EFFECT (R55). -/
def execArrayWriteTakesEffect (h : Fin 4) (s : State) : Host.Outcome State Fault Refusal :=
  .next (s.coreEvent fun s => s.arrayTakes h)

/-- PERR_VALID_CLEAR (R51). -/
def execPerrValidClear (r : Requester) (w : Fin 8) (v : Word) (s : State) : Host.Outcome State Fault Refusal :=
  .next (s.access r (rg .wingPerr w).off v)

/-- HPERR_CLEAR (R51). -/
def execHperrClear (r : Requester) (v : Word) (s : State) : Host.Outcome State Fault Refusal :=
  .next (s.access r (rg .arrayHaloStat).off v)

/-- CLRCNT (R62). -/
def execClrcnt (r : Requester) (v : Word) (s : State) : Host.Outcome State Fault Refusal :=
  .next (s.access r (rg .arrayHaloStat).off v)

/-- COLCNT_CLR (R64). -/
def execColcntClr (r : Requester) (w : Fin 8) (v : Word) (s : State) : Host.Outcome State Fault Refusal :=
  .next (s.access r (rg .wingColcnt w).off v)

/-- WING_CLEAR (R31). -/
def execWingClear (w : Fin 8) (s : State) : Host.Outcome State Fault Refusal :=
  .next (s.coreEvent fun s => if s.wingClearing w then s.clearWing w else s)

/-- MC_LOAD_GO (R217). -/
def execMcLoadGo (r : Requester) (v : Word) (s : State) : Host.Outcome State Fault Refusal :=
  .next (s.access r (rg .asMcCtl).off v)

/-- MC_LOAD_END (R217). -/
def execMcLoadEnd (s : State) : Host.Outcome State Fault Refusal :=
  .next (s.coreEvent fun s => s.mcLoadEnd)

end Sys2Proof.Machine
end

