-- ==== Sys2Proof/Machine/Flags.lean ====
section
/-! DEFINITION. Flag computations of the scalar integer instructions (07_instruction_reference.md R177 to R180). -/

namespace Sys2Proof.Machine

/-- Operation width: 16 under NARROW, else 32 (R178). -/
def opWidth (narrow : Bool) : Nat := if narrow then 16 else 32

/-- A result with the flags it writes: `none` leaves a flag as it is. -/
structure AluRes where
  r : Nat
  z : Option Bool := none
  n : Option Bool := none
  c : Option Bool := none
  v : Option Bool := none
  deriving DecidableEq, Repr

/-- Z and N of an n-bit result (R177). -/
def flagsZN (n r : Nat) : AluRes := { r, z := some (r = 0), n := some (r.testBit (n - 1)) }

/-- Addition of n-bit operands (R177): C is the carry out, V the signed overflow. -/
def aluAdd (n a b : Nat) : AluRes :=
  let r := (a + b) % 2 ^ n
  { flagsZN n r with
    c := some (decide (2 ^ n ≤ a + b))
    v := some (a.testBit (n - 1) == b.testBit (n - 1) && r.testBit (n - 1) != a.testBit (n - 1)) }

/-- Subtraction (R177): C is 1 when no borrow occurs. -/
def aluSub (n a b : Nat) : AluRes :=
  let r := (2 ^ n + a - b) % 2 ^ n
  { flagsZN n r with
    c := some (decide (b ≤ a))
    v := some (a.testBit (n - 1) != b.testBit (n - 1) && r.testBit (n - 1) != a.testBit (n - 1)) }

/-- Shifts and rotate (R179): count `c` below n; with c = 0 the flag C is unchanged. -/
inductive ShiftOp where
  | shl | shr | sar | ror
  deriving DecidableEq, Repr

def aluShift (op : ShiftOp) (n a c : Nat) : AluRes :=
  let r := match op with
    | .shl => (a * 2 ^ c) % 2 ^ n
    | .shr => a / 2 ^ c
    | .sar => ((sext n a / (2 ^ c : Int)) % (2 ^ n : Int)).toNat
    | .ror => (a / 2 ^ c + a * 2 ^ (n - c)) % 2 ^ n
  { flagsZN n r with
    c := if c = 0 then none else some (match op with
      | .shl => a.testBit (n - c)
      | .shr | .sar => a.testBit (c - 1)
      | .ror => r.testBit (n - 1)) }

/-- Products (R177, R178): low half, high half of the unsigned or signed product. -/
def aluMulLow (n a b : Nat) : AluRes := flagsZN n ((a * b) % 2 ^ n)

def aluMulHighU (n a b : Nat) : AluRes := flagsZN n (a * b / 2 ^ n)

def aluMulHighS (n a b : Nat) : AluRes :=
  flagsZN n (((sext n a * sext n b) / (2 ^ n : Int)) % (2 ^ n : Int)).toNat

/-- A result of n bits from an integer. -/
def toBits (n : Nat) (v : Int) : Nat := (v % (2 ^ n : Int)).toNat

/-- Division and remainder with the special cases of R180; V is 1 in those cases and 0 otherwise. -/
def aluDivU (n a b : Nat) : AluRes :=
  if b = 0 then { flagsZN n (2 ^ n - 1) with v := some true } else { flagsZN n (a / b) with v := some false }

def aluRemU (n a b : Nat) : AluRes :=
  if b = 0 then { flagsZN n a with v := some true } else { flagsZN n (a % b) with v := some false }

def aluDivS (n a b : Nat) : AluRes :=
  let x := sext n a; let y := sext n b
  if b = 0 then { flagsZN n (2 ^ n - 1) with v := some true }
  else if x = -(2 ^ (n - 1) : Int) ∧ y = -1 then { flagsZN n a with v := some true }
  else { flagsZN n (toBits n (Int.tdiv x y)) with v := some false }

def aluRemS (n a b : Nat) : AluRes :=
  let x := sext n a; let y := sext n b
  if b = 0 then { flagsZN n a with v := some true }
  else if x = -(2 ^ (n - 1) : Int) ∧ y = -1 then { flagsZN n 0 with v := some true }
  else { flagsZN n (toBits n (Int.tmod x y)) with v := some false }

/-- Bitwise operations of n-bit operands. -/
def aluAnd (n a b : Nat) : AluRes := flagsZN n (a &&& b)

def aluOr (n a b : Nat) : AluRes := flagsZN n (a ||| b)

def aluXor (n a b : Nat) : AluRes := flagsZN n (a ^^^ b)

/-- A result without flags. -/
def aluMov (_n _a b : Nat) : AluRes := { r := b }

/-- FLG with the flags of a result written. -/
def AluRes.flg (x : AluRes) (flg : Word) : Word :=
  let put (f : Word) (k : Nat) (o : Option Bool) : Word := match o with
    | some b => setBits f k 1 (b2n b)
    | none => f
  put (put (put (put flg flgZ x.z) flgN x.n) flgC x.c) flgV x.v

/-- Conditions of Bcc on FLG (R160); 15 is reserved. -/
def condHolds (cc : Nat) (flg : Word) : Bool :=
  let z := bit flg flgZ; let n := bit flg flgN; let c := bit flg flgC; let v := bit flg flgV
  match cc with
  | 0 => true
  | 1 => z
  | 2 => !z
  | 3 => !c
  | 4 => c
  | 5 => !c || z
  | 6 => c && !z
  | 7 => n != v
  | 8 => n == v
  | 9 => z || n != v
  | 10 => !z && n == v
  | 11 => n
  | 12 => !n
  | 13 => v
  | 14 => !v
  | _ => false

end Sys2Proof.Machine
end

