-- ==== Sys2Proof/Machine/Scalar.lean ====
section
/-! DEFINITION. Page 0: scalar integer, control transfer, special registers and plane pointers
(07_instruction_reference.md R177 to R187), and the taking of entries (05_hall_sequencers.md R128 to R139). -/

namespace Sys2Proof.Machine

/-- A scalar result: Gd (unless the instruction only compares) and FLG (R177, R178). -/
def State.putAlu (s : State) (h : Fin 4) (d : Fin 16) (write : Bool) (x : AluRes) : State :=
  let s := if write then s.setG h d (BitVec.ofNat 32 x.r) else s
  s.modSeq h fun q => { q with flg := x.flg q.flg }

/-- A register-register instruction on n-bit operands (R177, R178). -/
def aluReg (iss : Issue) (d b : Fin 16) (write : Bool) (op : Nat → Nat → Nat → AluRes) (s : State) : State :=
  s.issue iss { len := 2, narrowOk := true } fun s =>
    let n := opWidth (hasNarrow iss)
    .done (s.putAlu iss.h d write (op n ((s.gr iss.h d).toNat % 2 ^ n) ((s.gr iss.h b).toNat % 2 ^ n)))

/-- A register-immediate instruction (R159, R181). SZ 0b11 is reserved, and SZ 0b10 under NARROW. -/
def aluImm (iss : Issue) (d : Fin 16) (sz : Fin 4) (imm : Word) (write : Bool) (op : Nat → Nat → Nat → AluRes)
    (s : State) : State :=
  s.issue iss { len := 2 + immBytes sz, narrowOk := true, resv := sz.val = 3 || (hasNarrow iss && sz.val = 2) } fun s =>
    let n := opWidth (hasNarrow iss)
    .done (s.putAlu iss.h d write (op n ((s.gr iss.h d).toNat % 2 ^ n) (immValue sz imm n)))

/-- A shift by an immediate count (R159, R181): SZ is 0b00, bits [7:5] are reserved, and bit 4 under NARROW. -/
def shiftImm (iss : Issue) (d : Fin 16) (sz : Fin 4) (imm : Word) (op : ShiftOp) (s : State) : State :=
  let c := imm.toNat % 256
  s.issue iss { len := 2 + immBytes sz, narrowOk := true,
                resv := sz.val ≠ 0 || decide (32 ≤ c) || (hasNarrow iss && decide (16 ≤ c)) } fun s =>
    let n := opWidth (hasNarrow iss)
    .done (s.putAlu iss.h d true (aluShift op n ((s.gr iss.h d).toNat % 2 ^ n) (c % n)))

/-- The count of a register shift is Gb modulo the width (R179). -/
def shiftBy (op : ShiftOp) (n a b : Nat) : AluRes := aluShift op n a (b % n)

/-- ADD (R177): Gd := Gd + Gb, with Z N C V. -/
def execAdd (iss : Issue) (d b : Fin 16) (s : State) : Host.Outcome State Fault Refusal :=
  .next (aluReg iss d b true aluAdd s).settle

/-- SUB (R177): Gd := Gd - Gb, with Z N C V. -/
def execSub (iss : Issue) (d b : Fin 16) (s : State) : Host.Outcome State Fault Refusal :=
  .next (aluReg iss d b true aluSub s).settle

/-- AND (R177): bitwise, with Z N. -/
def execAnd (iss : Issue) (d b : Fin 16) (s : State) : Host.Outcome State Fault Refusal :=
  .next (aluReg iss d b true aluAnd s).settle

/-- OR (R177): bitwise, with Z N. -/
def execOr (iss : Issue) (d b : Fin 16) (s : State) : Host.Outcome State Fault Refusal :=
  .next (aluReg iss d b true aluOr s).settle

/-- XOR (R177): bitwise, with Z N. -/
def execXor (iss : Issue) (d b : Fin 16) (s : State) : Host.Outcome State Fault Refusal :=
  .next (aluReg iss d b true aluXor s).settle

/-- CMP (R177): flags of Gd - Gb, no result. -/
def execCmp (iss : Issue) (d b : Fin 16) (s : State) : Host.Outcome State Fault Refusal :=
  .next (aluReg iss d b false aluSub s).settle

/-- MOV (R177): Gd := Gb, no flag. -/
def execMov (iss : Issue) (d b : Fin 16) (s : State) : Host.Outcome State Fault Refusal :=
  .next (aluReg iss d b true aluMov s).settle

/-- SHL (R179). -/
def execShl (iss : Issue) (d b : Fin 16) (s : State) : Host.Outcome State Fault Refusal :=
  .next (aluReg iss d b true (shiftBy .shl) s).settle

/-- SHR (R179). -/
def execShr (iss : Issue) (d b : Fin 16) (s : State) : Host.Outcome State Fault Refusal :=
  .next (aluReg iss d b true (shiftBy .shr) s).settle

/-- SAR (R179). -/
def execSar (iss : Issue) (d b : Fin 16) (s : State) : Host.Outcome State Fault Refusal :=
  .next (aluReg iss d b true (shiftBy .sar) s).settle

/-- ROR (R179). -/
def execRor (iss : Issue) (d b : Fin 16) (s : State) : Host.Outcome State Fault Refusal :=
  .next (aluReg iss d b true (shiftBy .ror) s).settle

/-- MUL (R177): low half of the product. -/
def execMul (iss : Issue) (d b : Fin 16) (s : State) : Host.Outcome State Fault Refusal :=
  .next (aluReg iss d b true aluMulLow s).settle

/-- MULHU (R177): high half, unsigned. -/
def execMulhu (iss : Issue) (d b : Fin 16) (s : State) : Host.Outcome State Fault Refusal :=
  .next (aluReg iss d b true aluMulHighU s).settle

/-- MULHS (R177): high half, signed. -/
def execMulhs (iss : Issue) (d b : Fin 16) (s : State) : Host.Outcome State Fault Refusal :=
  .next (aluReg iss d b true aluMulHighS s).settle

/-- DIVU (R180). -/
def execDivu (iss : Issue) (d b : Fin 16) (s : State) : Host.Outcome State Fault Refusal :=
  .next (aluReg iss d b true aluDivU s).settle

/-- DIVS (R180). -/
def execDivs (iss : Issue) (d b : Fin 16) (s : State) : Host.Outcome State Fault Refusal :=
  .next (aluReg iss d b true aluDivS s).settle

/-- REMU (R180). -/
def execRemu (iss : Issue) (d b : Fin 16) (s : State) : Host.Outcome State Fault Refusal :=
  .next (aluReg iss d b true aluRemU s).settle

/-- REMS (R180). -/
def execRems (iss : Issue) (d b : Fin 16) (s : State) : Host.Outcome State Fault Refusal :=
  .next (aluReg iss d b true aluRemS s).settle

/-- ADDI (R181). -/
def execAddi (iss : Issue) (d : Fin 16) (sz : Fin 4) (imm : Word) (s : State) : Host.Outcome State Fault Refusal :=
  .next (aluImm iss d sz imm true aluAdd s).settle

/-- SUBI (R181). -/
def execSubi (iss : Issue) (d : Fin 16) (sz : Fin 4) (imm : Word) (s : State) : Host.Outcome State Fault Refusal :=
  .next (aluImm iss d sz imm true aluSub s).settle

/-- ANDI (R181). -/
def execAndi (iss : Issue) (d : Fin 16) (sz : Fin 4) (imm : Word) (s : State) : Host.Outcome State Fault Refusal :=
  .next (aluImm iss d sz imm true aluAnd s).settle

/-- ORI (R181). -/
def execOri (iss : Issue) (d : Fin 16) (sz : Fin 4) (imm : Word) (s : State) : Host.Outcome State Fault Refusal :=
  .next (aluImm iss d sz imm true aluOr s).settle

/-- XORI (R181). -/
def execXori (iss : Issue) (d : Fin 16) (sz : Fin 4) (imm : Word) (s : State) : Host.Outcome State Fault Refusal :=
  .next (aluImm iss d sz imm true aluXor s).settle

/-- CMPI (R181). -/
def execCmpi (iss : Issue) (d : Fin 16) (sz : Fin 4) (imm : Word) (s : State) : Host.Outcome State Fault Refusal :=
  .next (aluImm iss d sz imm false aluSub s).settle

/-- MOVI (R181). -/
def execMovi (iss : Issue) (d : Fin 16) (sz : Fin 4) (imm : Word) (s : State) : Host.Outcome State Fault Refusal :=
  .next (aluImm iss d sz imm true aluMov s).settle

/-- MULI (R181). -/
def execMuli (iss : Issue) (d : Fin 16) (sz : Fin 4) (imm : Word) (s : State) : Host.Outcome State Fault Refusal :=
  .next (aluImm iss d sz imm true aluMulLow s).settle

/-- SHLI (R181). -/
def execShli (iss : Issue) (d : Fin 16) (sz : Fin 4) (imm : Word) (s : State) : Host.Outcome State Fault Refusal :=
  .next (shiftImm iss d sz imm .shl s).settle

/-- SHRI (R181). -/
def execShri (iss : Issue) (d : Fin 16) (sz : Fin 4) (imm : Word) (s : State) : Host.Outcome State Fault Refusal :=
  .next (shiftImm iss d sz imm .shr s).settle

/-- SARI (R181). -/
def execSari (iss : Issue) (d : Fin 16) (sz : Fin 4) (imm : Word) (s : State) : Host.Outcome State Fault Refusal :=
  .next (shiftImm iss d sz imm .sar s).settle

/-- RORI (R181). -/
def execRori (iss : Issue) (d : Fin 16) (sz : Fin 4) (imm : Word) (s : State) : Host.Outcome State Fault Refusal :=
  .next (shiftImm iss d sz imm .ror s).settle

/-! ### Control transfer (R185, R186) -/

/-- BCC (R154, R160, R185): a taken branch goes to the next instruction's address plus the displacement. -/
def execBcc (iss : Issue) (long : Bool) (disp : Word) (cond : Fin 16) (s : State) : Host.Outcome State Fault Refusal :=
  let sh : Shape := { len := if long then 6 else 3, noRep := true, resv := cond.val = 15 }
  let d : Word := if long then disp else wordOfInt (sext 8 disp.toNat)
  .next (s.issue iss sh fun s =>
    let next := (s.seq iss.h).pc + BitVec.ofNat 32 (instrLen iss sh)
    if condHolds cond.val (s.seq iss.h).flg then .jump s (next + d) else .done s).settle

/-- CALL (R185): G14 takes the next instruction's address. -/
def execCall (iss : Issue) (disp : Word) (s : State) : Host.Outcome State Fault Refusal :=
  let sh : Shape := { len := 5, noRep := true }
  .next (s.issue iss sh fun s =>
    let next := (s.seq iss.h).pc + BitVec.ofNat 32 (instrLen iss sh)
    .jump (s.setG iss.h 14 next) (next + disp)).settle

/-- JMP (R185). -/
def execJmp (iss : Issue) (b : Fin 16) (s : State) : Host.Outcome State Fault Refusal :=
  .next (s.issue iss { len := 2, noRep := true } fun s => .jump s (s.gr iss.h b)).settle

/-- CALLR (R185): the target is read before G14 is written. -/
def execCallr (iss : Issue) (b : Fin 16) (s : State) : Host.Outcome State Fault Refusal :=
  let sh : Shape := { len := 2, noRep := true }
  .next (s.issue iss sh fun s =>
    let t := s.gr iss.h b
    .jump (s.setG iss.h 14 ((s.seq iss.h).pc + BitVec.ofNat 32 (instrLen iss sh))) t).settle

/-- RET (R185). -/
def execRet (iss : Issue) (s : State) : Host.Outcome State Fault Refusal :=
  .next (s.issue iss { len := 1, noRep := true } fun s => .jump s (s.gr iss.h 14)).settle

/-- Where RETI meets an uncorrectable error of Study (R125): the pushed pair, or the frame that it resumes. -/
def State.retiBad (s : State) (h : Fin 4) : Option Word :=
  let q := s.seq h
  let resumes := s.flgBit h flgMIP && !q.susp.isEmpty && q.mtf.toNat % 64 = 0 && decide (q.mtf.toNat < 0x40000)
  if stackOk q.g[15] && s.studyBad h q.g[15].toNat 8 then some q.g[15]
  else if stackOk q.g[15] && resumes && s.studyBad h q.mtf.toNat 64 then some q.mtf
  else none

/-- RETI (R130): the pops, and with MIP = 1 the most recently suspended routine goes on (R92, R230). -/
def retiBody (h : Fin 4) (s : State) : Body :=
  let m := s.flgBit h flgMIP
  match s.retiBad h with
  | some a => .exc s vecBF 5 (some a)
  | none =>
  match s.popEntry h with
  | none => .wait (s.haltSeq h 2)
  | some s =>
    let s := if m && !(s.seq h).susp.isEmpty then s.resume h else s
    .jump s (s.seq h).pc

/-- RETI (R130). With a suspended routine resumed, it runs on. -/
def execReti (iss : Issue) (s : State) : Host.Outcome State Fault Refusal :=
  let s := s.issue iss { len := 1, noRep := true } (retiBody iss.h)
  .next (if s.flgBit iss.h flgTP then s else s.runRoutineTo iss.h iss.stop).settle

/-- SC (R185, R186): #SC after completion; the immediate is read by the handler from memory. -/
def execSc (iss : Issue) (_imm : Byte) (s : State) : Host.Outcome State Fault Refusal :=
  .next (s.issue iss { len := 2, noRep := true } fun s => .after s vecSC).settle

/-! ### Special registers and plane pointers (R119 to R124, R187) -/

/-- A special register by its number (R119). -/
def State.special (s : State) (h : Fin 4) (n : Nat) : Word :=
  let q := s.seq h
  match n with
  | 0 => q.rc | 1 => q.flg | 2 => q.fpctl | 3 => q.wm | 4 => q.lfp | 5 => q.epc | 6 => q.mtf | 7 => q.vbr
  | 8 => q.esr | 9 => q.ear
  | _ => BitVec.ofNat 32 h.val

/-- Details that R124 defines under a vector: those it lists, and 0x00 under any. -/
def esrDetailOk (v d : Nat) : Bool :=
  d = 0 || (if v = 1 then decide (d ≤ 10) else if v = 2 then decide (d ≤ 6) else if v = 3 then decide (d ≤ 5)
    else v = 10 && d = 1)

/-- A reserved encoding in a special register (R120, R121, R124). -/
def specialReserved (n : Nat) (v : Word) : Bool :=
  match n with
  | 1 => decide (16 < bits v 16 5)
  | 8 => !esrDetailOk (bits v 0 5) (bits v 8 8)
  | _ => false

/-- Write of a special register: only its RW fields change (R119, R120). -/
def State.setSpecial (s : State) (h : Fin 4) (n : Nat) (v : Word) : State :=
  s.modSeq h fun q => match n with
    | 0 => { q with rc := v }
    | 1 => { q with flg := (q.flg &&& 0x00001400#32) ||| (v &&& 0x001F0B0F#32) }
    | 2 => { q with fpctl := v &&& 0x003F1F07#32 }
    | 3 => { q with wm := v &&& 0xFF#32 }
    | 4 => { q with lfp := v &&& 0xFFF#32 }
    | 5 => { q with epc := v }
    | 6 => { q with mtf := v &&& 0xFFFFFFC0#32 }
    | 7 => { q with vbr := v &&& 0xFFFFFF80#32 }
    | 8 => { q with esr := v &&& 0xFF1F#32 }
    | 9 => { q with ear := v }
    | _ => q

/-- MFS (R119, R187). -/
def execMfs (iss : Issue) (d n : Fin 16) (s : State) : Host.Outcome State Fault Refusal :=
  .next (s.issue iss { len := 3, badSpecial := decide (11 ≤ n.val), writesRc := n.val = 0 } fun s =>
    .done (s.setG iss.h d (s.special iss.h n.val))).settle

/-- MTS (R119, R120, R187): a reserved encoding raises #UD with detail 0x0A. -/
def execMts (iss : Issue) (n b : Fin 16) (s : State) : Host.Outcome State Fault Refusal :=
  .next (s.issue iss { len := 3, badSpecial := decide (11 ≤ n.val), writesRc := n.val = 0 } fun s =>
    let v := s.gr iss.h b
    if specialReserved n.val v then .exc s vecUD 0x0A none
    else .done (s.setSpecial iss.h n.val v)).settle

/-- PSET (R187). -/
def execPset (iss : Issue) (k : Fin 8) (base : BitVec 12) (stride : Byte) (s : State) : Host.Outcome State Fault Refusal :=
  .next (s.issue iss { len := 6 } fun s => .done (s.setP iss.h k base.toNat stride.toNat)).settle

/-- PADDI (R187): the sum wraps modulo 4,096. -/
def execPaddi (iss : Issue) (k : Fin 8) (imm : BitVec 16) (s : State) : Host.Outcome State Fault Refusal :=
  .next (s.issue iss { len := 4 } fun s =>
    .done (s.setP iss.h k (s.pBase iss.h k + imm.toNat) (s.pStride iss.h k))).settle

/-- PADD (R187). -/
def execPadd (iss : Issue) (k : Fin 8) (b : Fin 16) (s : State) : Host.Outcome State Fault Refusal :=
  .next (s.issue iss { len := 3 } fun s =>
    .done (s.setP iss.h k (s.pBase iss.h k + (s.gr iss.h b).toNat) (s.pStride iss.h k))).settle

/-- MFP (R187). -/
def execMfp (iss : Issue) (d : Fin 16) (k : Fin 8) (s : State) : Host.Outcome State Fault Refusal :=
  .next (s.issue iss { len := 3 } fun s => .done (s.setG iss.h d ((s.seq iss.h).p[k]))).settle

/-- MTP (R187). -/
def execMtp (iss : Issue) (k : Fin 8) (b : Fin 16) (s : State) : Host.Outcome State Fault Refusal :=
  .next (s.issue iss { len := 3 } fun s =>
    .done (s.setP iss.h k (bits (s.gr iss.h b) 0 12) (bits (s.gr iss.h b) 16 8))).settle

end Sys2Proof.Machine
end

