-- ==== Sys2Proof/Machine/ScalarFp.lean ====
section
/-! DEFINITION. Page 3: scalar floating point (07_instruction_reference.md R192 to R194, 04 R108). -/

namespace Sys2Proof.Machine

/-- FPCTL.RM of a sequencer (R106). -/
def State.fpRm (s : State) (h : Fin 4) : Nat := bits (s.seq h).fpctl 0 2

/-- Flags ORed into FPCTL.SFLG (R106). -/
def State.orSflg (s : State) (h : Fin 4) (fl : Nat) : State :=
  s.modSeq h fun q => { q with fpctl := q.fpctl ||| BitVec.ofNat 32 (fl % 64 * 65536) }

/-- Completion of a scalar FP operation (R108, R193): #FS before writeback in TRAP mode, #FE with SFLG updated, else the
destination and SFLG. -/
def fpBody (h : Fin 4) (r : FpRes) (write : Word → State → State) (s : State) : Body :=
  if bit (s.seq h).fpctl 2 && r.2.testBit 5 then .exc s vecFS 0 none
  else if (r.2 % 32) &&& bits (s.seq h).fpctl 8 5 ≠ 0 then .exc (s.orSflg h r.2) vecFE 0 none
  else .done ((write r.1 s).orSflg h r.2)

/-- Format P3R: four bytes on page 3. -/
def p3r : Shape := { page := 3, len := 4 }

/-- An operation on F registers with an F destination. -/
def fpOp (iss : Issue) (d : Fin 16) (f : Nat → State → FpRes) (s : State) : State :=
  s.issue iss p3r fun s => fpBody iss.h (f (s.fpRm iss.h) s) (fun w s => s.setFr iss.h d w) s

/-- An operation with a G destination. -/
def fpOpG (iss : Issue) (d : Fin 16) (f : Nat → State → FpRes) (s : State) : State :=
  s.issue iss p3r fun s => fpBody iss.h (f (s.fpRm iss.h) s) (fun w s => s.setG iss.h d w) s

/-- Fa as read, then a change of bit 31 (R194). -/
def fpSign (f : Word → Word) (a : Word) : FpRes := (f (fpAsRead a), (fpRead a).2)

/-- FADD (R192). -/
def execFadd (iss : Issue) (d a b : Fin 16) (s : State) : Host.Outcome State Fault Refusal :=
  .next (fpOp iss d (fun rm s => fpAdd rm (s.fr iss.h a) (s.fr iss.h b)) s).settle

/-- FSUB (R192). -/
def execFsub (iss : Issue) (d a b : Fin 16) (s : State) : Host.Outcome State Fault Refusal :=
  .next (fpOp iss d (fun rm s => fpSub rm (s.fr iss.h a) (s.fr iss.h b)) s).settle

/-- FMUL (R192). -/
def execFmul (iss : Issue) (d a b : Fin 16) (s : State) : Host.Outcome State Fault Refusal :=
  .next (fpOp iss d (fun rm s => fpMul rm (s.fr iss.h a) (s.fr iss.h b)) s).settle

/-- FMA (R192): one rounding. -/
def execFma (iss : Issue) (d a b c : Fin 16) (s : State) : Host.Outcome State Fault Refusal :=
  .next (fpOp iss d (fun rm s => fpFma rm (s.fr iss.h a) (s.fr iss.h b) (s.fr iss.h c)) s).settle

/-- FMIN (R114, R192). -/
def execFmin (iss : Issue) (d a b : Fin 16) (s : State) : Host.Outcome State Fault Refusal :=
  .next (fpOp iss d (fun _ s => fpMinMax false (s.fr iss.h a) (s.fr iss.h b)) s).settle

/-- FMAX (R114, R192). -/
def execFmax (iss : Issue) (d a b : Fin 16) (s : State) : Host.Outcome State Fault Refusal :=
  .next (fpOp iss d (fun _ s => fpMinMax true (s.fr iss.h a) (s.fr iss.h b)) s).settle

/-- FRCP (R111). -/
def execFrcp (iss : Issue) (d a : Fin 16) (s : State) : Host.Outcome State Fault Refusal :=
  .next (fpOp iss d (fun _ s => fpRcp (s.fr iss.h a)) s).settle

/-- FCVT.FI (R112): to Gd. -/
def execFcvtFi (iss : Issue) (d a : Fin 16) (s : State) : Host.Outcome State Fault Refusal :=
  .next (fpOpG iss d (fun rm s => fpToInt rm (s.fr iss.h a)) s).settle

/-- FCVT.IF (R112): from Ga. -/
def execFcvtIf (iss : Issue) (d a : Fin 16) (s : State) : Host.Outcome State Fault Refusal :=
  .next (fpOp iss d (fun rm s => fpOfInt rm (s.gr iss.h a)) s).settle

/-- FMOV (R194). -/
def execFmov (iss : Issue) (d a : Fin 16) (s : State) : Host.Outcome State Fault Refusal :=
  .next (fpOp iss d (fun _ s => fpSign (fun w => w) (s.fr iss.h a)) s).settle

/-- FNEG (R194). -/
def execFneg (iss : Issue) (d a : Fin 16) (s : State) : Host.Outcome State Fault Refusal :=
  .next (fpOp iss d (fun _ s => fpSign (fun w => w ^^^ 0x80000000#32) (s.fr iss.h a)) s).settle

/-- FABS (R194). -/
def execFabs (iss : Issue) (d a : Fin 16) (s : State) : Host.Outcome State Fault Refusal :=
  .next (fpOp iss d (fun _ s => fpSign (fun w => w &&& 0x7FFFFFFF#32) (s.fr iss.h a)) s).settle

/-- FMVGF (R194): the bits of Ga to Fd; no FP operation. -/
def execFmvgf (iss : Issue) (d a : Fin 16) (s : State) : Host.Outcome State Fault Refusal :=
  .next (s.issue iss p3r fun s => .done (s.setFr iss.h d (s.gr iss.h a))).settle

/-- FMVFG (R194): the bits of Fa to Gd; no FP operation. -/
def execFmvfg (iss : Issue) (d a : Fin 16) (s : State) : Host.Outcome State Fault Refusal :=
  .next (s.issue iss p3r fun s => .done (s.setG iss.h d (s.fr iss.h a))).settle

/-- FCMP.cc (R113): 1 or 0 to Gd. -/
def execFcmp (iss : Issue) (cc : Fin 8) (d a b : Fin 16) (s : State) : Host.Outcome State Fault Refusal :=
  .next (fpOpG iss d (fun _ s => fpCmp cc.val (s.fr iss.h a) (s.fr iss.h b)) s).settle

end Sys2Proof.Machine
end

