-- ==== Sys2Proof/Machine/SensorCmd.lean ====
section
/-! DEFINITION. Commands of the sensor receivers, inlets and outlets (10_sensor_receivers_inlet_outlet.md). -/

namespace Sys2Proof.Machine

/-- TRAINGO (R270). -/
def execTraingo (r : Requester) (g : Fin 8) (v : Word) (s : State) : Host.Outcome State Fault Refusal :=
  .next (s.access r (rg .sgCtl g).off v)

/-- TRAINING_END (R270). -/
def execTrainingEnd (g : Fin 8) (lock : Bool) (clean : Vector (BitVec 64) 8) (seen : Vector (List (Option (BitVec 16))) 8)
    (s : State) : Host.Outcome State Fault Refusal :=
  .next (s.coreEvent fun s => s.trainEnd g lock clean seen)

/-- LOSS_OF_LOCK (R272), after the words that arrived before it. -/
def execLossOfLock (g : Fin 8) (words : List LaneWords) (s : State) : Host.Outcome State Fault Refusal :=
  .next (s.coreEvent fun s => (s.rxWords g words).lockLoss g)

/-- SOL_PREAMBLE (R271, R273, R275, R277): the words received up to the end of a preamble. Which preambles they hold the
receiver finds by its search. -/
def execSolPreamble (g : Fin 8) (words : List LaneWords) (last : LaneWords) (s : State) : Host.Outcome State Fault Refusal :=
  .next (s.coreEvent fun s => s.rxWords g (words ++ [last]))

/-- EOL_PREAMBLE (R273, R274): the words received up to the end of a preamble. Which preambles they hold the receiver finds by
its search. -/
def execEolPreamble (g : Fin 8) (words : List LaneWords) (s : State) : Host.Outcome State Fault Refusal :=
  .next (s.coreEvent fun s => s.rxWords g words)

/-- LINE_START_MARK (R276). -/
def execLineStartMark (r : Requester) (w : Fin 8) (v : Word) (s : State) : Host.Outcome State Fault Refusal :=
  .next (s.access r (rg .swLine w).off v)

/-- LINE_NEXT_WRITE (R278). -/
def execLineNextWrite (r : Requester) (w : Fin 8) (v : Word) (s : State) : Host.Outcome State Fault Refusal :=
  .next (s.access r (rg .swLine w).off v)

/-- HAND_OVER (R280). -/
def execHandOver (w : Fin 8) (collide : BitVec 16) (s : State) : Host.Outcome State Fault Refusal :=
  .next (s.coreEvent fun s => s.handOver w collide)

/-- LINE_STATUS_WRITE (R286). -/
def execLineStatusWrite (w : Fin 8) (s : State) : Host.Outcome State Fault Refusal :=
  .next (s.coreEvent fun s => s.lineStatus w)

/-- W_STAT_CLR (R299). -/
def execWStatClr (r : Requester) (w : Fin 8) (v : Word) (s : State) : Host.Outcome State Fault Refusal :=
  .next (s.access r (rg .swStat w).off v)

/-- INLET_CLAIM (R295). -/
def execInletClaim (r : Requester) (w : Fin 8) (v : Word) (s : State) : Host.Outcome State Fault Refusal :=
  .next (s.access r (rg .swIctl w).off v)

/-- OUTLET_CLAIM (R295). -/
def execOutletClaim (r : Requester) (w : Fin 8) (v : Word) (s : State) : Host.Outcome State Fault Refusal :=
  .next (s.access r (rg .soCtl w).off v)

/-- OUTLET_START (R288). -/
def execOutletStart (r : Requester) (v : Word) (s : State) : Host.Outcome State Fault Refusal :=
  .next (s.access r (rg .sensorOstart).off v)

/-- OUTLET_ABORT (R294). -/
def execOutletAbort (r : Requester) (v : Word) (s : State) : Host.Outcome State Fault Refusal :=
  .next (s.access r (rg .sensorOstart).off v)

/-- OUTLET_DONE (R294). -/
def execOutletDone (w : Fin 8) (s : State) : Host.Outcome State Fault Refusal :=
  .next (s.coreEvent fun s => s.outDone w)

/-- RING_RPTR_WRITE (R291). -/
def execRingRptrWrite (r : Requester) (i : Fin 8) (v : Word) (s : State) : Host.Outcome State Fault Refusal :=
  .next (s.access r (rg .ringRptr i).off v)

/-- RING_STAT_CLR (R300). -/
def execRingStatClr (r : Requester) (i : Fin 8) (v : Word) (s : State) : Host.Outcome State Fault Refusal :=
  .next (s.access r (rg .ringStat i).off v)

/-- HEAD_PRESENCE_CHANGE (R529). -/
def execHeadPresenceChange (g : Fin 8) (present : HeldLevel) (s : State) : Host.Outcome State Fault Refusal :=
  .next (s.tclkEvent fun s => s.headLevel g present)

end Sys2Proof.Machine
end

