-- ==== Sys2Proof/Machine/SeqSys.lean ====
section
/-! DEFINITION. System instructions and the entries of a sequencer (05_hall_sequencers.md R128, R132, R135, R139,
07_instruction_reference.md R185, R196 to R208). -/

namespace Sys2Proof.Machine

/-! ### Entries (R128, R132, R139) -/

/-- May an asynchronous entry of sequencer h be looked at: it issues or waits in WAITEV, its clock runs, no load or handler word
is outstanding? -/
def State.entryOpen (s : State) (h : Fin 4) : Bool :=
  s.hlock && ((s.seq h).run = .running || (s.seq h).run = .waiting) && (s.seq h).load.isNone && (s.seq h).vec.isNone

/-- The interrupt level that sequencer h would accept (R128): the highest pending, with IE = 1, EXL = 0 and l ≥ PRI. -/
def State.acceptable (s : State) (h : Fin 4) : Option Nat :=
  if s.flgBit h flgIE && !s.flgBit h flgEXL then
    match s.topLevel h with
    | some l => if s.pri h ≤ l then some l else none
    | none => none
  else none

/-- At the boundary between instructions: a routine that has begun runs to its end, one that has not is dropped and issues
again after the return (R128). ATOM does not hold an entry while its instruction has not begun (DEDUCED, log entry 88). -/
def State.toBoundary (s : State) (h : Fin 4) : State :=
  match (s.seq h).routine with
  | none => s
  | some r => if r.begun || !r.first then s.runRoutineTo h none else s.setRoutine h none

/-- Is an ordinary asynchronous entry due now: no #TR stands before it, and ATOM holds nothing back (R132, R139)? -/
def State.atEntry (s : State) (h : Fin 4) : Bool :=
  s.entryOpen h && !s.flgBit h flgTP && !(s.seq h).atomRep && (s.seq h).routine.isNone

/-- INTERRUPT_ENTRY: an ordinary entry of the highest acceptable level; #WD stands before it (R132). -/
def State.interruptEntry (s : State) (h : Fin 4) : State :=
  if !s.entryOpen h then s
  else
    let t := s.toBoundary h
    if !t.atEntry h || (t.seq h).wdPend then t
    else match t.acceptable h with
      | some l => t.enter h (16 + l) (t.seq h).pc false 0 none
      | none => s

/-- Entry to #WD, once for each warning. -/
def State.enterWd (s : State) (h : Fin 4) : State :=
  (s.modSeq h fun q => { q with wdPend := false }).enter h vecWD (s.seq h).pc false 0 none

/-- WATCHDOG_ENTRY: #WD as an ordinary entry. -/
def State.watchdogEntry (s : State) (h : Fin 4) : State :=
  if !s.entryOpen h || !(s.seq h).wdPend then s
  else
    let t := s.toBoundary h
    if !t.atEntry h then t else t.enterWd h

/-- The vector of the asynchronous entry that comes first: #WD, then the highest level (R132). -/
def State.asyncVector (s : State) (h : Fin 4) : Option Nat :=
  if (s.seq h).wdPend then some vecWD else (s.acceptable h).map (16 + ·)

/-- A micro-trap into a vector; #WD is then taken. -/
def State.microEntry (s : State) (h : Fin 4) (v : Nat) : State :=
  (if v = vecWD then s.modSeq h fun q => { q with wdPend := false } else s).microTrapTo h v

/-- MICRO_TRAP: the routine of sequencer h stops at its boundary (R128, R135, R138). A #TR that waits for the end of a routine
which RETI has resumed does not stand in its way (DEDUCED, log entry 89). -/
def State.microTrap (s : State) (h : Fin 4) : State :=
  let atom := match (s.seq h).routine with
    | some r => r.atom && !r.atomOver
    | none => false
  if !s.entryOpen h || !s.canMicroTrap h || atom then s
  else match s.asyncVector h with
    | some v => s.microEntry h v
    | none => s

/-- TRACE_ENTRY: #TR at the boundary after an instruction begun with TE = 1 (R132, R133); with a routine that RETI has resumed
in progress, that boundary is the routine's end (DEDUCED, log entry 89). -/
def State.traceEntry (s : State) (h : Fin 4) : State :=
  if s.entryOpen h && s.flgBit h flgTP && (s.seq h).routine.isNone then s.enter h vecTR (s.seq h).pc false 0 none else s

/-- ATOM_LIMIT: the entry that ATOM has held for 4,096 ACLK is taken as without ATOM, and counted (R139). -/
def State.atomLimit (s : State) (h : Fin 4) : State :=
  if !s.entryOpen h then s
  else match s.asyncVector h with
    | none => s
    | some v =>
      let count (s : State) : State := s.modSeq h fun q => { q with atomx := satAdd q.atomx 1 255 }
      match (s.seq h).routine with
      | some r =>
        if !r.atom || r.atomOver then s
        else
          let s := (count s).setRoutine h (some { r with atomOver := true })
          if s.canMicroTrap h then s.microEntry h v
          else if v = vecWD then s.watchdogEntry h else s.interruptEntry h
      | none =>
        if !(s.seq h).atomRep then s
        else
          let s := (count s).modSeq h fun q => { q with atomRep := false }
          if v = vecWD then s.watchdogEntry h else s.interruptEntry h

/-- INTERRUPT_ENTRY (R128). -/
def execInterruptEntry (h : Fin 4) (s : State) : Host.Outcome State Fault Refusal := .next (s.event fun s => s.interruptEntry h)
/-- MICRO_TRAP (R135). -/
def execMicroTrap (h : Fin 4) (s : State) : Host.Outcome State Fault Refusal := .next (s.event fun s => s.microTrap h)
/-- WATCHDOG_ENTRY (R128, R468). -/
def execWatchdogEntry (h : Fin 4) (s : State) : Host.Outcome State Fault Refusal := .next (s.event fun s => s.watchdogEntry h)
/-- TRACE_ENTRY (R132, R133). -/
def execTraceEntry (h : Fin 4) (s : State) : Host.Outcome State Fault Refusal := .next (s.event fun s => s.traceEntry h)
/-- ATOM_LIMIT (R139). -/
def execAtomLimit (h : Fin 4) (s : State) : Host.Outcome State Fault Refusal := .next (s.event fun s => s.atomLimit h)

/-- NOP of a sequencer (R185) or of a porch channel (R315). -/
def execNop (site : NopSite) (s : State) : Host.Outcome State Fault Refusal :=
  match site with
  | .seq iss => .next (s.issue iss { len := 1 } fun s => .done s).settle
  | .porch n => .next (s.coreEvent fun s => s.porchRun n 0 12)

/-! ### Page 4 (R196 to R208) -/

/-- Shapes of page 4 (R156). -/
def p4r : Shape := { page := 4, len := 4 }
def p4z : Shape := { page := 4, len := 2 }

/-- Z written. -/
def State.setZ (s : State) (h : Fin 4) (v : Bool) : State := s.setFlg h flgZ v

/-- What a WAITEV leaves: the hit latches in Gd and cleared, and Z (R200). -/
def State.waitResult (s : State) (h : Fin 4) (d : Fin 16) (v : Word) (z : Bool) : State :=
  ((s.modSeq h fun q => { q with ev := q.ev &&& ~~~v }).setG h d v).setZ h z

/-- WAITEV's first pass, at issue (R200): a selected latch that is set ends it, and so does Gb = 0; otherwise STATE is 0b10
until WAITEV_HIT or WAITEV_TIMEOUT. -/
def execWaitev (iss : Issue) (d a b : Fin 16) (s : State) : Host.Outcome State Fault Refusal :=
  .next (s.issue iss p4r fun s =>
    let h := iss.h
    let hit := (s.seq h).ev &&& s.gr h a
    if hit ≠ 0 then .done (s.waitResult h d hit false)
    else if s.gr h b = 0 then .done (s.waitResult h d 0 true)
    else .wait (s.modSeq h fun q =>
      let w : EvWait := { d, mask := q.g[a], limit := q.g[b], next := q.pc + BitVec.ofNat 32 (instrLen iss p4r), te := bit q.flg flgTE }
      { q with run := .waiting, wait := some w })).settle

/-- The end of a WAITEV with a result. -/
def State.waitEnd (s : State) (h : Fin 4) (w : EvWait) (v : Word) (z : Bool) : State :=
  ((s.modSeq h fun q => { q with run := .running, wait := none }).waitResult h w.d v z).complete h w.te w.next

/-- WAITEV_HIT: a selected latch is set (R200). -/
def execWaitevHit (h : Fin 4) (s : State) : Host.Outcome State Fault Refusal :=
  .next (s.coreEvent fun s => match (s.seq h).wait with
    | some w =>
      let hit := (s.seq h).ev &&& w.mask
      if (s.seq h).run = .waiting && hit ≠ 0 then s.waitEnd h w hit false else s
    | none => s)

/-- WAITEV_TIMEOUT: Gb ACLK have passed with no selected latch set (R200). -/
def execWaitevTimeout (h : Fin 4) (s : State) : Host.Outcome State Fault Refusal :=
  .next (s.coreEvent fun s => match (s.seq h).wait with
    | some w =>
      if (s.seq h).run = .waiting && (s.seq h).ev &&& w.mask = 0 && w.limit ≠ 0xFFFFFFFF then s.waitEnd h w 0 true else s
    | none => s)

/-- SETEV (R202). -/
def execSetev (iss : Issue) (a : Fin 16) (s : State) : Host.Outcome State Fault Refusal :=
  .next (s.issue iss p4r fun s =>
    let v := s.gr iss.h a
    .done (s.modSeq (Fin.ofNat 4 (bits v 8 2)) fun q => { q with ev := q.ev ||| (1#32 <<< bits v 0 5) })).settle

/-- EMITEV (R203): Z tells whether the EVENT was queued; it waits while the queue is full. -/
def execEmitev (iss : Issue) (a b : Fin 16) (s : State) : Host.Outcome State Fault Refusal :=
  .next (s.issue iss p4r fun s =>
    let h := iss.h
    if !(List.finRange 6).any s.joined then .done (s.setZ h false)
    else if 4 ≤ (s.seq h).evq.length then .wait s
    else .done ((s.modSeq h fun q => { q with evq := q.evq ++ [((q.g[a]).setWidth 16, q.g[b])] }).setZ h true)).settle

/-- LARM (R204). -/
def execLarm (iss : Issue) (a b c : Fin 16) (s : State) : Host.Outcome State Fault Refusal :=
  .next (s.issue iss p4r fun s =>
    let h := iss.h
    let i : Fin 256 := Fin.ofNat 256 (s.gr h a).toNat
    let tick := (s.gr h b).toNat + 2 ^ 32 * (s.gr h c).toNat
    let owner := s.getF (rg .leCtl i) F.leCtl_OWNER
    if owner ≠ 0 && owner ≠ h.val + 1 then .done ((s.mantelRefuse i h false 0).setZ h false)
    else
      let s := s.setF (rg .leCtl i) F.leCtl_OWNER (h.val + 1)
      let s := if s.getF (rg .leCtl i) F.leCtl_MODE = 0 then (s.setReg (rg .leTlo i) (s.gr h b)).setReg (rg .leThi i) (s.gr h c)
        else s
      .done ((s.arm i tick).setZ h true)).settle

/-- LSTOP (R205). The edge at which it disarms is the one of the count as it stands: a firing due then takes place first, behind
those of the lower entries (R379). -/
def execLstop (iss : Issue) (a : Fin 16) (s : State) : Host.Outcome State Fault Refusal :=
  .next (s.issue iss p4r fun s =>
    let h := iss.h
    let i : Fin 256 := Fin.ofNat 256 (s.gr h a).toNat
    if (s.armedOf i).isSome && s.getF (rg .leCtl i) F.leCtl_OWNER = h.val + 1 then
      .done ((s.disarmEntry i id).setZ h true)
    else .done (s.setZ h false)).settle

/-- TICK (R206): the high word is written last. -/
def execTick (iss : Issue) (d a : Fin 16) (s : State) : Host.Outcome State Fault Refusal :=
  .next (s.issue iss p4r fun s =>
    .done ((s.setG iss.h d (s.count.setWidth 32)).setG iss.h a ((s.count >>> 32).setWidth 32))).settle

/-- WGIVE (R207): it waits for the lane pipeline and captures, and for earlier writes of the ownership registers (R55). -/
def execWgive (iss : Issue) (a b : Fin 16) (s : State) : Host.Outcome State Fault Refusal :=
  .next (s.issue iss p4r fun s =>
    let h := iss.h
    let w := bits (s.gr h a) 0 3
    let n := bits (s.gr h b) 0 2
    if s.arrayWaits h then .wait s
    else
      let s := (s.drainLanes h).completeCaptures h
      let s := s.wownApply h (setBits (s.reg (rg .arrayWown)) (2 * w) 2 n)
      if s.wingOwner w = n then
        .done ((if n = h.val then s else s.modSeq h fun q => { q with wm := setBits q.wm w 1 0 }).setZ h true)
      else .done (s.setZ h false)).settle

/-- Is every buffered write of h performed, every remote write acknowledged and every write of ARRAY_WOWN, ARRAY_BOUND and
ARRAY_TOPO in its register (R55, R208)? -/
def State.writesDone (s : State) (h : Fin 4) : Bool :=
  (s.seq h).wbuf.isEmpty && (s.seq h).unacked = 0 && (s.seq h).arrWrites.isEmpty

/-- The barrier of writes: the buffer performs what it holds; the barrier waits for what is left. -/
def writeBarrier (h : Fin 4) (s : State) : Body :=
  let s := (s.performN h 8).freeSent h
  if s.writesDone h then .done s else .wait s

/-- MBR (R208): loads block, so nothing is left to wait for. -/
def execMbr (iss : Issue) (s : State) : Host.Outcome State Fault Refusal :=
  .next (s.issue iss p4z fun s => .done s).settle

/-- MBW (R208). -/
def execMbw (iss : Issue) (s : State) : Host.Outcome State Fault Refusal := .next (s.issue iss p4z (writeBarrier iss.h)).settle

/-- MBF (R208). -/
def execMbf (iss : Issue) (s : State) : Host.Outcome State Fault Refusal := .next (s.issue iss p4z (writeBarrier iss.h)).settle

/-- MBA (R208): the lane pipeline empties and the captures complete. -/
def execMba (iss : Issue) (s : State) : Host.Outcome State Fault Refusal :=
  .next (s.issue iss p4z fun s => .done ((s.drainLanes iss.h).completeCaptures iss.h)).settle

end Sys2Proof.Machine
end

