-- ==== Sys2Proof/Machine/Dispatch.lean ====
section
/-! DEFINITION. One arm per command: each a direct call of its meaning. -/

namespace Sys2Proof.Machine

def exec (i : Instr) (s : State) : Host.Outcome State Fault Refusal :=
  match i with
  | .registerWrite r off v => Sys2Proof.Machine.execRegisterWrite r off v s
  | .add iss d b => Sys2Proof.Machine.execAdd iss d b s
  | .sub iss d b => Sys2Proof.Machine.execSub iss d b s
  | .and iss d b => Sys2Proof.Machine.execAnd iss d b s
  | .or iss d b => Sys2Proof.Machine.execOr iss d b s
  | .xor iss d b => Sys2Proof.Machine.execXor iss d b s
  | .cmp iss d b => Sys2Proof.Machine.execCmp iss d b s
  | .mov iss d b => Sys2Proof.Machine.execMov iss d b s
  | .shl iss d b => Sys2Proof.Machine.execShl iss d b s
  | .shr iss d b => Sys2Proof.Machine.execShr iss d b s
  | .sar iss d b => Sys2Proof.Machine.execSar iss d b s
  | .ror iss d b => Sys2Proof.Machine.execRor iss d b s
  | .mul iss d b => Sys2Proof.Machine.execMul iss d b s
  | .mulhu iss d b => Sys2Proof.Machine.execMulhu iss d b s
  | .mulhs iss d b => Sys2Proof.Machine.execMulhs iss d b s
  | .divu iss d b => Sys2Proof.Machine.execDivu iss d b s
  | .divs iss d b => Sys2Proof.Machine.execDivs iss d b s
  | .remu iss d b => Sys2Proof.Machine.execRemu iss d b s
  | .rems iss d b => Sys2Proof.Machine.execRems iss d b s
  | .addi iss d sz imm => Sys2Proof.Machine.execAddi iss d sz imm s
  | .subi iss d sz imm => Sys2Proof.Machine.execSubi iss d sz imm s
  | .andi iss d sz imm => Sys2Proof.Machine.execAndi iss d sz imm s
  | .ori iss d sz imm => Sys2Proof.Machine.execOri iss d sz imm s
  | .xori iss d sz imm => Sys2Proof.Machine.execXori iss d sz imm s
  | .cmpi iss d sz imm => Sys2Proof.Machine.execCmpi iss d sz imm s
  | .movi iss d sz imm => Sys2Proof.Machine.execMovi iss d sz imm s
  | .shli iss d sz imm => Sys2Proof.Machine.execShli iss d sz imm s
  | .shri iss d sz imm => Sys2Proof.Machine.execShri iss d sz imm s
  | .sari iss d sz imm => Sys2Proof.Machine.execSari iss d sz imm s
  | .rori iss d sz imm => Sys2Proof.Machine.execRori iss d sz imm s
  | .muli iss d sz imm => Sys2Proof.Machine.execMuli iss d sz imm s
  | .ld iss d sz m => Sys2Proof.Machine.execLd iss d sz m s
  | .st iss d sz m => Sys2Proof.Machine.execSt iss d sz m s
  | .bufferedWritePerform h => Sys2Proof.Machine.execBufferedWritePerform h s
  | .bcc iss long disp cond => Sys2Proof.Machine.execBcc iss long disp cond s
  | .call iss disp => Sys2Proof.Machine.execCall iss disp s
  | .jmp iss b => Sys2Proof.Machine.execJmp iss b s
  | .callr iss b => Sys2Proof.Machine.execCallr iss b s
  | .ret iss => Sys2Proof.Machine.execRet iss s
  | .reti iss => Sys2Proof.Machine.execReti iss s
  | .sc iss imm => Sys2Proof.Machine.execSc iss imm s
  | .nop site => Sys2Proof.Machine.execNop site s
  | .mfs iss d n => Sys2Proof.Machine.execMfs iss d n s
  | .mts iss n b => Sys2Proof.Machine.execMts iss n b s
  | .pset iss k base stride => Sys2Proof.Machine.execPset iss k base stride s
  | .paddi iss k imm => Sys2Proof.Machine.execPaddi iss k imm s
  | .padd iss k b => Sys2Proof.Machine.execPadd iss k b s
  | .mfp iss d k => Sys2Proof.Machine.execMfp iss d k s
  | .mtp iss k b => Sys2Proof.Machine.execMtp iss k b s
  | .interruptEntry h => Sys2Proof.Machine.execInterruptEntry h s
  | .microTrap h => Sys2Proof.Machine.execMicroTrap h s
  | .watchdogEntry h => Sys2Proof.Machine.execWatchdogEntry h s
  | .traceEntry h => Sys2Proof.Machine.execTraceEntry h s
  | .atomLimit h => Sys2Proof.Machine.execAtomLimit h s
  | .aadd iss a => Sys2Proof.Machine.execAadd iss a s
  | .aaddi iss a => Sys2Proof.Machine.execAaddi iss a s
  | .asub iss a => Sys2Proof.Machine.execAsub iss a s
  | .asubi iss a => Sys2Proof.Machine.execAsubi iss a s
  | .amul iss a => Sys2Proof.Machine.execAmul iss a s
  | .acmp iss a => Sys2Proof.Machine.execAcmp iss a s
  | .acmpi iss a => Sys2Proof.Machine.execAcmpi iss a s
  | .asel iss a => Sys2Proof.Machine.execAsel iss a s
  | .aset iss a => Sys2Proof.Machine.execAset iss a s
  | .alog iss tt a => Sys2Proof.Machine.execAlog iss tt a s
  | .abit iss tt a => Sys2Proof.Machine.execAbit iss tt a s
  | .ashf iss dir a => Sys2Proof.Machine.execAshf iss dir a s
  | .acnt iss a => Sys2Proof.Machine.execAcnt iss a s
  | .aloc iss a => Sys2Proof.Machine.execAloc iss a s
  | .chimneyResult h => Sys2Proof.Machine.execChimneyResult h s
  | .ladd iss half a => Sys2Proof.Machine.execLadd iss half a s
  | .lsub iss half a => Sys2Proof.Machine.execLsub iss half a s
  | .lmul iss half a => Sys2Proof.Machine.execLmul iss half a s
  | .lmulf iss signed half a => Sys2Proof.Machine.execLmulf iss signed half a s
  | .lmin iss signed half a => Sys2Proof.Machine.execLmin iss signed half a s
  | .lmax iss signed half a => Sys2Proof.Machine.execLmax iss signed half a s
  | .lfadd iss a => Sys2Proof.Machine.execLfadd iss a s
  | .lfsub iss a => Sys2Proof.Machine.execLfsub iss a s
  | .lfmul iss a => Sys2Proof.Machine.execLfmul iss a s
  | .lfma iss a => Sys2Proof.Machine.execLfma iss a s
  | .lfmin iss a => Sys2Proof.Machine.execLfmin iss a s
  | .lfmax iss a => Sys2Proof.Machine.execLfmax iss a s
  | .lfcmp iss cc a => Sys2Proof.Machine.execLfcmp iss cc a s
  | .lfrcp iss a => Sys2Proof.Machine.execLfrcp iss a s
  | .lfcvtFi iss a => Sys2Proof.Machine.execLfcvtFi iss a s
  | .lfcvtIf iss a => Sys2Proof.Machine.execLfcvtIf iss a s
  | .laneStoreStage h => Sys2Proof.Machine.execLaneStoreStage h s
  | .fadd iss d a b => Sys2Proof.Machine.execFadd iss d a b s
  | .fsub iss d a b => Sys2Proof.Machine.execFsub iss d a b s
  | .fmul iss d a b => Sys2Proof.Machine.execFmul iss d a b s
  | .fma iss d a b c => Sys2Proof.Machine.execFma iss d a b c s
  | .fmin iss d a b => Sys2Proof.Machine.execFmin iss d a b s
  | .fmax iss d a b => Sys2Proof.Machine.execFmax iss d a b s
  | .frcp iss d a => Sys2Proof.Machine.execFrcp iss d a s
  | .fcvtFi iss d a => Sys2Proof.Machine.execFcvtFi iss d a s
  | .fcvtIf iss d a => Sys2Proof.Machine.execFcvtIf iss d a s
  | .fmov iss d a => Sys2Proof.Machine.execFmov iss d a s
  | .fneg iss d a => Sys2Proof.Machine.execFneg iss d a s
  | .fabs iss d a => Sys2Proof.Machine.execFabs iss d a s
  | .fmvgf iss d a => Sys2Proof.Machine.execFmvgf iss d a s
  | .fmvfg iss d a => Sys2Proof.Machine.execFmvfg iss d a s
  | .fcmp iss cc d a b => Sys2Proof.Machine.execFcmp iss cc d a b s
  | .fld iss d sz m => Sys2Proof.Machine.execFld iss d sz m s
  | .fst iss d sz m => Sys2Proof.Machine.execFst iss d sz m s
  | .waitev iss d a b => Sys2Proof.Machine.execWaitev iss d a b s
  | .waitevHit h => Sys2Proof.Machine.execWaitevHit h s
  | .waitevTimeout h => Sys2Proof.Machine.execWaitevTimeout h s
  | .setev iss a => Sys2Proof.Machine.execSetev iss a s
  | .emitev iss a b => Sys2Proof.Machine.execEmitev iss a b s
  | .larm iss a b c => Sys2Proof.Machine.execLarm iss a b c s
  | .lstop iss a => Sys2Proof.Machine.execLstop iss a s
  | .tick iss d a => Sys2Proof.Machine.execTick iss d a s
  | .wgive iss a b => Sys2Proof.Machine.execWgive iss a b s
  | .mbr iss => Sys2Proof.Machine.execMbr iss s
  | .mbw iss => Sys2Proof.Machine.execMbw iss s
  | .mbf iss => Sys2Proof.Machine.execMbf iss s
  | .mba iss => Sys2Proof.Machine.execMba iss s
  | .sysSeqEvl r h v => Sys2Proof.Machine.execSysSeqEvl r h v s
  | .sysSeqEvc r h v => Sys2Proof.Machine.execSysSeqEvc r h v s
  | .atomclr r h v => Sys2Proof.Machine.execAtomclr r h v s
  | .arrayWownWrite r v => Sys2Proof.Machine.execArrayWownWrite r v s
  | .arrayBoundWrite r v => Sys2Proof.Machine.execArrayBoundWrite r v s
  | .arrayTopoWrite r v => Sys2Proof.Machine.execArrayTopoWrite r v s
  | .arrayWriteTakesEffect h => Sys2Proof.Machine.execArrayWriteTakesEffect h s
  | .perrValidClear r w v => Sys2Proof.Machine.execPerrValidClear r w v s
  | .hperrClear r v => Sys2Proof.Machine.execHperrClear r v s
  | .clrcnt r v => Sys2Proof.Machine.execClrcnt r v s
  | .colcntClr r w v => Sys2Proof.Machine.execColcntClr r w v s
  | .wingClear w => Sys2Proof.Machine.execWingClear w s
  | .mcLoadGo r v => Sys2Proof.Machine.execMcLoadGo r v s
  | .mcLoadEnd => Sys2Proof.Machine.execMcLoadEnd s
  | .ilvChange => Sys2Proof.Machine.execIlvChange s
  | .bankPowerRequest r half v => Sys2Proof.Machine.execBankPowerRequest r half v s
  | .bankPowerDown b => Sys2Proof.Machine.execBankPowerDown b s
  | .bankWakeEnd b => Sys2Proof.Machine.execBankWakeEnd b s
  | .starvation cls b => Sys2Proof.Machine.execStarvation cls b s
  | .cellarEccClr r v => Sys2Proof.Machine.execCellarEccClr r v s
  | .clrhigh r v => Sys2Proof.Machine.execClrhigh r v s
  | .dmaClaim r c v => Sys2Proof.Machine.execDmaClaim r c v s
  | .dmaStart r c v => Sys2Proof.Machine.execDmaStart r c v s
  | .dmaAbort r c v => Sys2Proof.Machine.execDmaAbort r c v s
  | .dmaDescriptorComplete c lost => Sys2Proof.Machine.execDmaDescriptorComplete c lost s
  | .dmaTimeout c => Sys2Proof.Machine.execDmaTimeout c s
  | .planisherWindow cut fail => Sys2Proof.Machine.execPlanisherWindow cut fail s
  | .traingo r g v => Sys2Proof.Machine.execTraingo r g v s
  | .trainingEnd g lock clean seen => Sys2Proof.Machine.execTrainingEnd g lock clean seen s
  | .lossOfLock g words => Sys2Proof.Machine.execLossOfLock g words s
  | .solPreamble g words last => Sys2Proof.Machine.execSolPreamble g words last s
  | .eolPreamble g words => Sys2Proof.Machine.execEolPreamble g words s
  | .lineStartMark r w v => Sys2Proof.Machine.execLineStartMark r w v s
  | .lineNextWrite r w v => Sys2Proof.Machine.execLineNextWrite r w v s
  | .handOver w collide => Sys2Proof.Machine.execHandOver w collide s
  | .lineStatusWrite w => Sys2Proof.Machine.execLineStatusWrite w s
  | .wStatClr r w v => Sys2Proof.Machine.execWStatClr r w v s
  | .inletClaim r w v => Sys2Proof.Machine.execInletClaim r w v s
  | .outletClaim r w v => Sys2Proof.Machine.execOutletClaim r w v s
  | .outletStart r v => Sys2Proof.Machine.execOutletStart r v s
  | .outletAbort r v => Sys2Proof.Machine.execOutletAbort r v s
  | .outletDone w => Sys2Proof.Machine.execOutletDone w s
  | .ringRptrWrite r k v => Sys2Proof.Machine.execRingRptrWrite r k v s
  | .ringStatClr r k v => Sys2Proof.Machine.execRingStatClr r k v s
  | .headPresenceChange g present => Sys2Proof.Machine.execHeadPresenceChange g present s
  | .br n pads => Sys2Proof.Machine.execBr n pads s
  | .brr n => Sys2Proof.Machine.execBrr n s
  | .wait n pads => Sys2Proof.Machine.execWait n pads s
  | .waitTimeout n pads => Sys2Proof.Machine.execWaitTimeout n pads s
  | .sho n => Sys2Proof.Machine.execSho n s
  | .shi n pads => Sys2Proof.Machine.execShi n pads s
  | .shx n pads => Sys2Proof.Machine.execShx n pads s
  | .pull n => Sys2Proof.Machine.execPull n s
  | .push n => Sys2Proof.Machine.execPush n s
  | .alu n pads => Sys2Proof.Machine.execAlu n pads s
  | .ldi n => Sys2Proof.Machine.execLdi n s
  | .sig n => Sys2Proof.Machine.execSig n s
  | .gate n => Sys2Proof.Machine.execGate n s
  | .halt n => Sys2Proof.Machine.execHalt n s
  | .porchChannelClaim r n v => Sys2Proof.Machine.execPorchChannelClaim r n v s
  | .porchEngineClaim r e v => Sys2Proof.Machine.execPorchEngineClaim r e v s
  | .porchEnable r n v => Sys2Proof.Machine.execPorchEnable r n v s
  | .porchDisable r n v => Sys2Proof.Machine.execPorchDisable r n v s
  | .restart r n v => Sys2Proof.Machine.execRestart r n v s
  | .porchSync r v => Sys2Proof.Machine.execPorchSync r v s
  | .porchTxf r n v => Sys2Proof.Machine.execPorchTxf r n v s
  | .porchRxf r n => Sys2Proof.Machine.execPorchRxf r n s
  | .porchInject r n v => Sys2Proof.Machine.execPorchInject r n v s
  | .injectionExecute n pads => Sys2Proof.Machine.execInjectionExecute n pads s
  | .porchEvt r n v => Sys2Proof.Machine.execPorchEvt r n v s
  | .flush r n v => Sys2Proof.Machine.execFlush r n v s
  | .chExecPcWrite r n v => Sys2Proof.Machine.execChExecPcWrite r n v s
  | .annexPortClaim r v => Sys2Proof.Machine.execAnnexPortClaim r v s
  | .annexOpen => Sys2Proof.Machine.execAnnexOpen s
  | .frameClearEnd => Sys2Proof.Machine.execFrameClearEnd s
  | .annexWrite => Sys2Proof.Machine.execAnnexWrite s
  | .annexRead edges => Sys2Proof.Machine.execAnnexRead edges s
  | .commit => Sys2Proof.Machine.execCommit s
  | .annexAbort => Sys2Proof.Machine.execAnnexAbort s
  | .annexCapture edges => Sys2Proof.Machine.execAnnexCapture edges s
  | .annexNop => Sys2Proof.Machine.execAnnexNop s
  | .cfgRdataRead r => Sys2Proof.Machine.execCfgRdataRead r s
  | .resync r v => Sys2Proof.Machine.execResync r v s
  | .annexImageLoad r v => Sys2Proof.Machine.execAnnexImageLoad r v s
  | .annexImageLoadEnd => Sys2Proof.Machine.execAnnexImageLoadEnd s
  | .annexWindowRequest => Sys2Proof.Machine.execAnnexWindowRequest s
  | .annexWindowAnswer g data late irq => Sys2Proof.Machine.execAnnexWindowAnswer g data late irq s
  | .annexWindowTimeout g => Sys2Proof.Machine.execAnnexWindowTimeout g s
  | .wstatClr r v => Sys2Proof.Machine.execWstatClr r v s
  | .step r v => Sys2Proof.Machine.execStep r v s
  | .syncTimeout => Sys2Proof.Machine.execSyncTimeout s
  | .countLowRead r pair => Sys2Proof.Machine.execCountLowRead r pair s
  | .arm r k v => Sys2Proof.Machine.execArm r k v s
  | .disarm r k v => Sys2Proof.Machine.execDisarm r k v s
  | .launchFire k => Sys2Proof.Machine.execLaunchFire k s
  | .pulseEnd k => Sys2Proof.Machine.execPulseEnd k s
  | .mantelClaimWrite r res v => Sys2Proof.Machine.execMantelClaimWrite r res v s
  | .gstop r v => Sys2Proof.Machine.execGstop r v s
  | .encoderEdge e a b => Sys2Proof.Machine.execEncoderEdge e a b s
  | .encoderZ e samples => Sys2Proof.Machine.execEncoderZ e samples s
  | .smoothedLineEvent e up => Sys2Proof.Machine.execSmoothedLineEvent e up s
  | .lineClockStall e => Sys2Proof.Machine.execLineClockStall e s
  | .portEnable r k v => Sys2Proof.Machine.execPortEnable r k v s
  | .trainingRetry k => Sys2Proof.Machine.execTrainingRetry k s
  | .portDown k => Sys2Proof.Machine.execPortDown k s
  | .retrain r k v => Sys2Proof.Machine.execRetrain r k v s
  | .hello f peer id idv join => Sys2Proof.Machine.execHello f peer id idv join s
  | .dlyreq f => Sys2Proof.Machine.execDlyreq f s
  | .dlyrsp f turn own => Sys2Proof.Machine.execDlyrsp f turn own s
  | .dlygo r k v => Sys2Proof.Machine.execDlygo r k v s
  | .syncFrame f count frac own => Sys2Proof.Machine.execSyncFrame f count frac own s
  | .syncSend => Sys2Proof.Machine.execSyncSend s
  | .nak k b => Sys2Proof.Machine.execNak k b s
  | .replayTimeout k => Sys2Proof.Machine.execReplayTimeout k s
  | .bulkRead f tag len addr => Sys2Proof.Machine.execBulkRead f tag len addr s
  | .bulkWrite f tag len addr data lost => Sys2Proof.Machine.execBulkWrite f tag len addr data lost s
  | .rdrsp f tag status data => Sys2Proof.Machine.execRdrsp f tag status data s
  | .wrrsp f tag status => Sys2Proof.Machine.execWrrsp f tag status s
  | .attest f tag req => Sys2Proof.Machine.execAttest f tag req s
  | .attrsp f tag status off data => Sys2Proof.Machine.execAttrsp f tag status off data s
  | .bulkTimeout tag => Sys2Proof.Machine.execBulkTimeout tag s
  | .notReadyReissue tag => Sys2Proof.Machine.execNotReadyReissue tag s
  | .managementAccess r v => Sys2Proof.Machine.execManagementAccess r v s
  | .userEvent ev => Sys2Proof.Machine.execUserEvent ev s
  | .distress ev => Sys2Proof.Machine.execDistress ev s
  | .schimUp ev => Sys2Proof.Machine.execSchimUp ev s
  | .schimDown ev => Sys2Proof.Machine.execSchimDown ev s
  | .schimIn r v => Sys2Proof.Machine.execSchimIn r v s
  | .schimTimeout => Sys2Proof.Machine.execSchimTimeout s
  | .eventQueuePop r => Sys2Proof.Machine.execEventQueuePop r s
  | .evstatClr r v => Sys2Proof.Machine.execEvstatClr r v s
  | .seamEngineClaim r v => Sys2Proof.Machine.execSeamEngineClaim r v s
  | .remoteWindowClaim r m v => Sys2Proof.Machine.execRemoteWindowClaim r m v s
  | .seamExchange r v => Sys2Proof.Machine.execSeamExchange r v s
  | .seamFrame f plane east planes collide => Sys2Proof.Machine.execSeamFrame f plane east planes collide s
  | .pErrClr r k v => Sys2Proof.Machine.execPErrClr r k v s
  | .pcieConfigRequest q early => Sys2Proof.Machine.execPcieConfigRequest q early s
  | .hotReset => Sys2Proof.Machine.execHotReset s
  | .pcieInboundRead bar off size => Sys2Proof.Machine.execPcieInboundRead bar off size s
  | .pcieInboundWrite bar off data lost => Sys2Proof.Machine.execPcieInboundWrite bar off data lost s
  | .pcieCompletion tag st data => Sys2Proof.Machine.execPcieCompletion tag st data s
  | .pcieOutboundTimeout tag => Sys2Proof.Machine.execPcieOutboundTimeout tag s
  | .hdbSet r v => Sys2Proof.Machine.execHdbSet r v s
  | .take r v => Sys2Proof.Machine.execTake r v s
  | .pcieAttctlGo r v => Sys2Proof.Machine.execPcieAttctlGo r v s
  | .claim r h => Sys2Proof.Machine.execClaim r h s
  | .complete r h v => Sys2Proof.Machine.execComplete r h v s
  | .lodgeCmd r v => Sys2Proof.Machine.execLodgeCmd r v s
  | .powerFailing => Sys2Proof.Machine.execPowerFailing s
  | .hearthPllLost => Sys2Proof.Machine.execHearthPllLost s
  | .hearthPllRelock => Sys2Proof.Machine.execHearthPllRelock s
  | .thermalTrip t => Sys2Proof.Machine.execThermalTrip t s
  | .thermalWarn t => Sys2Proof.Machine.execThermalWarn t s
  | .faultRecord => Sys2Proof.Machine.execFaultRecord s
  | .release r v => Sys2Proof.Machine.execRelease r v s
  | .frel r v => Sys2Proof.Machine.execFrel r v s
  | .watchdogKick r h v => Sys2Proof.Machine.execWatchdogKick r h v s
  | .watchdogWarn h => Sys2Proof.Machine.execWatchdogWarn h s
  | .watchdogExpire h => Sys2Proof.Machine.execWatchdogExpire h s
  | .sscApply => Sys2Proof.Machine.execSscApply s
  | .idleRequest r v => Sys2Proof.Machine.execIdleRequest r v s
  | .idleEnter => Sys2Proof.Machine.execIdleEnter s
  | .deepEnter r v => Sys2Proof.Machine.execDeepEnter r v s
  | .deepWake => Sys2Proof.Machine.execDeepWake s
  | .wingPowerWrite r v => Sys2Proof.Machine.execWingPowerWrite r v s
  | .coldPowerUp sel => Sys2Proof.Machine.execColdPowerUp sel s
  | .warmReset pin => Sys2Proof.Machine.execWarmReset pin s
  | .resetRelease sel => Sys2Proof.Machine.execResetRelease sel s
  | .bootPush r v => Sys2Proof.Machine.execBootPush r v s
  | .sysSeqrel r v => Sys2Proof.Machine.execSysSeqrel r v s
  | .advance r v => Sys2Proof.Machine.execAdvance r v s
  | .revoke r v => Sys2Proof.Machine.execRevoke r v s
  | .program r v => Sys2Proof.Machine.execProgram r v s
  | .otpDone ok => Sys2Proof.Machine.execOtpDone ok s
  | .extend r v => Sys2Proof.Machine.execExtend r v s
  | .attCtlGo r v => Sys2Proof.Machine.execAttCtlGo r v s
  | .quoteDone => Sys2Proof.Machine.execQuoteDone s
  | .attestTimeout tag => Sys2Proof.Machine.execAttestTimeout tag s
  | .bspiTransaction r v => Sys2Proof.Machine.execBspiTransaction r v s
  | .bspiDone data => Sys2Proof.Machine.execBspiDone data s
  | .pinClaim r k v => Sys2Proof.Machine.execPinClaim r k v s
  | .pinCtlWrite r k v => Sys2Proof.Machine.execPinCtlWrite r k v s
  | .bankSupplyChange b level => Sys2Proof.Machine.execBankSupplyChange b level s
  | .porNLow => Sys2Proof.Machine.execPorNLow s
  | .holdupNHigh => Sys2Proof.Machine.execHoldupNHigh s
  | .idleBlock k lane run b => Sys2Proof.Machine.execIdleBlock k lane run b s
  | .seamExchangeDone => Sys2Proof.Machine.execSeamExchangeDone s
  | .extensionEnd => Sys2Proof.Machine.execExtensionEnd s
  | .pcieLinkStateChange rate width up l1 => Sys2Proof.Machine.execPcieLinkStateChange rate width up l1 s
  | .dwellOpportunity n => Sys2Proof.Machine.execDwellOpportunity n s

end Sys2Proof.Machine
end

