-- ==== Sys2Proof/Machine/Cards.lean ====
section
/-! DEFINITION. Head cards and the ledger as the boot ROM checks them (19_heads_and_ledger.md R528 to R542). -/

namespace Sys2Proof.Machine

/-! ### Head cards (R531, R534) -/

/-- A text field: ASCII 0x20 to 0x7E, padded with 0x00. -/
def asciiField (l : List Byte) : Bool :=
  (l.dropWhile fun b => decide (0x20 ≤ b.toNat) && decide (b.toNat ≤ 0x7E)).all (· = 0)

/-- LMAP: entries 0 to nl − 1 distinct, those from nl upwards 0, and nothing above bit 23. -/
def lmapOk (nl m : Nat) : Bool :=
  let e (j : Nat) : Nat := (m >>> (3 * j)) % 8
  decide (m < 2 ^ 24) && ((List.range nl).map e).Nodup && ((List.range 8).all fun j => decide (j < nl) || e j = 0)

/-- The fields whose values depend on KIND, for a head. -/
def headFields (b : List Byte) : Bool :=
  let lanes := field b 0x34 1
  let nl := 2 ^ (lanes % 4)
  let px := field b 0x2C 2
  let depth := field b 0x35 1
  let bits := field b 0x36 1
  decide (1 ≤ px) && decide (px ≤ 8192) && px % nl = 0 && field b 0x30 4 ≠ 0 && decide (lanes < 8) &&
    decide (8 ≤ depth) && decide (depth ≤ 16) && decide (depth ≤ bits) && decide (bits ≤ 16) &&
    lmapOk nl (field b 0x38 4) && field b 0x44 4 ≠ 0 && field b 0x40 2 ≠ field b 0x3E 2

/-- The same for a light bar: NL stands for one lane, and its code words have no bits, so EOL is not asked to differ from SOL
(DEDUCED, log entry 46). -/
def barFields (b : List Byte) : Bool :=
  field b 0x2C 2 = 0 && field b 0x30 4 = 0 && field b 0x34 1 = 0 && field b 0x35 1 = 0 && field b 0x36 1 = 0 &&
    lmapOk 1 (field b 0x38 4)

/-- Bits from WORDBITS upwards are 0. -/
def codeOk (b : List Byte) (off : Nat) : Bool := decide (field b off 2 < 2 ^ field b 0x36 1)

/-- The section area is empty: it runs from byte 256 to HALLOFF or, without a hallmark, to CARDLEN (R532). -/
def noSections (b : List Byte) : Bool := (if field b 0x5C 4 = 0 then field b 0x58 4 else field b 0x5C 4) = 256

/-- A header passes its checks (R531, R534). The entries of SECTIONS belong to the section area, which firmware checks
(R534; DEDUCED, log entry 53). -/
def cardOk (b : List Byte) : Bool :=
  part b 0 4 = [0x50, 0x46, 0x48, 0x43] && field b 4 1 = 1 &&
    ((field b 5 1 = 1 && headFields b) || (field b 5 1 = 2 && barFields b)) &&
    field b 6 2 = 0x100 && field b 8 4 ≠ 0 && asciiField (part b 0xC 16) && asciiField (part b 0x1C 16) &&
    zeroPart b 0x2E 2 && zeroPart b 0x37 1 && codeOk b 0x3C && codeOk b 0x3E && codeOk b 0x40 &&
    zeroPart b 0x42 2 && decide (field b 0x48 1 < 2) && zeroPart b 0x49 3 &&
    decide (field b 0x4C 4 ≤ field b 0x50 4) &&
    decide (sext 16 (field b 0x54 2) < sext 16 (field b 0x56 2)) &&
    decide (256 ≤ field b 0x58 4) && decide (field b 0x58 4 ≤ 65536) &&
    (field b 0x5C 4 = 0 || (field b 0x5C 4 % 4 = 0 && decide (256 ≤ field b 0x5C 4) && field b 0x58 4 = field b 0x5C 4 + 7219)) &&
    (!noSections b || field b 0x60 4 = 0) && zeroPart b 0x64 28 && zeroPart b 0xC0 60 && (crc32c (part b 0 0xFC)).toNat = field b 0xFC 4

/-! ### Ledger records (R465, R536 to R539) -/

/-- A valid fault record (R465). -/
def faultRecOk (b : List Byte) : Bool :=
  part b 0 4 = [0x50, 0x46, 0x46, 0x52] && decide (field b 0x11 1 < 32) && decide (field b 0x13 1 < 64) &&
    decide (field b 0x14 2 < 2048) && zeroPart b 0x1C 32 && (crc32c (part b 0 0x3C)).toNat = field b 0x3C 4

/-- The order of fault records: BOOTCNT, then COUNT. -/
def faultRecKey (b : List Byte) : Nat := field b 4 4 * 2 ^ 64 + field b 8 8

/-- Rising keys. -/
def rising : List Nat → Bool
  | a :: b :: l => decide (a < b) && rising (b :: l)
  | _ => true

/-- The 64-byte entries of a list of bytes. -/
def entries64 (l : List Byte) : List (List Byte) := (List.range (l.length / 64)).map fun k => part l (64 * k) 64

/-- The entries of a payload, type and value; none where they do not fill it (R537, R538). -/
def payloadEntries : Nat → List Byte → Option (List (Nat × List Byte))
  | _, [] => some []
  | 0, _ => none
  | n + 1, l =>
    let len := field l 2 2
    let padded := (len + 3) / 4 * 4
    if l.length < 4 + padded || !zeroPart l (4 + len) (padded - len) then none
    else (payloadEntries n (l.drop (4 + padded))).map fun rest => (field l 0 2, part l 4 len) :: rest

/-- One entry meets R538. -/
def entryOk (e : Nat × List Byte) : Bool :=
  let v := e.2
  match e.1 with
  | 0 => false
  | 1 => v.length = 4
  | 2 => v.length = 2 && decide (numLE v < 2048)
  | 3 => v.length = 1 && decide (numLE v < 3)
  | 4 => v.length = 16 && zeroPart v 7 1 && zeroPart v 10 2 && zeroPart v 14 2
  | 5 => v.length % 64 = 0 && decide (v.length ≤ 256 * 64) && (entries64 v).all faultRecOk &&
      rising ((entries64 v).map faultRecKey)
  | t => decide (0x8000 ≤ t)

/-- The entries of a bank's record; none where the bank is invalid, also because a byte of it could not be read (R537, R538). -/
def bankEntries (b : List Byte) : Option (List (Nat × List Byte)) :=
  let len := field b 8 4
  if b.length ≠ 65536 || part b 0 4 ≠ [0x50, 0x46, 0x4C, 0x47] || len % 4 ≠ 0 || decide (61424 < len) ||
      (crc32c (part b 0 (0xC + len))).toNat ≠ field b (0xC + len) 4 then none
  else match payloadEntries len (part b 0xC len) with
    | none => none
    | some es =>
      if es.all entryOk && ((es.map (·.1)).filter fun t => decide (t ≤ 5)).Nodup then some es else none

/-- The value of an entry type, 0 where it is absent. -/
def entryNum (es : List (Nat × List Byte)) (t : Nat) : Nat :=
  match es.find? fun e => e.1 = t with
  | some e => numLE e.2
  | none => 0

/-- The fault slot of a bank: its last 4 KiB (R536). -/
def bankSlot (b : List Byte) : List (List Byte) := entries64 (part b 0xF000 4096)

/-- The first erased entry of a slot. -/
def firstErased (slot : List (List Byte)) : Option Nat := slot.findIdx? fun e => e.all (· = 0xFF)

/-- BOOTCNT of every valid fault record of a slot (R540). -/
def slotCounts (slot : List (List Byte)) : List Nat := (slot.filter faultRecOk).map fun e => field e 4 4

/-- A fault record goes into a log in ascending order of BOOTCNT and COUNT; one with both equal is already present (R542). -/
def logInsert (e : List Byte) : List (List Byte) → List (List Byte)
  | [] => [e]
  | x :: l =>
    if faultRecKey e < faultRecKey x then e :: x :: l
    else if faultRecKey e = faultRecKey x then x :: l
    else x :: logInsert e l

/-- FAULTLOG of a new record: that of the current one with every valid record of the slots; the newest 256 stay (R542). -/
def newFaultLog (es : List (Nat × List Byte)) (slots : List (List Byte)) : List Byte :=
  let old := match es.find? fun e => e.1 = 5 with
    | some e => entries64 e.2
    | none => []
  let l := (slots.filter faultRecOk).foldl (fun l e => logInsert e l) old
  (l.drop (l.length - 256)).flatten

/-- The bytes of an entry (R538). -/
def entryBytes (e : Nat × List Byte) : List Byte :=
  bytesLE 2 e.1 ++ bytesLE 2 e.2.length ++ e.2 ++ List.replicate ((4 - e.2.length % 4) % 4) 0

/-- A new record (R537, R542): BOOTCNT and FAULTLOG, then the other entries of the current record as they stand (log entry
111). -/
def ledgerRecord (seq count : Nat) (es : List (Nat × List Byte)) (slots : List (List Byte)) : List Byte :=
  let rest := es.filter fun e => e.1 ≠ 1 && e.1 ≠ 5
  let payload := (((1, bytesLE 4 count) :: (5, newFaultLog es slots) :: rest).map entryBytes).flatten
  let body := [0x50, 0x46, 0x4C, 0x47] ++ bytesLE 4 seq ++ bytesLE 4 payload.length ++ payload
  body ++ bytesLE 4 (crc32c body).toNat

/-- Which bank is current: false for A, true for B, none for neither (R539). -/
def currentBank (a b : List Byte) : Option Bool :=
  match (bankEntries a).isSome, (bankEntries b).isSome with
  | true, true =>
    let d := (field b 4 4 + 2 ^ 32 - field a 4 4) % 2 ^ 32
    some (decide (1 ≤ d) && decide (d < 2 ^ 31))
  | true, false => some false
  | false, true => some true
  | false, false => none

end Sys2Proof.Machine
end

