-- ==== Sys2Proof/Machine/Boot.lean ====
section
/-! DEFINITION. The boot ROM of H0 (18_boot_and_assay.md R499 to R508, R515, 19_heads_and_ledger.md R528, R534, R539 to
R542): one step at each tick on which no command waits (log entry 43). What the boot flash and the head cards answer is a
free value (log entries 10 and 44). -/

namespace Sys2Proof.Machine

/-! ### The image (R501, R502) -/

/-- The header of a boot image: 0 or an error code of R508. -/
def bootHeaderErr (b : List Byte) : Nat :=
  let fw := field b 0x10 4
  let anx := field b 0x1C 4
  if part b 0 4 ≠ [0x50, 0x46, 0x42, 0x49] then 2
  else if field b 4 2 ≠ 1 || field b 6 2 ≠ 0x80 then 3
  else if field b 8 4 = 0 || decide (64 < field b 0xC 4) || fw % 8 ≠ 0 || decide (fw < 8) || decide (0x3BF00 < fw) ||
      decide (fw ≤ field b 0x14 4) || field b 0x18 4 ≠ mcLen || (anx ≠ 0 && (decide (anx < 136) || decide (16784563 < anx))) ||
      field b 0x20 4 % 65536 ≠ 0 || field b 0x24 4 % 65536 ≠ 0 || field b 0x20 4 = field b 0x24 4 ||
      decide (5 < field b 0x28 4) || !zeroPart b 0x2C 20 || !zeroPart b 0x60 32 then 4
  else 0

/-- Places of the parts: microcode image, Annex image, its padding, and the signature (R501). -/
def bootMcAt (hd : List Byte) : Nat := 2720 + field hd 0x10 4
def bootAnnexAt (hd : List Byte) : Nat := bootMcAt hd + 72904
def bootPadAt (hd : List Byte) : Nat := bootAnnexAt hd + field hd 0x1C 4
def bootSigAt (hd : List Byte) : Nat := bootPadAt hd + (8 - field hd 0x1C 4 % 8) % 8

/-! ### Between steps -/

def State.modBoot (s : State) (f : Boot → Boot) : State := s.modAssay fun a => { a with boot := f a.boot }

/-- A write of a locked field of the Lodge: LODGE_CTL.LOCK outlasts a warm reset and stops the boot ROM's writes too (R9, R473;
DEDUCED, log entry 114). -/
def State.lodgeField (s : State) (x : Reg) (f : Field) (v : Nat) : State :=
  if s.flag (rg .lodgeCtl) F.lodgeCtl_LOCK then s else s.setF x f v

/-- The boot ROM goes on at a stage. -/
def State.bootTo (s : State) (st : BootStage) : State := s.modBoot fun b => { b with stage := st }

def State.bootF (s : State) (f : Field) (v : Nat) : State := s.setF (rg .asBootStat) f v

/-- A boot ends in error (R506): a failed flash boot falls back to the host push where the strap says so; every other
failure asserts FAULT_N and enters recovery. -/
def State.bootFail (s : State) (err : Nat) : State :=
  let s := ((s.bootF F.asBootStat_ERR err).bootF F.asBootStat_FAIL 1).bootF F.asBootStat_LOCKOUT 0
  let x := rg .asBootStat
  if s.getF x F.asBootStat_BOOTSEL = 3 && s.getF x F.asBootStat_SOURCE = 0 then
    (((s.bootF F.asBootStat_RETRY 1).bootF F.asBootStat_SOURCE 1).bootF F.asBootStat_PHASE 2).bootTo .push
  else ((s.lodgeCmd (.seq 0) 4).bootF F.asBootStat_PHASE 0xA).bootTo .recovery

/-- What follows a read of an image: a wait for a waking bank, the error 0x0C, or the next check (R503). -/
def bootRead (s : State) (r : State × ImgRead) (k : State → List Byte → State) : State :=
  match r with
  | (_, .wait) => s
  | (t, .error) => t.bootFail 0xC
  | (t, .bytes l) => k t l

/-! ### Step 1: the image (R499, R500, R507) -/

/-- The strap selects the source (R499). -/
def State.bootStart (s : State) : State :=
  match s.getF (rg .asBootStat) F.asBootStat_BOOTSEL with
  | 1 => ((s.bootF F.asBootStat_SOURCE 1).bootF F.asBootStat_PHASE 2).bootTo .push
  | 2 =>
    let s := (s.bootF F.asBootStat_SOURCE 2).bootF F.asBootStat_PHASE 3
    ((List.finRange 6).foldl (fun (s : State) (k : Fin 6) => s.portCtlWrite k 1) s).bootTo .push
  | _ =>
    let s := (s.bootF F.asBootStat_SOURCE 0).bootF F.asBootStat_PHASE 1
    (s.bootF F.asBootStat_LOCKOUT 1).bootTo (.read false 0)

/-- A read of `n` bytes of the flash from address `a`: 0x6B, or 0x6C with OTP FLAGS.ADDR4, 8 dummy clocks, on four lines (R507). -/
def State.flashRead (s : State) (a n : Nat) : SpiTx :=
  let four := s.otpFlag otpAddr4
  { op := if four then 0x6C else 0x6B, addr := flashAddr (if four then 4 else 3) a, dummy := 8, recv := n, quad := true }

/-- Byte i of a flash read from address `a`: those received before the Lodge took the pins stand. -/
def State.bootByte (s : State) (a i : Nat) : Byte := (s.assay.boot.rx[i]?).getD (Config.flashByte s.free (a + i))

/-- What a flash read of the boot ROM has received up to now becomes `l`. -/
def State.bootRx (s : State) (l : List Byte) : State := s.modBoot fun b => { b with rx := l }

/-- One step of a flash read of the `n` bytes from `a` (R507), issued or not and pre-empted `cuts` times: where the Lodge has ended
its transaction (R464), how many bytes had been received is a free value, and the third time ends the read by `fail`; else it is
issued from the first byte not yet received once the Lodge has left the pins, and then its bytes go to `done`. -/
def State.flashStep (s : State) (a n : Nat) (issued : Bool) (cuts : Nat) (go : State → Bool → Nat → State)
    (done : State → List Byte → State) (fail : State → State) : State :=
  let k := s.assay.boot.rx.length
  if s.assay.boot.cut then
    let m := Nat.min (n - 1) (k + (Config.freeWord s.free).toNat)
    let s := { (s.bootRx ((List.range m).map (s.bootByte a))).modBoot fun b => { b with cut := false } with free := s.free + 1 }
    if cuts = 2 then fail s else go s false (cuts + 1)
  else if s.flag (rg .lodgeStat) F.lodgeStat_RECBUSY then s
  else if !issued then go (s.onFlash [s.flashRead (a + k) (n - k)]) true cuts
  else
    let l := (List.range n).map (s.bootByte a)
    done { s.bootRx [] with free := s.free + 1 } l

/-- The image as it has been read goes to the Cellar at 0x2000_0000 (R500). -/
def State.bootStore (s : State) (img : List Byte) : State :=
  if (s.bankStates 0x20000000 img.length).any BankState.isDown then s.bootFail 0xC
  else
    let t := s.ramWrite 0 0x20000000 img
    if t.2 then (t.1.modBoot fun b => { b with img := 0x20000000 }).bootTo .check else t.1.bootFail 0xC

/-- The two flash reads of an image (R507): its header, and the rest in one transaction; past a header that fails its checks nothing
is read. Each is counted by itself. -/
def State.bootFlash (s : State) (issued : Bool) (cuts : Nat) : State :=
  let hd := s.assay.boot.rx.take 128
  let n := if hd.length < 128 then 128 else bootSigAt hd + 4627
  let go (s : State) (i : Bool) (c : Nat) : State :=
    (if i then s.lodgeField (rg .lodgeCtl) F.lodgeCtl_ADDR4 (b2n (s.otpFlag otpAddr4)) else s).bootTo (.read i c)
  if (s.bankStates 0x20000000 n).any BankState.isWaking then s
  else s.flashStep 0 n issued cuts go
    (fun s l => if n = 128 && bootHeaderErr l = 0 then (s.bootRx l).bootTo (.read false 0) else s.bootStore l)
    (fun s => (s.bootRx []).bootFail 1)

/-- A host push is taken: TAKE clears GO, and the lockout begins (R446, R505). -/
def State.bootTake (s : State) : State :=
  if s.flag (rg .pcieBoot) F.pcieBoot_GO then
    let s := ((s.setF (rg .pcieBoot) F.pcieBoot_GO 0).bootF F.asBootStat_SOURCE 1).bootF F.asBootStat_LOCKOUT 1
    (s.modBoot fun b => { b with img := (s.reg (rg .pcieBootaddr)).toNat }).bootTo .check
  else s

/-- The wait for a push (R500). -/
def State.bootPush (s : State) : State :=
  if s.getF (rg .asBootStat) F.asBootStat_SOURCE = 1 then s.bootTake
  else if s.flag (rg .asBootPush) F.asBootPush_GO then
    ((s.bootF F.asBootStat_LOCKOUT 1).modBoot fun b =>
      { b with img := 8 * s.getF (rg .asBootPush) F.asBootPush_ADDR }).bootTo .check
  else s

/-! ### Steps 2 and 3: the check and the copy (R503, R508, R513) -/

/-- The digest signed in the Annex image; that of an image without a hallmark is a free value (R515, log entry 45). -/
def State.bootAnnexDigest (s : State) (img : List Byte) : Nat :=
  let keyEnd := 128 + keyLen
  if field img 8 4 = 1 then (Config.sha3 (part img 0 (keyEnd + field img 0x10 4))).toNat
  else numLE ((List.range 16).flatMap fun i => bytesLE 4 (Config.freeWord (s.free + i)).toNat)

/-- The image passes: what the check records (R513, R515, R524). -/
def State.bootAccept (s : State) (hd img : List Byte) (slot : Nat) (dg : BitVec 512) : State :=
  let s := (s.setF (rg .asBootInfo) F.asBootInfo_SVN (field hd 0xC 4)).setF (rg .asBootInfo) F.asBootInfo_KEYSLOT slot
  let s := s.setReg (rg .asBootVer) (BitVec.ofNat 32 (field hd 8 4))
  let s := s.setReg (rg .asBootImg) (BitVec.ofNat 32 s.assay.boot.img)
  let anx := if field hd 0x1C 4 = 0 then 0 else s.bootAnnexDigest (part img (bootAnnexAt hd) (field hd 0x1C 4))
  { s.modBoot fun b => { b with hdr := hd, dg := dg, anx := anx } with free := s.free + 16 }.bootTo .copy

/-- The image behind header and key, which have been read: padding, digest and signature. -/
def State.bootVerify (s0 s : State) (hd key : List Byte) (slot : Nat) : State :=
  let a := s.assay.boot.img
  bootRead s0 (s.imgRead 8 (a + 2720) (bootSigAt hd + 4627 - 2720)) fun s rest =>
    let img := hd ++ key ++ rest
    let dg := Config.sha3 (part img 0 (bootSigAt hd))
    if !zeroPart img (bootMcAt hd + mcLen) 5 || !zeroPart img (bootPadAt hd) (bootSigAt hd - bootPadAt hd) then s.bootFail 4
    else if !Config.mldsaVerify key dg (part img (bootSigAt hd) 4627) then s.bootFail 6
    else s.bootAccept hd img slot dg

/-- The boot check, in the order of R503; the verification engine serves one job at a time (R510). -/
def State.bootCheck (s : State) : State :=
  let s := s.bootF F.asBootStat_PHASE 4
  let a := s.assay.boot.img
  if !s.verQ.isEmpty then s
  else if a % 8 ≠ 0 || !inRam a 128 then s.bootFail 8
  else bootRead s (s.imgRead 8 a 128) fun t hd =>
    let e := bootHeaderErr hd
    if e ≠ 0 then t.bootFail e
    else if !inRam a (bootSigAt hd + 4627) then t.bootFail 8
    else bootRead s (t.imgRead 8 (a + 128) 2592) fun t key =>
      if !(List.range 4).any t.otpFlag then t.bootFail 0xB
      else match t.keySlot key with
        | none => t.bootFail 5
        | some slot => if field hd 0xC 4 < t.rollback then t.bootFail 7 else s.bootVerify t hd key slot

/-- H0 copies the firmware to Study (R503). -/
def State.bootCopy (s : State) : State :=
  let b := s.assay.boot
  bootRead s (s.imgRead 0 (b.img + 2720) (field b.hdr 0x10 4)) fun s fw => (s.setStudy 0 0 fw).bootTo (.microcode false)

/-! ### Steps 4 and 5: the embedded images (R217, R360, R503) -/

/-- The microcode load into every store. -/
def State.bootMicrocode (s : State) (begun : Bool) : State :=
  let b := s.assay.boot
  let s := s.bootF F.asBootStat_PHASE 5
  if s.flag (rg .asMcStat) F.asMcStat_BUSY then s
  else if !begun then
    let s := s.setReg (rg .asMcSrc) (BitVec.ofNat 32 (b.img + bootMcAt b.hdr))
    (s.mcCtlWrite (.seq 0) 0x1F).bootTo (.microcode true)
  else if s.getF (rg .asMcStat) F.asMcStat_ERR ≠ 0 then s.bootFail 9
  else s.bootTo (if field b.hdr 0x1C 4 = 0 then .cards false else .annex false)

/-- The Annex image load, with the port owned by H0. -/
def State.bootAnnex (s : State) (begun : Bool) : State :=
  let b := s.assay.boot
  let s := s.bootF F.asBootStat_PHASE 6
  if s.flag (rg .annexImgStat) F.annexImgStat_BUSY then s
  else if !begun then
    let s := s.annexWrite (.seq 0) (rg .annexCfgCtl) 1
    let s := s.annexWrite (.seq 0) (rg .annexImgSrc) (BitVec.ofNat 32 (b.img + bootAnnexAt b.hdr))
    (s.annexWrite (.seq 0) (rg .annexImgCtl) 1).bootTo (.annex true)
  else
    let e := s.getF (rg .annexImgStat) F.annexImgStat_ERR
    let s := s.annexWrite (.seq 0) (rg .annexCfgCtl) 0
    if e ≠ 0 then s.bootFail 0xA else s.bootTo (.cards false)

/-! ### Step 6: head cards (R504, R528, R534) -/

/-- Where the header of head card h is left. -/
def cardAt (h : Nat) : Nat := 0x1003F800 + 256 * h

/-- Has channel 504 + h claimed SDA and SCL of head port h, GP(352 + 2h) and GP(353 + 2h), for the boot ROM (R307, R547)? -/
def State.cardPins (s : State) (h : Nat) : Bool :=
  let n : Fin 512 := Fin.ofNat 512 (504 + h)
  s.chF n F.chCtl_OWNER = 1 && s.pinOfChan (352 + 2 * h) n && s.pinOfChan (353 + 2 * h) n

/-- One head port: its header as read, or zeros, in the Landing; its digest and whether it passes. Nothing is read without its
pins (DEDUCED, log entry 44). -/
def State.bootCard (s : State) (h : Nat) : State :=
  if s.cardPins h && Config.cardAnswers s.free h then
    let l := (List.range 256).map (Config.cardByte s.free h)
    ((s.ramWrite 0 (cardAt h) l).1).modBoot fun b =>
      { b with cards := b.cards ++ [Config.sha3 l], heads := b.heads + if cardOk l && field l 5 1 = 1 then 2 ^ h else 0 }
  else ((s.ramWrite 0 (cardAt h) (List.replicate 256 0)).1).modBoot fun b => { b with cards := b.cards ++ [0] }

/-- INT and FRAC of CH_DIV at the rate of FLAGS.I2C (11_porch_engines.md, the worked example of the head cards). -/
def i2cDiv (mode : Nat) : Word :=
  match mode with
  | 0 => BitVec.ofNat 32 (117 * 256 + 48)
  | 1 => BitVec.ofNat 32 (29 * 256 + 76)
  | _ => BitVec.ofNat 32 (11 * 256 + 184)

/-- The boot ROM sets up channel 504 + h: it claims the channel, writes its registers and sets EN, which claims the pins (R307,
R547). The fields that the spec does not give are the ROM's own (DESIGN CHOICE, log entry 44). -/
def State.cardChannel (s : State) (h : Nat) : State :=
  let n := 504 + h
  let put (s : State) (x : Reg) (v : Nat) : State := s.porchWrite (.seq 0) x (BitVec.ofNat 32 v)
  let s := put s (rg .chCtl n) 1
  if s.chF (Fin.ofNat 512 n) F.chCtl_OWNER ≠ 1 then s
  else
    let c := Config.cardChannel h
    let s := put s (rg .chDiv n) (i2cDiv (field s.assay.boot.hdr 0x28 4 / 2)).toNat
    let s := put s (rg .chPins n) (352 + 2 * h + 2 ^ 9 * 2 + 2 ^ 15 * c.2.1.toNat)
    let s := put (put s (rg .chSide n) 0) (rg .chExec n) c.2.2.toNat
    put s (rg .chCtl n) (1 + 8 + 16 + 2 ^ 5 * c.1.toNat)

/-- The boot ROM claims E63 and loads its porch program at 0x00 to 0x1F (R504). -/
def State.cardEngine (s : State) : State :=
  let s := s.porchWrite (.seq 0) (rg .peCtl 63) 1
  if s.getF (rg .peCtl 63) F.peCtl_OWNER ≠ 1 then s
  else forN 32 (fun i s => s.porchWrite (.seq 0) (rg .peProg 63 i) ((Config.cardProgram i).setWidth 32)) s

/-- Step 6 begins (R503, R528): with HEADS the engine and the channels of the present heads are set up. -/
def State.cardsBegin (s : State) : State :=
  if field s.assay.boot.hdr 0x28 4 % 2 = 0 then s
  else
    let s := s.cardEngine
    if s.getF (rg .peCtl 63) F.peCtl_OWNER ≠ 1 then s
    else forN 8 (fun h s => if bit (s.reg (rg .sensorHpres)) h then s.cardChannel h else s) s

/-- The boot ROM releases the channels and the engine that it owns, and with them the pins (R307, R504, R547). -/
def State.cardsEnd (s : State) : State :=
  let s := forN 8 (fun h s =>
    let n : Fin 512 := Fin.ofNat 512 (504 + h)
    if s.chF n F.chCtl_OWNER = 1 then s.porchWrite (.seq 0) (rg .chCtl n) 0 else s) s
  if s.getF (rg .peCtl 63) F.peCtl_OWNER = 1 then s.porchWrite (.seq 0) (rg .peCtl 63) 0 else s

/-- All heads at once. -/
def State.bootCards (s : State) (begun : Bool) : State :=
  let s := s.bootF F.asBootStat_PHASE 7
  if !begun then (s.cardsBegin.modBoot fun b => { b with cards := [], heads := 0 }).bootTo (.cards true)
  else
    let s := ((List.range 8).foldl State.bootCard s).cardsEnd
    { s with free := s.free + 1 }.bootTo (.ledger false (.read false false 0))

/-! ### Step 7: the ledger (R539 to R542) -/

/-- LODGE_FSLOT names the slot of the bank at flash address `a` (R541). -/
def State.bootSlot (s : State) (a next : Nat) : State :=
  let x := rg .lodgeFslot
  ((s.lodgeField x F.lodgeFslot_BASE ((a + 0xF000) / 4096)).setF x F.lodgeFslot_NEXT next).setF x F.lodgeFslot_FULL 0

/-- Flash address of bank A or B (R502). -/
def State.ledgerAt (s : State) (b : Bool) : Nat := field s.assay.boot.hdr (if b then 0x24 else 0x20) 4

/-- The current bank is selected and its record left in the Landing, LODGE_FSLOT and LODGE_BOOTCNT are set, and the new record is
built (R504, R539 to R542). -/
def State.bootSelect (s : State) : State :=
  let bank (b : Bool) : List Byte := if b then s.assay.boot.bankB else s.assay.boot.bankA
  let cur := currentBank (bank false) (bank true)
  let es := match cur with
    | some c => (bankEntries (bank c)).getD []
    | none => []
  let slots := bankSlot (bank false) ++ bankSlot (bank true)
  let count := ((entryNum es 1 :: slotCounts slots).foldl Nat.max 0 + 1) % 2 ^ 32
  let seq := match cur with
    | some c => (field (bank c) 4 4 + 1) % 2 ^ 32
    | none => 1
  let s := match cur with
    | some c => (s.ramWrite 0 0x10030000 (part (bank c) 0 (0x10 + field (bank c) 8 4))).1
    | none => s
  let s := match cur.bind fun c => (firstErased (bankSlot (bank c))).map fun n => (c, n) with
    | some (c, n) => s.bootSlot (s.ledgerAt c) n
    | none => s.lodgeField (rg .lodgeFslot) F.lodgeFslot_BASE 0
  let target := s.ledgerAt (match cur with | some c => !c | none => false)
  (s.setReg (rg .lodgeBootcnt) (BitVec.ofNat 32 count)).modBoot fun b =>
    { b with role := entryNum es 3, ledger := some (target, ledgerRecord seq count es slots), lost := cur.isNone, harmed := false
             stage := .ledger false (.erase false) }

/-- The read of a bank ends with the bytes that could be read; after B the current bank is selected (R539). -/
def State.bankDone (s : State) (b : Bool) (l : List Byte) : State :=
  if b then (s.modBoot fun x => { x with bankB := l, rx := [] }).bootSelect
  else (s.modBoot fun x => { x with bankA := l, rx := [] }).bootTo (.ledger false (.read true false 0))

/-- The Lodge has ended a transaction of an erase or a program (R464): the write may be cut off, and then fails its verification;
whether it was a command or the poll of its end is a free value (log entry 10). -/
def State.bootHarm (s : State) : State :=
  if s.assay.boot.cut then
    { s.modBoot fun b => { b with cut := false, harmed := b.harmed || (Config.freeWord s.free).getLsbD 0 } with free := s.free + 1 }
  else s

/-- One step of an erase or a program of the boot ROM (R542): its transactions once the Lodge has left the pins, behind WREN, then
what follows. -/
def State.flashWrite (s : State) (issued : Bool) (cmd : SpiTx) (here next : State → State) : State :=
  let s := s.bootHarm
  if s.flag (rg .lodgeStat) F.lodgeStat_RECBUSY then s
  else if !issued then here (s.onFlash [{ op := s.getF (rg .lodgeQspi) F.lodgeQspi_WREN }, cmd, { op := 0x05, recv := 1 }])
  else next s

/-- The record has been read back (R542): the slot of its bank is the current one; or the write is made once more; or the failure
is logged. -/
def State.bootCompare (s : State) (again : Bool) (target : Nat) (same : Bool) : State :=
  let done (s : State) : State := s.bootTo (.measure 0 false)
  if same then
    let s := s.bootSlot target 0
    done (if s.assay.boot.lost then (s.setReg (rg .lodgeUser) 2).lodgeCmd (.seq 0) 8 else s)
  else if again then done ((s.setReg (rg .lodgeUser) 1).lodgeCmd (.seq 0) 8)
  else (s.modBoot fun b => { b with harmed := false }).bootTo (.ledger true (.erase false))

/-- Step 7 (R539 to R542): both banks are read, and the new record is written to the bank that is not current. A bank whose read the
Lodge has cut three times could not be read, and a read-back cut so fails (DEDUCED, log entry 129). -/
def State.bootLedger (s : State) (again : Bool) (st : LedgerStep) : State :=
  let s := s.bootF F.asBootStat_PHASE 8
  let (target, body) := s.assay.boot.ledger.getD (0, [])
  let go (st : LedgerStep) (s : State) : State := s.bootTo (.ledger again st)
  let addr (k : Nat) : List Byte := flashAddr (if s.otpFlag otpAddr4 then 4 else 3) (target + 256 * k)
  match st with
  | .read b issued cuts =>
    s.flashStep (s.ledgerAt b) 65536 issued cuts (fun s i c => go (.read b i c) s) (fun s l => s.bankDone b l)
      (fun s => s.bankDone b s.assay.boot.rx)
  | .erase issued =>
    s.flashWrite issued { op := Config.flashErase.toNat, addr := addr 0 } (go (.erase true)) (go (.page 0 false))
  | .page k issued =>
    s.flashWrite issued { op := s.getF (rg .lodgeQspi) F.lodgeQspi_PP, addr := addr k, data := part body (256 * k) 256 }
      (go (.page k true)) (go (if body.length ≤ 256 * (k + 1) then .check false 0 else .page (k + 1) false))
  | .check issued cuts =>
    s.flashStep target body.length issued cuts (fun s i c => go (.check i c) s)
      (fun s l => s.bootCompare again target (!s.assay.boot.harmed && l = body))
      (fun s => (s.bootRx []).bootCompare again target false)

/-! ### Step 8: measurements and hand-over (R504, R515) -/

/-- The block of measurement 4 (R515). -/
def State.bootBlock (s : State) : List Byte :=
  let x := rg .asBootStat
  bytesLE 1 (s.getF x F.asBootStat_BOOTSEL) ++ bytesLE 1 (s.getF x F.asBootStat_SOURCE) ++
    bytesLE 1 (s.getF (rg .asBootInfo) F.asBootInfo_KEYSLOT) ++ bytesLE 1 s.assay.boot.role ++ bytesLE 4 (s.otp 66).toNat ++
    bytesLE 4 (s.reg (rg .asMcRomver)).toNat ++ bytesLE 4 s.rollback ++ bytesLE 4 (s.reg (rg .lodgeBootcnt)).toNat ++
    bytesLE 2 (s.ownId.toNat + 1024 * b2n s.idv) ++ List.replicate 42 0

/-- An extension through ASSAY_EXTD and ASSAY_EXTCTL (R515). -/
def State.bootExtend (s : State) (i d : Nat) : State :=
  (forN 16 (fun k s => s.setReg (rg .asExtd k) (BitVec.ofNat 32 (d >>> (32 * k)))) s).extctlWrite (BitVec.ofNat 32 (i + 8))

/-- Extension k of the twelve of R515. -/
def State.bootMeasure (s : State) (k : Nat) : State :=
  let b := s.assay.boot
  let next (s : State) : State := s.bootTo (.measure k true)
  if k = 0 then next (s.bootExtend 0 b.dg.toNat)
  else if k = 1 then next (s.bootExtend 1 s.mcDigest)
  else if k = 2 then next (s.bootExtend 2 b.anx)
  else if k < 11 then next (s.bootExtend 3 ((b.cards[k - 3]?).getD 0).toNat)
  else next (s.bootExtend 4 (numLE s.bootBlock))

/-- Hand-over (R504): H0 at ENTRY with its registers at their reset values but G0 to G2, and the lockout over. -/
def State.bootHandOver (s : State) : State :=
  let b := s.assay.boot
  let s := s.extctlWrite 0x1F00
  let s := (s.bootF F.asBootStat_LOCKOUT 0).bootTo .off
  s.modSeq 0 fun q =>
    let r := Seq.reset 0
    { q with
      g := ((r.g.set 0 (s.reg (rg .asBootStat))).set 1 (BitVec.ofNat 32 b.img)).set 2 (BitVec.ofNat 32 b.heads)
      f := r.f, p := r.p, rc := r.rc, flg := r.flg, fpctl := r.fpctl, wm := r.wm, lfp := r.lfp, epc := r.epc, mtf := r.mtf
      vbr := r.vbr, esr := r.esr, ear := r.ear, pc := BitVec.ofNat 32 (field b.hdr 0x14 4) }

/-- Step 8: the extensions one after another, each when the one before has ended. -/
def State.bootStep8 (s : State) (k : Nat) (begun : Bool) : State :=
  let s := s.bootF F.asBootStat_PHASE 9
  if s.flag (rg .asExtctl) F.asExtctl_BUSY then s
  else if begun then s.bootTo (.measure (k + 1) false)
  else if k < 12 then s.bootMeasure k
  else s.bootHandOver

/-! ### The whole -/

/-- One step of the boot ROM. -/
def State.bootStep (s : State) : State :=
  match s.assay.boot.stage with
  | .off => s
  | .start => s.bootStart
  | .read issued cuts => s.bootFlash issued cuts
  | .push => s.bootPush
  | .check => s.bootCheck
  | .copy => s.bootCopy
  | .microcode begun => s.bootMicrocode begun
  | .annex begun => s.bootAnnex begun
  | .cards begun => s.bootCards begun
  | .ledger again st => s.bootLedger again st
  | .measure k begun => s.bootStep8 k begun
  | .recovery => s.bootTake

/-- The boot ROM runs while H0 runs it. -/
def State.bootTick (s : State) : State := if (s.seq 0).run = .running then s.bootStep else s

end Sys2Proof.Machine
end

