-- ==== Sys2Proof/Machine/Tick.lean ====
section
/-! DEFINITION. What happens with no command waiting: one tick of time passes, every port sends its
slots, every outlet job makes at most one burst, and the boot ROM makes a step (13_mantel_and_launch.md R366, R369; 14_tyashlink.md R401, R407 to R411; 07_instruction_reference.md R203;
16_doorbells_faults_lodge.md R467, R468). DESIGN CHOICE, log entry 1. -/

namespace Sys2Proof.Machine

/-- The order of new frames by class (R411): LINK, SYNC, SEAM, BULK response, BULK request. -/
def classOrder : List (Fin 5) := [0, 1, 2, 4, 3]

/-- May port k send a frame in its state (R401)? In the HELLO stage of TRAINING: LINK; UP: LINK and source-routed BULK;
JOINED: everything. -/
def State.mayTransmit (s : State) (k : Fin 6) (f : Frame) : Bool :=
  match s.portSt k with
  | 1 => f.body.isLink && s.training k && s.trainStage k = 3
  | 2 => f.body.isLink || (f.hdr.rt && decide (3 ≤ f.body.cls.val))
  | 3 => true
  | _ => false

/-- The next new frame of port k: the first of the first class that has one and a credit (R410, R411). -/
def State.nextFrame (s : State) (k : Fin 6) : Option Frame :=
  classOrder.findSome? fun c =>
    if (s.lport k).credits[c] = 0 then none
    else (s.lport k).waiting.find? fun f => f.body.cls = c && s.mayTransmit k f

/-- A body as its SOF leaves: SYNC carries the count, DLYRSP the time since its DLYREQ arrived, and a DLYREQ's departure is
noted (R406, R421, R422). The fraction of the tick is free (log entry 2); a replay is stamped again (DEDUCED, log entry 106). -/
def State.stamped (s : State) (k : Fin 6) (b : LinkBody) : State × LinkBody :=
  let t := s.fresh
  let frac := t.1.toNat % 16
  match b with
  | .sync _ _ => (t.2, .sync s.count (BitVec.ofNat 4 frac))
  | .dlyrsp came => (t.2, .dlyrsp (s.stamp frac - came))
  | .dlyreq => (t.2.modPort k fun p => { p with t1 := s.stamp frac }, b)
  | _ => (s, b)

/-- The SOF block of a frame leaves; its other blocks follow (R404). -/
def State.startFrame (s : State) (k : Fin 6) (seq : Nat) (f : Frame) : State × Block :=
  let t := s.stamped k f.body
  let h := hdrBits f.body.wireClass f.hdr
  let bs := frameBlocks seq 0 false false h t.2.blocks
  (t.1.modPort k fun p => { p with tx := bs.tail, txBody := some f.body, since := p.since + 1 }, .ctl ctlSof h)

/-- A new frame: SEQ, the replay buffer and the credit of its class (R409, R410). -/
def State.sendFrame (s : State) (k : Fin 6) (f : Frame) : State × Block :=
  let q := (s.lport k).seq
  (s.modPort k fun p =>
    { p with
      waiting := p.waiting.erase f
      sent := p.sent ++ [(q, f, s.ns)]
      seq := (q + 1) % 256
      credits := p.credits.set f.body.cls (p.credits[f.body.cls] - 1) }).startFrame k q f

/-- An IDLE block with the acknowledgement and the credits to return (R404). -/
def State.sendIdle (s : State) (k : Fin 6) : State × Block :=
  let p := s.lport k
  let give : Vector Nat 5 := p.ret.map fun n => Nat.min n 255
  (s.modPort k fun p => { p with nak := false, since := 0, ret := Vector.ofFn fun c : Fin 5 => p.ret[c] - give[c] },
    .ctl ctlIdle (idleBits p.rxSeq p.rxAny p.nak give))

/-- A block of the frame in progress; EOF carries the acknowledgement as it stands, and ends the frame (R402, R404). -/
def State.sendBlock (s : State) (k : Fin 6) (b : Block) (rest : List Block) : State × Block :=
  let p := s.lport k
  let s := s.modPort k fun p => { p with tx := rest, since := p.since + 1 }
  match b with
  | .ctl t e =>
    let hello := p.txBody.any fun b => match b with | .hello .. => true | _ => false
    ((s.modPort k fun p => { p with nak := false, txBody := none, helloOut := p.helloOut || hello }).tryUp k,
      .ctl t (e ||| BitVec.ofNat 56 (2 ^ 40 * ackBits p.rxSeq p.rxAny p.nak)))
  | _ => (s, b)

/-- The next block of port k outside EVENT and ALIGN slots, in the order of R411 and with the IDLE block that R404 asks before
a frame or a replay. -/
def State.sendNext (s : State) (k : Fin 6) : State × Block :=
  let p := s.lport k
  match p.tx with
  | b :: rest => s.sendBlock k b rest
  | [] =>
    if 28 ≤ p.since then s.sendIdle k
    else match p.replayQ with
      | q :: rest =>
        let s := s.modPort k fun p => { p with replayQ := rest }
        match p.sent.find? fun e => e.1 = q with
        | some e => s.startFrame k q e.2.1
        | none => s.sendIdle k
      | [] => match (if p.sent.length < 64 then s.nextFrame k else none) with
        | some f => s.sendFrame k f
        | none => s.sendIdle k

/-- One slot of port k: an ALIGN slot every 16,384, an EVENT, or a block on each lane (R404, R411). -/
def State.sendSlot (s : State) (k : Fin 6) : State :=
  let p := s.lport k
  let put (s : State) (b : Block × Block) : State :=
    s.modPort k fun q => { q with out := q.out ++ [b], slot := (p.slot + 1) % 16384 }
  if p.slot = 0 then put s alignSlot
  else match (if s.linked k then p.evtq else []) with
    | e :: rest => put (s.modPort k fun p => { p with evtq := rest }) (eventSlot e)
    | [] =>
      let t := s.sendNext k
      let u := t.1.sendNext k
      put u.1 (t.2, u.2)

/-- What port k transmits in the tick that has just passed: a slot lasts 2.56 ns (R404). -/
def State.transmit (n : Nat) (s : State) (k : Fin 6) : State :=
  if s.portSt k = 0 then s else forN n (fun _ s => s.sendSlot k) (s.modPort k fun p => { p with out := [] })

/-- The oldest EVENT of a sequencer's queue goes to the ports (R203, R420). -/
def State.drainEvent (s : State) (h : Fin 4) : State :=
  match (s.seq h).evq with
  | [] => s
  | e :: rest => (s.modSeq h fun q => { q with evq := rest }).emitEvent e.1.toNat e.2.toNat

/-- The count moves: one TCLK, or one LCLK of the Lodge's carry (R366, R467); the count before the edge is kept. -/
def State.clockTick (s : State) : State :=
  let s := { s with mantel := { s.mantel with edge := s.count.toNat } }
  if s.hlock then ({ s with ns := s.ns + 1 }).countTick
  else { s with ns := s.ns + 40, count := s.count + 40 }

/-- With no command waiting one tick passes; while POR_N is low nothing happens. -/
def State.idle (s : State) : State :=
  if s.power.por then s
  else
    let s' := s.clockTick.wdTick s.ns
    let s' := if s'.coreOn then ((List.range 8).foldl State.outStep ((List.finRange 4).foldl State.drainEvent s')).bootTick.fclkTick.mcTick else s'
    ((List.finRange 6).foldl (State.transmit (100 * s'.ns / 256 - 100 * s.ns / 256)) s').pcieTick.settle

end Sys2Proof.Machine
end

