-- ==== Sys2Proof/Safety.lean ====
section
/-! DEFINITION. What counts as a sound state, and the terms that claims use. -/

namespace Sys2Proof.Machine

/-- Landing and Cellar memory in its canonical form. -/
def Memory.wf (m : Sparse Byte) : Bool := sparseWf memDefault m

/-- Is the microcode load at the head of the verification engine's jobs yet to begin (R217)? -/
def State.loadWaits (s : State) : Bool :=
  match s.verQ with
  | .microcode _ none :: _ => true
  | _ => false

/-- Nothing waits to be delivered or issued at the end of a command: no answer for a requester, no frame of the device to
itself, no Lodge cause to accept, no attestation request or management access without a tag, no write held back by a full
FIFO (R350), no microcode load that has yet to begin, no handler word behind buffered writes, no buffered write that has just
left the device. -/
def State.quiet (s : State) : Bool :=
  ((List.finRange 4).all fun h => (s.seq h).vec.isNone && match (s.seq h).wbuf with
      | e :: _ => !e.sent || s.unsent h e
      | [] => true) &&
    s.annex.held.isEmpty && !s.loadWaits && s.replies.isEmpty && s.link.self.isEmpty && s.lodgeQ.isEmpty &&
    (match s.assay.att with
      | some q => q.issued
      | none => true) &&
    (!s.flag (rg .linkMgCtl) F.linkMgCtl_BUSY || s.reqs.any fun q => q.who.isManage)

/-- `t` is `x` after what follows every command at once: the count and measurements that the quote being signed takes (R517)
may be taken, and the MSI-X messages follow the forwarded sources (R444). -/
def State.after (x t : State) : Prop :=
  t = ({ x with assay := { x.assay with snap := t.assay.snap } } : State).sync

/-- The command `c` completes at `s` in `x`, followed by what follows every command at once. -/
def Answers (c : Instr) (s x : State) : Prop := ∃ t, exec c s = .next t ∧ x.after t

/-- A sequencer instruction of `n` bytes can issue on sequencer `h`: the device is quiet, no routine stands part-way, the
sequencer is ready, and the bytes at its pc can be fetched, from Study or ROM or with no corrected error anywhere. -/
def State.issues (s : State) (h : Fin 4) (n : Nat) : Bool :=
  s.quiet && (s.seq h).routine.isNone && s.ready h && decide (s.fetch h (s.seq h).pc n = .ok) &&
    (!byteInRam (s.seq h).pc.toNat || s.cellar.weak.isEmpty)

/-- The prefixes of an instruction that runs once and passes the prefix checks of R155: none, ATOM, and NARROW where the
instruction accepts it; no reserved bit is set and the opcode is a defined one. -/
def plainIssue (iss : Issue) (narrow : Bool) : Bool :=
  !iss.resv && decide (iss.opc = .defined) && (decide (iss.prefixes = []) || decide (iss.prefixes = [.atom]) ||
    (narrow && (decide (iss.prefixes = [.narrow]) || decide (iss.prefixes = [.narrow, .atom]) ||
      decide (iss.prefixes = [.atom, .narrow]))))

/-- A sequencer past an instruction of `n` bytes (R133): pc moves on, and TP is set where the instruction began with
TE = 1. -/
def Seq.advance (q : Seq) (n : Nat) : Seq :=
  { q with pc := q.pc + BitVec.ofNat 32 n, flg := if bit q.flg flgTE then setBits q.flg flgTP 1 1 else q.flg, atomRep := false }

/-- The powered device with nothing waiting. -/
def State.calm (s : State) : Bool := !s.power.por && s.quiet

/-- The requester's write of `v` reaches the register `x`: the device is calm, the host's requests get through (R441, R445), and
the write is neither held back (R350) nor discarded for a reserved encoding (R11). -/
def State.takes (s : State) (r : Requester) (x : Reg) (v : Word) : Bool :=
  s.calm && s.reaches r && !s.annexHolds r x && !s.regReserved r x v

/-- MSI-X follows the sources between commands (R444): no rise of a vector's forwarded sources is unseen, and with MSI-X
enabled a vector whose pending bit is set is masked. While POR_N is low nothing is asked. -/
def MsixFollows (s : State) : Prop :=
  s.power.por = true ∨
    (s.pcie.last = s.forwarded ∧
      (s.msixEn = true → ∀ v : Fin 64, s.pcie.pba.getLsbD v = true → s.msixMasked v = true))

end Sys2Proof.Machine
end

