-- ==== Sys2Proof/Certificates/Slice0/Obligations.lean ====
section
/-! DEFINITION. The statements for the provers: what the rules of spec/ say the commands do. The terms they share stand in
Sys2Proof/Safety.lean and in the blocks of Sys2Proof.Claims below. -/

namespace Sys2Proof.Claims
end Sys2Proof.Claims

open Sys2Proof Sys2Proof.Machine Sys2Proof.Claims
/-! ### Scalar arithmetic (R177 to R181) -/

namespace Sys2Proof.Claims

/-- Operation width under NARROW (R178). -/
def specWidth (iss : Issue) : Nat := if Prefix.narrow ∈ iss.prefixes then 16 else 32

/-- Sequencer h with an ALU result: Gd where `w`, and the flags. -/
def aluSeq (w : Bool) (d : Fin 16) (x : AluRes) (q : Seq) : Seq :=
  { q with g := if w then q.g.set d (BitVec.ofNat 32 x.r) else q.g, flg := x.flg q.flg }

/-- `c` is a register form that answers `f` of the low n bits of Gd and Gb. -/
def RegisterForm (c : Issue → Fin 16 → Fin 16 → Instr) (w : Bool) (f : Nat → Nat → Nat → AluRes) : Prop :=
  ∀ (iss : Issue) (d b : Fin 16) (s : State), plainIssue iss true = true → s.issues iss.h (iss.prefixes.length + 2) = true →
    let n := specWidth iss
    let x := f n ((s.gr iss.h d).toNat % 2 ^ n) ((s.gr iss.h b).toNat % 2 ^ n)
    Answers (c iss d b) s (s.modSeq iss.h fun q => (aluSeq w d x q).advance (iss.prefixes.length + 2))

/-- `c` is an immediate form: the operand is the immediate of 1, 2 or 4 bytes, sign-extended to the width. -/
def ImmediateForm (c : Issue → Fin 16 → Fin 4 → Word → Instr) (w : Bool) (f : Nat → Nat → Nat → AluRes) : Prop :=
  ∀ (iss : Issue) (d : Fin 16) (sz : Fin 4) (imm : Word) (s : State), plainIssue iss true = true →
    sz.val < (if Prefix.narrow ∈ iss.prefixes then 2 else 3) →
    s.issues iss.h (iss.prefixes.length + 2 + 2 ^ sz.val) = true →
    let n := specWidth iss
    let x := f n ((s.gr iss.h d).toNat % 2 ^ n) ((imm.setWidth (8 * 2 ^ sz.val)).signExtend n).toNat
    Answers (c iss d sz imm) s
      (s.modSeq iss.h fun q => (aluSeq w d x q).advance (iss.prefixes.length + 2 + 2 ^ sz.val))

/-- `c` is a shift by an immediate count below the width. -/
def ShiftForm (c : Issue → Fin 16 → Fin 4 → Word → Instr) (f : Nat → Nat → Nat → AluRes) : Prop :=
  ∀ (iss : Issue) (d : Fin 16) (imm : Word) (s : State), plainIssue iss true = true →
    imm.toNat % 256 < specWidth iss → s.issues iss.h (iss.prefixes.length + 3) = true →
    let n := specWidth iss
    let x := f n ((s.gr iss.h d).toNat % 2 ^ n) (imm.toNat % 256)
    Answers (c iss d 0 imm) s (s.modSeq iss.h fun q => (aluSeq true d x q).advance (iss.prefixes.length + 3))

/-- A result that sets Z and N only. -/
def specZN (n r : Nat) : AluRes := { r, z := some (decide (r = 0)), n := some (decide (2 ^ (n - 1) ≤ r)) }

/-- The n-bit number as a signed one. -/
def specSigned (n a : Nat) : Int := (BitVec.ofNat n a).toInt

/-- Does a signed number fit n bits? -/
def specFits (n : Nat) (v : Int) : Bool := decide (-(2 ^ (n - 1) : Int) ≤ v ∧ v < (2 ^ (n - 1) : Int))

/-- ADD (R177): the sum; C is the carry out of bit n - 1, V says that the signed sum does not fit. -/
def specAdd (n a b : Nat) : AluRes :=
  { specZN n ((a + b) % 2 ^ n) with
    c := some (decide (2 ^ n ≤ a + b)), v := some (!specFits n (specSigned n a + specSigned n b)) }

/-- SUB and CMP (R177): C says that no borrow occurred. -/
def specSub (n a b : Nat) : AluRes :=
  { specZN n ((a + (2 ^ n - b)) % 2 ^ n) with
    c := some (decide (b ≤ a)), v := some (!specFits n (specSigned n a - specSigned n b)) }

end Sys2Proof.Claims

/-- R177 for ADD, SUB, CMP, AND, OR, XOR, MOV, ADDI, SUBI, CMPI, ANDI, ORI, XORI and MOVI: result, flags, pc, and nothing
else changes; CMP and CMPI write no register, MOV and MOVI no flag (R178, R181). -/
def Sys2Proof.Claims.AddSubLogicMoveForms : Prop :=
  (RegisterForm .add true specAdd ∧ RegisterForm .sub true specSub ∧ RegisterForm .cmp false specSub ∧
    RegisterForm .and true (fun n a b => specZN n (a &&& b)) ∧ RegisterForm .or true (fun n a b => specZN n (a ||| b)) ∧
    RegisterForm .xor true (fun n a b => specZN n (a ^^^ b)) ∧ RegisterForm .mov true (fun _ _ b => { r := b })) ∧
  (ImmediateForm .addi true specAdd ∧ ImmediateForm .subi true specSub ∧ ImmediateForm .cmpi false specSub ∧
    ImmediateForm .andi true (fun n a b => specZN n (a &&& b)) ∧ ImmediateForm .ori true (fun n a b => specZN n (a ||| b)) ∧
    ImmediateForm .xori true (fun n a b => specZN n (a ^^^ b)) ∧ ImmediateForm .movi true (fun _ _ b => { r := b }))

/-- REP before ADDI (R140): RC iterations, the flags of the last one, and RC = 0; with RC = 0 none, and nothing but the pc
moves. -/
def Sys2Proof.Claims.RepeatedAdditionRuns : Prop :=
  ∀ (iss : Issue) (d : Fin 16) (imm : Word) (s : State), iss.resv = false → iss.opc = .defined →
    iss.prefixes = [.rep] → iss.stop = none →
    s.issues iss.h 7 = true →
    let n := (s.seq iss.h).rc.toNat
    let x := specAdd 32 (s.gr iss.h d + BitVec.ofNat 32 (n - 1) * imm).toNat imm.toNat
    (n = 0 → Answers (.addi iss d 2 imm) s (s.modSeq iss.h fun q => q.advance 7)) ∧
    (0 < n → Answers (.addi iss d 2 imm) s
      (s.modSeq iss.h fun q => ({ aluSeq true d x q with rc := 0 } : Seq).advance 7))

/-- Additions, subtractions, logic and moves, and REP before one of them. -/
def Obligations.ScalarAddSubLogicMove : Prop :=
  AddSubLogicMoveForms ∧ RepeatedAdditionRuns

namespace Sys2Proof.Claims

/-- A shift by c of an n-bit number (R179): the result r, and C, which is bit k of x where c is not 0 and unchanged else. -/
def specShift (n c r x k : Nat) : AluRes := { specZN n r with c := if c = 0 then none else some (x.testBit k) }

/-- SHL, SHR, SAR and ROR of R179. -/
def specShl (n a c : Nat) : AluRes := specShift n c (a * 2 ^ c % 2 ^ n) a (n - c)
def specShr (n a c : Nat) : AluRes := specShift n c (a / 2 ^ c) a (c - 1)
def specSar (n a c : Nat) : AluRes := specShift n c ((BitVec.ofNat n a).sshiftRight c).toNat a (c - 1)
def specRor (n a c : Nat) : AluRes :=
  specShift n c ((BitVec.ofNat n a).rotateRight c).toNat ((BitVec.ofNat n a).rotateRight c).toNat (n - 1)

end Sys2Proof.Claims

/-- R179 for SHL, SHR, SAR, ROR, whose count is Gb modulo the width, and R181 for SHLI, SHRI, SARI and RORI. -/
def Obligations.ScalarShifts : Prop :=
  (RegisterForm .shl true (fun n a b => specShl n a (b % n)) ∧ RegisterForm .shr true (fun n a b => specShr n a (b % n)) ∧
    RegisterForm .sar true (fun n a b => specSar n a (b % n)) ∧ RegisterForm .ror true (fun n a b => specRor n a (b % n))) ∧
  (ShiftForm .shli specShl ∧ ShiftForm .shri specShr ∧ ShiftForm .sari specSar ∧ ShiftForm .rori specRor)

namespace Sys2Proof.Claims

/-- Division by the table of R180: quotient or remainder of the numbers x and y, with the dividend's special results. -/
def specDiv (n : Nat) (special : Option Nat) (v : Int) : AluRes :=
  match special with
  | some r => { specZN n r with v := some true }
  | none => { specZN n (v % (2 ^ n : Int)).toNat with v := some false }

/-- The special results of signed division: divisor 0 gives `z`, the most negative number by -1 gives `o`. -/
def specSpecial (n a b z o : Nat) : Option Nat :=
  if b = 0 then some z else if a = 2 ^ (n - 1) ∧ b = 2 ^ n - 1 then some o else none

end Sys2Proof.Claims

/-- R177, R178, R180: MUL, MULI, MULHU, MULHS, DIVU, REMU, DIVS and REMS: result, Z, N, V of the divisions, pc, and nothing
else. -/
def Obligations.ScalarMultiplyDivide : Prop :=
  RegisterForm .mul true (fun n a b => specZN n (a * b % 2 ^ n)) ∧
  ImmediateForm .muli true (fun n a b => specZN n (a * b % 2 ^ n)) ∧
  RegisterForm .mulhu true (fun n a b => specZN n (a * b / 2 ^ n)) ∧
  RegisterForm .mulhs true (fun n a b => specZN n ((specSigned n a * specSigned n b / (2 ^ n : Int)) % (2 ^ n : Int)).toNat) ∧
  RegisterForm .divu true (fun n a b => specDiv n (if b = 0 then some (2 ^ n - 1) else none) ((a / b : Nat) : Int)) ∧
  RegisterForm .remu true (fun n a b => specDiv n (if b = 0 then some a else none) ((a % b : Nat) : Int)) ∧
  RegisterForm .divs true (fun n a b =>
    specDiv n (specSpecial n a b (2 ^ n - 1) (2 ^ (n - 1))) ((specSigned n a).tdiv (specSigned n b))) ∧
  RegisterForm .rems true (fun n a b =>
    specDiv n (specSpecial n a b a 0) ((specSigned n a).tmod (specSigned n b)))
/-! ### Control transfer, special registers, plane pointers (R119 to R124, R130, R154, R160, R185 to R187) -/

namespace Sys2Proof.Claims

/-- `c` is an instruction of `len` bytes that changes its own sequencer only, to `f`. -/
def PlainForm (c : Issue → Instr) (len : Nat) (f : Issue → Seq → Seq) : Prop :=
  ∀ (iss : Issue) (s : State), plainIssue iss false = true → s.issues iss.h (iss.prefixes.length + len) = true →
    Answers (c iss) s (s.modSeq iss.h (f iss))

/-- The conditions of R160 by Z, N, C and V. -/
def specCond (cc : Nat) (z n c v : Bool) : Bool :=
  [true, z, !z, !c, c, !c || z, c && !z, n != v, n == v, z || (n != v), !z && (n == v), n, !n, v, !v].getD cc false

/-- Does the condition hold on FLG? -/
def specTaken (cc : Nat) (flg : Word) : Bool :=
  specCond cc (flg.getLsbD 0) (flg.getLsbD 1) (flg.getLsbD 2) (flg.getLsbD 3)

/-- The sequencer past an instruction of n bytes, with its pc at `a`. -/
def jumpSeq (q : Seq) (n : Nat) (a : Word) : Seq := { q.advance n with pc := a }

/-- Special register n of sequencer h (R119). -/
def specSpecialReg (h : Fin 4) (n : Nat) (q : Seq) : Word :=
  [q.rc, q.flg, q.fpctl, q.wm, q.lfp, q.epc, q.mtf, q.vbr, q.esr, q.ear, BitVec.ofNat 32 h.val].getD n 0

/-- Bits of FLG that MTS writes: Z N C V, IE, TE, EXL, PRI (R121). -/
def flgRw : Word := 0x001F0B0F

/-- Special register n written with v (R119, R121 to R124): reserved and RO bits do not change. -/
def putSpecialReg (n : Nat) (v : Word) (q : Seq) : Seq :=
  match n with
  | 0 => { q with rc := v }
  | 1 => { q with flg := (q.flg &&& 0x00001400#32) ||| (v &&& flgRw) }
  | 2 => { q with fpctl := v &&& 0x003F1F07#32 }
  | 3 => { q with wm := v &&& 0xFF#32 }
  | 4 => { q with lfp := v &&& 0xFFF#32 }
  | 5 => { q with epc := v }
  | 6 => { q with mtf := v &&& 0xFFFFFFC0#32 }
  | 7 => { q with vbr := v &&& 0xFFFFFF80#32 }
  | 8 => { q with esr := v &&& 0xFF1F#32 }
  | 9 => { q with ear := v }
  | _ => q

/-- Is `v` free of reserved encodings for special register n: PRI at most 16, and a DETAIL that R124 lists, or 0? -/
def specialOk (n : Nat) (v : Word) : Bool :=
  if n = 1 then decide ((v.extractLsb' 16 5).toNat ≤ 16)
  else if n = 8 then
    let d := (v.extractLsb' 8 8).toNat
    match (v.extractLsb' 0 5).toNat with
    | 1 => decide (d ≤ 10)
    | 2 => decide (d ≤ 6)
    | 3 => decide (d ≤ 5)
    | 10 => decide (d ≤ 1)
    | _ => decide (d = 0)
  else true

/-- Plane pointer k with BASE and STRIDE (R122). -/
def putPointer (k : Fin 8) (base stride : Nat) (q : Seq) : Seq :=
  { q with p := q.p.set k (BitVec.ofNat 32 (base % 4096 + 65536 * (stride % 256))) }

/-- BASE and STRIDE of a word laid out as R122. -/
def ptrBase (w : Word) : Nat := w.toNat % 4096
def ptrStride (w : Word) : Nat := w.toNat / 65536 % 256

end Sys2Proof.Claims

/-- BCC by its condition, CALL, JMP, CALLR, RET and NOP (R154, R160, R185): the pc, G14 of the calls, and nothing else; FLG
changes in TP only. -/
def Obligations.ControlTransfer : Prop :=
  (∀ (long : Bool) (disp : Word) (cc : Fin 16), cc.val ≠ 15 →
    PlainForm (fun iss => .bcc iss long disp cc) (if long then 6 else 3) fun iss q =>
      let n := iss.prefixes.length + (if long then 6 else 3)
      let next := q.pc + BitVec.ofNat 32 n
      jumpSeq q n (if specTaken cc.val q.flg then next + (if long then disp else (disp.setWidth 8).signExtend 32) else next)) ∧
  (∀ disp : Word, PlainForm (fun iss => .call iss disp) 5 fun iss q =>
    let n := iss.prefixes.length + 5
    let next := q.pc + BitVec.ofNat 32 n
    jumpSeq { q with g := q.g.set 14 next } n (next + disp)) ∧
  (∀ b : Fin 16, PlainForm (fun iss => .jmp iss b) 2 fun iss q => jumpSeq q (iss.prefixes.length + 2) q.g[b]) ∧
  (∀ b : Fin 16, PlainForm (fun iss => .callr iss b) 2 fun iss q =>
    let n := iss.prefixes.length + 2
    jumpSeq { q with g := q.g.set 14 (q.pc + BitVec.ofNat 32 n) } n q.g[b]) ∧
  (PlainForm (fun iss => .ret iss) 1 fun iss q => jumpSeq q (iss.prefixes.length + 1) q.g[14]) ∧
  (PlainForm (fun iss => .nop (.seq iss)) 1 fun iss q => q.advance (iss.prefixes.length + 1))

/-- MFS, MTS, PSET, PADDI, PADD, MFP and MTP (R119 to R124, R187): the register named takes the value, reserved bits stay 0,
and nothing else changes but the pc (and TP under TE). -/
def Obligations.SpecialRegistersAndPointers : Prop :=
  (∀ d n : Fin 16, n.val ≤ 10 → PlainForm (fun iss => .mfs iss d n) 3 fun iss q =>
    ({ q with g := q.g.set d (specSpecialReg iss.h n.val q) } : Seq).advance (iss.prefixes.length + 3)) ∧
  (∀ (n b : Fin 16) (iss : Issue) (s : State), n.val ≤ 10 → plainIssue iss false = true →
    s.issues iss.h (iss.prefixes.length + 3) = true → specialOk n.val (s.gr iss.h b) = true →
    Answers (.mts iss n b) s (s.modSeq iss.h fun q =>
      let q' := putSpecialReg n.val q.g[b] q
      { q' with
        pc := q.pc + BitVec.ofNat 32 (iss.prefixes.length + 3), atomRep := false
        flg := if q.flg.getLsbD 9 then setBits q'.flg 10 1 1 else q'.flg })) ∧
  (∀ (k : Fin 8) (base : BitVec 12) (stride : Byte), PlainForm (fun iss => .pset iss k base stride) 6 fun iss q =>
    (putPointer k base.toNat stride.toNat q).advance (iss.prefixes.length + 6)) ∧
  (∀ (k : Fin 8) (imm : BitVec 16), PlainForm (fun iss => .paddi iss k imm) 4 fun iss q =>
    (putPointer k (ptrBase q.p[k] + imm.toNat) (ptrStride q.p[k]) q).advance (iss.prefixes.length + 4)) ∧
  (∀ (k : Fin 8) (b : Fin 16), PlainForm (fun iss => .padd iss k b) 3 fun iss q =>
    (putPointer k (ptrBase q.p[k] + (q.g[b]).toNat) (ptrStride q.p[k]) q).advance (iss.prefixes.length + 3)) ∧
  (∀ (d : Fin 16) (k : Fin 8), PlainForm (fun iss => .mfp iss d k) 3 fun iss q =>
    ({ q with g := q.g.set d q.p[k] } : Seq).advance (iss.prefixes.length + 3)) ∧
  (∀ (k : Fin 8) (b : Fin 16), PlainForm (fun iss => .mtp iss k b) 3 fun iss q =>
    (putPointer k (ptrBase q.g[b]) (ptrStride q.g[b]) q).advance (iss.prefixes.length + 3))

namespace Sys2Proof.Claims

/-- Sequencer h with the old EPC and FLG pushed below G15, EPC at the return address, and the status of an entry to vector
`v` (R129). -/
def pushed (s : State) (h : Fin 4) (v : Nat) (ret : Word) (micro : Bool) (detail : Nat) (ear : Option Word) : State :=
  let q := s.seq h
  let sp := q.g[15] - 8
  let f := setBits (setBits (setBits q.flg 9 1 0) 10 1 0) 12 1 (if micro then 1 else 0)
  let syn := decide (1 ≤ v ∧ v ≤ 6) || decide (8 ≤ v ∧ v ≤ 10)
  (s.setStudy h sp.toNat (bytesLE 4 q.epc.toNat ++ bytesLE 4 q.flg.toNat)).modSeq h fun q' => { q' with
    g := q'.g.set 15 sp
    epc := ret
    flg := if v ≤ 15 then setBits f 11 1 1 else setBits f 16 5 (v - 16 + 1)
    esr := if syn then BitVec.ofNat 32 (v + 256 * detail) else q'.esr
    ear := if syn then ear.getD q'.ear else q'.ear
    run := .running, wait := none, atomRep := false }

/-- The write buffer of sequencer h holds no write to the row of the address map that holds `a` (R183). -/
abbrev rangeFree (s : State) (h : Fin 4) (a : Nat) : Prop := ∀ e ∈ (s.seq h).wbuf, regionOf e.addr ≠ regionOf a

/-- The handler of vector `v` can be entered: G15 - 8 is an 8-aligned Study address and the word at VBR + 4 v, as it stands
after the push, can be read as `a` (R129), from Study or ROM or with no corrected error in Cellar or Landing, and without waiting
for a buffered write to its range (R183). -/
abbrev canEnter (s : State) (h : Fin 4) (v : Nat) (ret : Word) (micro : Bool) (detail : Nat) (ear : Option Word) (a : Word) :
    Prop :=
  stackOk ((s.seq h).g[15] - 8) = true ∧
    (pushed s h v ret micro detail ear).vectorWord h (((s.seq h).vbr.toNat + 4 * v) % 2 ^ 32) = some a ∧
    (byteInRam (((s.seq h).vbr.toNat + 4 * v) % 2 ^ 32) = false ∨ s.cellar.weak = []) ∧
  rangeFree s h (((s.seq h).vbr.toNat + 4 * v) % 2 ^ 32)

/-- The state after entry to vector `v` with the handler at `a`. -/
def entered (s : State) (h : Fin 4) (v : Nat) (ret : Word) (micro : Bool) (detail : Nat) (ear : Option Word) (a : Word) :
    State := (pushed s h v ret micro detail ear).setPc h a

end Sys2Proof.Claims

/-- Entry to a vector (R129, R131): the push below G15, EPC, FLG, ESR and EAR, and the pc at the handler; with a bad stack
or an unreadable vector the sequencer halts, with its cause, and the Lodge's cause 0xC + h becomes due. A handler address
that lies in Cellar or Landing is read there as any load reads (R236); where a buffered write to its range stands before it, the
word is read when that has been performed (R183). -/
def Sys2Proof.Claims.ExceptionEntry : Prop :=
  ∀ (s : State) (h : Fin 4) (v : Nat) (ret : Word) (micro : Bool) (detail : Nat) (ear : Option Word), 1 ≤ v → v ≤ 31 →
    (∀ a, canEnter s h v ret micro detail ear a →
      s.enter h v ret micro detail ear = entered s h v ret micro detail ear a) ∧
    (∀ a, stackOk ((s.seq h).g[15] - 8) = true →
      let at' := ((s.seq h).vbr.toNat + 4 * v) % 2 ^ 32
      (pushed s h v ret micro detail ear).vectorWord h at' = some a → rangeFree s h at' →
      regionOf at' = some .landing ∨ regionOf at' = some .cellar →
      s.enter h v ret micro detail ear = ((pushed s h v ret micro detail ear).ramRead h.val at' 4).1.setPc h a) ∧
    (stackOk ((s.seq h).g[15] - 8) = false →
      ((s.enter h v ret micro detail ear).seq h).run = .halted ∧ ((s.enter h v ret micro detail ear).seq h).hcause = 2 ∧
      (s.enter h v ret micro detail ear).lodgeQ = s.lodgeQ ++ [0xC + h.val]) ∧
    (stackOk ((s.seq h).g[15] - 8) = true →
      (pushed s h v ret micro detail ear).vectorWord h (((s.seq h).vbr.toNat + 4 * v) % 2 ^ 32) = none →
      rangeFree s h (((s.seq h).vbr.toNat + 4 * v) % 2 ^ 32) →
      ((s.enter h v ret micro detail ear).seq h).run = .halted ∧ ((s.enter h v ret micro detail ear).seq h).hcause = 4) ∧
    (stackOk ((s.seq h).g[15] - 8) = true →
      let at' := ((s.seq h).vbr.toNat + 4 * v) % 2 ^ 32
      ¬ rangeFree s h at' →
      s.enter h v ret micro detail ear = (pushed s h v ret micro detail ear).modSeq h fun q => { q with vec := some at' }) ∧
    (∀ at' a, (s.seq h).vec = some at' → rangeFree s h at' → s.vectorWord h at' = some a →
      byteInRam at' = false ∨ s.cellar.weak = [] →
      s.vectorStep h = (s.modSeq h fun q => { q with vec := none }).setPc h a)

/-- SC, INTERRUPT_ENTRY, WATCHDOG_ENTRY and TRACE_ENTRY enter their vectors (R127 to R129, R132, R186): SC at the next
instruction's address, after completing; the others at the pc, with no routine in progress. That SC and TRACE_ENTRY enter with
EXL = 1 too, and that the pushed FLG holds TP, is the model's choice (log entry 70). -/
def Sys2Proof.Claims.EntriesTaken : Prop :=
  (∀ (iss : Issue) (imm : Byte) (s : State) (a : Word), plainIssue iss false = true →
    s.issues iss.h (iss.prefixes.length + 2) = true →
    let t := s.modSeq iss.h fun q => q.advance (iss.prefixes.length + 2)
    canEnter t iss.h 9 (t.seq iss.h).pc false 0 none a →
    Answers (.sc iss imm) s (entered t iss.h 9 (t.seq iss.h).pc false 0 none a)) ∧
  (∀ (h : Fin 4) (s : State) (l : Nat) (a : Word), s.calm = true → s.entryOpen h = true → (s.seq h).routine = none →
    s.flgBit h 10 = false → (s.seq h).atomRep = false → (s.seq h).wdPend = false →
    s.flgBit h 8 = true → s.flgBit h 11 = false → s.topLevel h = some l → s.pri h ≤ l → l ≤ 15 →
    canEnter s h (16 + l) (s.seq h).pc false 0 none a →
    Answers (.interruptEntry h) s (entered s h (16 + l) (s.seq h).pc false 0 none a)) ∧
  (∀ (h : Fin 4) (s : State) (a : Word), s.calm = true → s.entryOpen h = true → (s.seq h).routine = none →
    s.flgBit h 10 = false → (s.seq h).atomRep = false → (s.seq h).wdPend = true →
    let t := s.modSeq h fun q => { q with wdPend := false }
    canEnter t h 7 (s.seq h).pc false 0 none a →
    Answers (.watchdogEntry h) s (entered t h 7 (s.seq h).pc false 0 none a)) ∧
  (∀ (h : Fin 4) (s : State) (a : Word), s.calm = true → s.entryOpen h = true → (s.seq h).routine = none →
    s.flgBit h 10 = true → canEnter s h 8 (s.seq h).pc false 0 none a →
    Answers (.traceEntry h) s (entered s h 8 (s.seq h).pc false 0 none a))

/-- Undefined instructions (R18, R71, R119, R124, R131, R142, R146, R147, R155, R160, R210): the first check of R155 that fails,
shown in one instruction or a few each, raises #UD with its detail and changes nothing else. -/
def Sys2Proof.Claims.UndefinedInstructionsRaise : Prop :=
  ∀ (iss : Issue) (s : State) (a : Word), s.flgBit iss.h 11 = false →
    let raises (c : Instr) (n d : Nat) : Prop := s.issues iss.h n = true →
      canEnter s iss.h 1 (s.seq iss.h).pc false d none a → Answers c s (entered s iss.h 1 (s.seq iss.h).pc false d none a)
    let ps := iss.prefixes
    let nop : Instr := .nop (.seq iss)
    (iss.opc = .over → raises nop 16 6) ∧
    (iss.opc = .defined → 4 < ps.length → ps.length ≤ 15 → (∀ m, .wm m ∉ ps) → raises nop (ps.length + 1) 4) ∧
    (∀ b, iss.opc = .defined → ps = [.reserved b] → raises nop 2 2) ∧
    (iss.opc = .defined → ps ∈ [[.rep, .rep], [.rep, .repa], [.narrow, .narrow], [.atom, .atom]] → raises nop 3 3) ∧
    (∀ m m', iss.opc = .defined → ps = [.wm m, .wm m'] → raises nop 5 3) ∧
    (∀ escaped, iss.opc = .undef escaped → ps = [] → raises nop (if escaped then 2 else 1) 1) ∧
    (iss.opc = .defined → ps = [] → iss.resv = true → raises nop 1 5) ∧
    (iss.opc = .defined → iss.resv = false →
      (ps = [.narrow] → raises nop 2 2) ∧ (∀ m, ps = [.wm m] → raises nop 3 2) ∧
      (ps = [.rep] → (∀ d, raises (.mfs iss d 0) 4 7) ∧ (∀ b, raises (.mts iss 0 b) 4 7) ∧ raises (.ret iss) 2 8 ∧
        raises (.mbr iss) 3 8) ∧
      (ps = [.repa] → raises nop 2 8)) ∧
    (plainIssue iss false = true →
      (∀ long disp, raises (.bcc iss long disp 15) (ps.length + (if long then 6 else 3)) 5) ∧
      (∀ d n : Fin 16, 10 < n.val → raises (.mfs iss d n) (ps.length + 3) 10 ∧ raises (.mts iss n d) (ps.length + 3) 10) ∧
      (∀ (n b : Fin 16), n.val ≤ 10 → specialOk n.val (s.gr iss.h b) = false → raises (.mts iss n b) (ps.length + 3) 10) ∧
      (∀ (d : Fin 16) (imm : Word), 32 ≤ imm.toNat % 256 → raises (.shli iss d 0 imm) (ps.length + 3) 5) ∧
      (∀ x : P1, ArrOp.aadd.badWord x.word = false → 32 ≤ x.word.toNat / 65536 % 64 → raises (.aadd iss x) (ps.length + 7) 9) ∧
      (∀ x : P1, ArrOp.aadd.badWord x.word = false → ArrOp.aadd.badRange x.word = false → (s.seq iss.h).csDigest = none →
        s.flag (rg .asMcStat) F.asMcStat_BUSY = false → raises (.aadd iss x) (ps.length + 7) 1))

/-- An undefined instruction under EXL = 1 (R131): the sequencer halts with cause 1, and the Lodge's cause 0xC + h is due. -/
def Sys2Proof.Claims.UndefinedUnderExlHalts : Prop :=
  ∀ (iss : Issue) (s : State) (escaped : Bool), s.flgBit iss.h 11 = true → iss.opc = .undef escaped → iss.prefixes = [] →
    s.issues iss.h (if escaped then 2 else 1) = true →
    exec (.nop (.seq iss)) s = .next (s.haltSeq iss.h 1).settle

/-- Exceptions and interrupts are taken: entry, the commands that enter, and undefined instructions. -/
def Obligations.ExceptionsAreTaken : Prop :=
  ExceptionEntry ∧ EntriesTaken ∧ UndefinedInstructionsRaise ∧ UndefinedUnderExlHalts

/-- RETI (R130): pc, EPC and FLG come back, G15 moves up by 8; with MIP = 0, or with nothing suspended, nothing else changes.
On a G15 that is no 8-aligned Study address the sequencer halts with cause 2; an uncorrectable error there raises #BF with
detail 0x05 (R125). -/
def Obligations.ReturnFromException : Prop :=
  (∀ (iss : Issue) (s : State), plainIssue iss false = true → s.issues iss.h (iss.prefixes.length + 1) = true →
    stackOk ((s.seq iss.h).g[15]) = true → s.studyBad iss.h ((s.seq iss.h).g[15]).toNat 8 = false → (s.flgBit iss.h 12 = false ∨ (s.seq iss.h).susp = []) →
    let sp := ((s.seq iss.h).g[15]).toNat
    Answers (.reti iss) s (s.modSeq iss.h fun q =>
      let flg := BitVec.ofNat 32 (s.studyNum iss.h (sp + 4) 4) &&& 0x001F1F0F#32
      { q with
        g := q.g.set 15 (q.g[15] + 8), pc := q.epc, epc := BitVec.ofNat 32 (s.studyNum iss.h sp 4)
        flg := if q.flg.getLsbD 9 then setBits flg 10 1 1 else flg
        atomRep := false })) ∧
  (∀ (iss : Issue) (s : State), plainIssue iss false = true → s.issues iss.h (iss.prefixes.length + 1) = true →
    stackOk ((s.seq iss.h).g[15]) = false →
    exec (.reti iss) s = .next ((s.modSeq iss.h fun q => { q with atomRep := false }).haltSeq iss.h 2).settle) ∧
  (∀ (iss : Issue) (s : State) (a : Word), plainIssue iss false = true → s.issues iss.h (iss.prefixes.length + 1) = true →
    s.flgBit iss.h 11 = false → stackOk ((s.seq iss.h).g[15]) = true →
    s.studyBad iss.h ((s.seq iss.h).g[15]).toNat 8 = true →
    let t := s.modSeq iss.h fun q => { q with atomRep := false }
    let ear := some (s.seq iss.h).g[15]
    canEnter t iss.h 2 (s.seq iss.h).pc false 5 ear a →
    Answers (.reti iss) s (entered t iss.h 2 (s.seq iss.h).pc false 5 ear a))
/-! ### Loads and stores (R126, R150 to R153, R182 to R184, R195) -/

namespace Sys2Proof.Claims

/-- A sequencer after a load of `n` bytes with value `v` to Fd, or to Gd (and Gd+1 of a doubleword): the base register's
update comes first, so a loaded register keeps the loaded value (R153). -/
def loadedSeq (fp : Bool) (d : Fin 16) (n v : Nat) (upd : Option (Fin 16 × Word)) (q : Seq) : Seq :=
  let g := match upd with
    | some (b, w) => q.g.set b w
    | none => q.g
  if fp then { q with g := g, f := q.f.set d (BitVec.ofNat 32 v) }
  else
    let g := g.set d (BitVec.ofNat 32 v)
    let e : Fin 16 := d + 1
    { q with g := if n = 8 then g.set e (BitVec.ofNat 32 (v / 2 ^ 32)) else g }

/-- A sequencer with its base register updated. -/
def basedSeq (upd : Option (Fin 16 × Word)) (q : Seq) : Seq :=
  { q with g := match upd with
    | some (b, w) => q.g.set b w
    | none => q.g }

/-- No buffered write of sequencer h lies in the range `g` (R183). -/
def rangeEmpty (s : State) (h : Fin 4) (g : Region) : Bool := (s.seq h).wbuf.all fun e => decide (regionOf e.addr ≠ some g)

/-- The n bytes at `a` are RAM that can be read: Landing, or Cellar in banks that are ON, without an ECC error. -/
def ramReadable (s : State) (a n : Nat) : Bool :=
  (decide (regionOfRange a n = some .landing) ||
    (decide (regionOfRange a n = some .cellar) && decide (s.bankSt a = .on) && decide (s.bankSt (a + n - 1) = .on))) &&
  s.cellar.weak.isEmpty && !s.eccBad a n

/-- `c` is a load of n bytes by the memory operand m with `len` bytes of encoding (R182): from Study, RAM, the boot ROM and
the registers its value; an aligned one of a LIVE region's window, of the host or of a remote device sends a request and
waits for the answer. -/
def LoadForm (c : Issue → Instr) (fp : Bool) (d : Fin 16) (n len : Nat) (m : MemOp) : Prop :=
  ∀ (iss : Issue) (s : State), plainIssue iss false = true → s.issues iss.h (iss.prefixes.length + len) = true →
    let t := s.memAddr iss.h n m
    let a := t.1.toNat
    let result (s' : State) (v : Nat) : State :=
      s'.modSeq iss.h fun q => (loadedSeq fp d n v t.2 q).advance (iss.prefixes.length + len)
    (regionOfRange a n = some .study → rangeEmpty s iss.h .study = true → s.studyBad iss.h a n = false →
      Answers (c iss) s (result s (s.studyNum iss.h a n))) ∧
    (ramReadable s a n = true → rangeEmpty s iss.h .landing = true → rangeEmpty s iss.h .cellar = true →
      Answers (c iss) s (result s (s.memNum a n))) ∧
    (regionOfRange a n = some .rom → rangeEmpty s iss.h .rom = true →
      Answers (c iss) s (result s (numLE ((span (a - 0xF0000000) n).map Config.romByte)))) ∧
    (∀ x, n = 4 → regionOfRange a n = some .regs → regAt (a - 0x40000000) = some x → rangeEmpty s iss.h .regs = true →
      (s.regGet (.seq iss.h) x).1.quiet = true →
      Answers (c iss) s (result ((s.modSeq iss.h fun q => { q with atomRep := false }).regGet (.seq iss.h) x).1
        ((s.modSeq iss.h fun q => { q with atomRep := false }).regGet (.seq iss.h) x).2.toNat)) ∧
    (let w := s.modSeq iss.h fun q => { q with atomRep := false }
     let waits (x : State) : State := x.modSeq iss.h fun q =>
       let l : PendingLoad := {
         addr := a, size := n, fp := fp, d := d, upd := t.2, instr := q.pc
         next := q.pc + BitVec.ofNat 32 (iss.prefixes.length + len), te := q.flg.getLsbD 9, rep := false }
       { q with load := some l }
     (regionOfRange a n = some .annex → a % n = 0 → s.regionState ((a - 0x60000000) / 0x800000) = 2 →
       rangeEmpty s iss.h .annex = true →
       let q : WinReq := {
         who := .load iss.h, region := (a - 0x60000000) / 0x800000, offset := (a - 0x60000000) % 0x800000, size := n
         data := none }
       Answers (c iss) s (waits { w with annex := { s.annex with wins := s.annex.wins ++ [q] } })) ∧
     (∀ x, regionOfRange a n = some .pcie → a % n = 0 → rangeEmpty s iss.h .pcie = true →
       w.pcieIssue (.load iss.h) false a n 0 (w.dueUs (s.getF (rg .pcieOtmo) F.pcieOtmo_TMO)) = some x → x.quiet = true →
       Answers (c iss) s (waits x)) ∧
     (∀ x dev ra, regionOfRange a n = some .remote → a % n = 0 → rangeEmpty s iss.h .remote = true →
       s.remoteTarget (iss.h.val + 1) a = some (dev, ra) →
       w.linkIssue (.load iss.h) { dst := dev } 0 false ra n 0 (w.dueUs (s.getF (rg .linkBulk) F.linkBulk_TMO)) = some x →
       x.quiet = true → Answers (c iss) s (waits x)))

/-- A store of n bytes at `a` by sequencer h passes its checks and is buffered (R7, R8, R126, R182 to R184, R414): in the
Landing, in Cellar banks that are neither RETAIN nor OFF, to an aligned register, aligned to an Annex window, to the host or to
a remote window that h holds. -/
abbrev storeBuffered (s : State) (h : Fin 4) (a n : Nat) : Prop :=
  regionOfRange a n = some .landing ∨ (regionOfRange a n = some .cellar ∧ s.bankDownAt a n = false) ∨
    (regionOfRange a n = some .regs ∧ n = 4 ∧ a % 4 = 0 ∧ regAt (a - 0x40000000) ≠ none) ∨
    ((regionOfRange a n = some .annex ∨ regionOfRange a n = some .pcie) ∧ a % n = 0) ∨
    (regionOfRange a n = some .remote ∧ a % n = 0 ∧ s.remoteTarget (h.val + 1) a ≠ none)

/-- `c` is a store of the low n bytes of `data` (R182, R183): to Study at once, elsewhere through the write buffer, where nothing
changes before the buffer performs the write. A full buffer first performs its oldest write, shown for one to the Landing; where
that cannot be performed, shown for one that is on its way, the store waits. -/
def StoreForm (c : Issue → Instr) (data : State → Issue → Nat) (n len : Nat) (m : MemOp) : Prop :=
  ∀ (iss : Issue) (s : State), plainIssue iss false = true → s.issues iss.h (iss.prefixes.length + len) = true →
    let t := s.memAddr iss.h n m
    let a := t.1.toNat
    let v := data s iss % 2 ^ (8 * n)
    (regionOfRange a n = some .study → (s.seq iss.h).studyBad = [] →
      Answers (c iss) s ((s.setStudy iss.h a (bytesLE n v)).modSeq iss.h fun q =>
        (basedSeq t.2 q).advance (iss.prefixes.length + len))) ∧
    (storeBuffered s iss.h a n → (s.seq iss.h).wbuf.length < 8 →
      Answers (c iss) s (s.modSeq iss.h fun q =>
        (basedSeq t.2 { q with wbuf := q.wbuf ++ [{ addr := a, size := n, data := v }] }).advance
          (iss.prefixes.length + len))) ∧
    (∀ e rest, storeBuffered s iss.h a n → (s.seq iss.h).wbuf = e :: rest →
      (rest.length = 7 → regionOf e.addr = some .landing → e.sent = false → s.cellar.bad = [] → s.cellar.weak = [] →
        Answers (c iss) s ((s.modSeq iss.h fun q =>
          (basedSeq t.2 { q with wbuf := rest ++ [{ addr := a, size := n, data := v }] }).advance
            (iss.prefixes.length + len)).setMemBytes e.addr (bytesLE e.size e.data))) ∧
      (7 ≤ rest.length → e.sent = true → regionOf e.addr ∈ [some .annex, some .remote, some .pcie] →
        Answers (c iss) s (s.modSeq iss.h fun q => { q with atomRep := false })))

end Sys2Proof.Claims

/-- The addressing modes (R152): post-increment uses the base and then adds the access size, pre-decrement subtracts it first,
and the indexed mode adds the scaled index and the sign-extended displacement; every address is modulo 2^32. -/
def Sys2Proof.Claims.AddressingModes : Prop :=
  ∀ (s : State) (h : Fin 4) (sz : Fin 4),
    let n := szBytes sz
    n = [1, 2, 4, 8].getD sz.val 0 ∧
    (∀ b, s.memAddr h n (.postInc b) = (s.gr h b, some (b, s.gr h b + BitVec.ofNat 32 n))) ∧
    (∀ b, s.memAddr h n (.preDec b) = (s.gr h b - BitVec.ofNat 32 n, some (b, s.gr h b - BitVec.ofNat 32 n))) ∧
    (∀ b x disp, s.memAddr h n (.indexed b x 0 disp) =
      (s.gr h b + (if x = 15 then 0 else s.gr h x * BitVec.ofNat 32 n), none)) ∧
    (∀ b x disp, s.memAddr h n (.indexed b x 1 disp) =
      (s.gr h b + (if x = 15 then 0 else s.gr h x * BitVec.ofNat 32 n) + (disp.setWidth 8).signExtend 32, none)) ∧
    (∀ b x disp, s.memAddr h n (.indexed b x 2 disp) =
      (s.gr h b + (if x = 15 then 0 else s.gr h x * BitVec.ofNat 32 n) + (disp.setWidth 16).signExtend 32, none)) ∧
    (∀ b x disp, s.memAddr h n (.indexed b x 3 disp) =
      (s.gr h b + (if x = 15 then 0 else s.gr h x * BitVec.ofNat 32 n) + disp, none))

/-- LD and FLD (R153, R182, R195): the value read, zero-extended, the base register's update, and nothing else. -/
def Sys2Proof.Claims.LoadsReadTheirRange : Prop :=
  (∀ (d : Fin 16) (sz : Fin 4) (m : MemOp), m ≠ .reserved → (sz = 3 → d.val % 2 = 0) →
    LoadForm (fun iss => .ld iss d sz m) false d (szBytes sz) (1 + memOpLen m) m) ∧
  (∀ (d : Fin 16) (m : MemOp), m ≠ .reserved → LoadForm (fun iss => .fld iss d 2 m) true d 4 (2 + memOpLen m) m)

/-- Addressing modes, and loads from every range that can be read. -/
def Obligations.LoadsAndAddressing : Prop :=
  AddressingModes ∧ LoadsReadTheirRange

/-- ST and FST (R153, R182, R183, R195): the low bytes of Gd, the pair of the 8-byte form or Fd go to Study at once, or
into the write buffer with their address, size and value; the base register is updated, and nothing else changes. -/
def Sys2Proof.Claims.StoresWriteOrBuffer : Prop :=
  (∀ (d : Fin 16) (sz : Fin 4) (m : MemOp), m ≠ .reserved → (sz = 3 → d.val % 2 = 0) →
    StoreForm (fun iss => .st iss d sz m)
      (fun s iss => (s.gr iss.h d).toNat + 2 ^ 32 * (s.gr iss.h (d + 1)).toNat) (szBytes sz) (1 + memOpLen m) m) ∧
  (∀ (d : Fin 16) (m : MemOp), m ≠ .reserved →
    StoreForm (fun iss => .fst iss d 2 m) (fun s iss => (s.fr iss.h d).toNat) 4 (2 + memOpLen m) m)

/-- BUFFERED_WRITE_PERFORM (R183, R236): the oldest entry leaves the buffer and its bytes, least significant first, stand in
memory; every other byte reads as before, and no register, no other sequencer and no array plane changes. One to a register has
the effect of a write by the sequencer, unless its block holds it back. One to an Annex window, to the host or to a remote
window is handed on, counted for MBA and MBW where it leaves the device, and stays in the buffer until it has gone; until then
nothing behind it is performed, which R183 allows and does not require (log entry 91). -/
def Sys2Proof.Claims.BufferedWriteReachesMemory : Prop :=
  ∀ (s : State) (h : Fin 4) (e : WriteEntry) (rest : List WriteEntry), s.coreOn = true → s.quiet = true →
    (s.seq h).wbuf = e :: rest →
    let t := s.modSeq h fun q => { q with wbuf := rest }
    let kept (tag : Nat) : State := s.modSeq h fun q =>
      { q with wbuf := { e with sent := true, tag } :: rest, unacked := q.unacked + 1 }
    (s.cellar.weak = [] → s.cellar.bad = [] →
      (regionOf e.addr = some .landing ∨
        (regionOf e.addr = some .cellar ∧ s.bankSt e.addr = .on ∧ s.bankSt (e.addr + e.size - 1) = .on)) →
      e.sent = false →
      Answers (.bufferedWritePerform h) s (t.setMemBytes e.addr (bytesLE e.size e.data)) ∧
      ∃ t, exec (.bufferedWritePerform h) s = .next t ∧
        (∀ i, i < e.size → t.memByte (e.addr + i) = BitVec.ofNat 8 (e.data / 256 ^ i)) ∧
        (∀ a, a < e.addr ∨ e.addr + e.size ≤ a → t.memByte a = s.memByte a)) ∧
    (e.sent = false → regionOf e.addr = some .regs →
      (∀ x, t.regHolds (.seq h) (e.addr - 0x40000000) = false →
        t.regWrite (.seq h) (e.addr - 0x40000000) (BitVec.ofNat 32 e.data) = some x → x.quiet = true →
        Answers (.bufferedWritePerform h) s x) ∧
      (t.regHolds (.seq h) (e.addr - 0x40000000) = true → Answers (.bufferedWritePerform h) s s)) ∧
    (e.sent = false → regionOf e.addr = some .annex →
      let q : WinReq := {
        who := .store h, region := (e.addr - 0x60000000) / 0x800000, offset := (e.addr - 0x60000000) % 0x800000
        size := e.size, data := some e.data }
      Answers (.bufferedWritePerform h) s
        { s.modSeq h fun q => { q with wbuf := { e with sent := true } :: rest } with
          annex := { s.annex with wins := s.annex.wins ++ [q] } }) ∧
    (e.sent = false → regionOf e.addr = some .pcie → ∀ x,
      (kept 0).pcieIssue (.store h) true e.addr e.size e.data none = some x → x.quiet = true →
      Answers (.bufferedWritePerform h) s x) ∧
    (e.sent = false → regionOf e.addr = some .remote → ∀ dev a tag x, s.remoteTarget (h.val + 1) e.addr = some (dev, a) →
      s.freeTag (.store h) = some tag →
      (kept tag).linkIssue (.store h) { dst := dev } 1 true a e.size e.data
        (s.dueUs (s.getF (rg .linkBulk) F.linkBulk_TMO)) = some x → x.quiet = true →
      Answers (.bufferedWritePerform h) s x) ∧
    (e.sent = true → regionOf e.addr ∈ [some .annex, some .remote, some .pcie] → Answers (.bufferedWritePerform h) s s)

/-- Stores, and the buffered writes they leave. -/
def Obligations.StoresReachMemory : Prop :=
  StoresWriteOrBuffer ∧ BufferedWriteReachesMemory

namespace Sys2Proof.Claims

/-- The detail of the #BF of an access of n bytes at `a` by sequencer h, if it fails its checks. -/
def badAccess (s : State) (h : Fin 4) (a n : Nat) (write : Bool) : Option Nat :=
  if regionOfRange a n = none then some 2
  else if regionOfRange a n = some .regs && (n ≠ 4 || a % 4 ≠ 0) then some 3
  else if regionOfRange a n ∈ [some .annex, some .remote, some .pcie] && a % n ≠ 0 then some 3
  else if regionOfRange a n = some .regs && regAt (a - 0x40000000) = none then some 2
  else if regionOfRange a n = some .cellar && s.bankDownAt a n then some 2
  else if regionOfRange a n = some .remote && s.remoteTarget (h.val + 1) a = none then some 2
  else if regionOfRange a n = some .rom && write then some 4
  else if regionOfRange a n = some .annex && !write && s.regionState ((a - 0x60000000) / 0x800000) ≠ 2 &&
    rangeEmpty s h .annex then some 6
  else none

/-- `c` is an access of n bytes by the memory operand m, with `len` bytes of encoding, that raises #BF where it fails its checks. -/
def BadForm (c : Issue → Instr) (n len : Nat) (m : MemOp) (write : Bool) : Prop :=
  ∀ (iss : Issue) (s : State) (a : Word) (detail : Nat), plainIssue iss false = true →
    s.issues iss.h (iss.prefixes.length + len) = true → s.flgBit iss.h 11 = false →
    let at' := (s.memAddr iss.h n m).1
    badAccess s iss.h at'.toNat n write = some detail →
    canEnter s iss.h 2 (s.seq iss.h).pc false detail (some at') a →
    Answers (c iss) s (entered s iss.h 2 (s.seq iss.h).pc false detail (some at') a)

end Sys2Proof.Claims

/-- A load or store, of G or F registers, that fails its checks raises #BF with the address in EAR (R7, R8, R126, R182, R184, R242,
R346, R414): detail 2 outside every range, where no register stands, in a bank in RETAIN or OFF and in a remote window that the
sequencer does not hold, 3 for an access whose size or alignment its range does not permit, 4 for a store to the boot ROM, 6 for a
load from a region that is not LIVE; nothing is read or written. The model's choices: size and alignment are tested before the
register (log entry 90), and a store tests its bank's state when it issues (log entry 73). -/
def Obligations.BadAccessesRaiseBusFault : Prop :=
  ∀ (d : Fin 16) (m : MemOp), m ≠ .reserved →
    (∀ sz : Fin 4, (sz = 3 → d.val % 2 = 0) →
      BadForm (fun iss => .ld iss d sz m) (szBytes sz) (1 + memOpLen m) m false ∧
      BadForm (fun iss => .st iss d sz m) (szBytes sz) (1 + memOpLen m) m true) ∧
    BadForm (fun iss => .fld iss d 2 m) 4 (2 + memOpLen m) m false ∧
    BadForm (fun iss => .fst iss d 2 m) 4 (2 + memOpLen m) m true

/-! ### Scalar floating point (R103 to R108, R192 to R194) -/

namespace Sys2Proof.Claims

/-- Does a result (word, flags) of a scalar FP operation complete: no SB in TRAP mode, no enabled flag (R108)? -/
def fpCompletes (q : Seq) (r : FpRes) : Bool :=
  !(q.fpctl.getLsbD 2 && r.2.testBit 5) && decide ((r.2 % 32) &&& (q.fpctl.extractLsb' 8 5).toNat = 0)

/-- FPCTL with the flags of a result ORed into SFLG, bits 21 to 16 (R106, R108). -/
def withSflg (fpctl : Word) (fl : Nat) : Word := fpctl ||| BitVec.ofNat 32 (fl % 64 * 65536)

/-- `c` answers `f`, from the rounding mode and the sequencer, in Fd (`toF`) or Gd. -/
def FpForm (c : Issue → Instr) (toF : Bool) (d : Fin 16) (f : Nat → Seq → FpRes) : Prop :=
  ∀ (iss : Issue) (s : State), plainIssue iss false = true → s.issues iss.h (iss.prefixes.length + 4) = true →
    let r := f ((s.seq iss.h).fpctl.toNat % 4) (s.seq iss.h)
    fpCompletes (s.seq iss.h) r = true →
    Answers (c iss) s (s.modSeq iss.h fun q =>
      ({ q with
        f := if toF then q.f.set d r.1 else q.f
        g := if toF then q.g else q.g.set d r.1
        fpctl := withSflg q.fpctl r.2 } : Seq).advance (iss.prefixes.length + 4))

/-- The word read by a sign operation: a subnormal reads as zero of its sign and sets SB (R105, R194). -/
def flushed (w : Word) : FpRes :=
  if w.extractLsb' 23 8 = 0 ∧ w.extractLsb' 0 23 ≠ 0 then (w &&& 0x80000000#32, 32) else (w, 0)

end Sys2Proof.Claims

/-- The scalar FP instructions that complete (R108, R111 to R114, R192 to R194): the destination takes the result, SFLG
collects the flags, and nothing else changes. -/
def Obligations.ScalarFloatingPointCompletes : Prop :=
  (∀ d a b : Fin 16,
    FpForm (fun iss => .fadd iss d a b) true d (fun rm q => fpAdd rm q.f[a] q.f[b]) ∧
    FpForm (fun iss => .fsub iss d a b) true d (fun rm q => fpSub rm q.f[a] q.f[b]) ∧
    FpForm (fun iss => .fmul iss d a b) true d (fun rm q => fpMul rm q.f[a] q.f[b]) ∧
    (∀ c : Fin 16, FpForm (fun iss => .fma iss d a b c) true d (fun rm q => fpFma rm q.f[a] q.f[b] q.f[c])) ∧
    FpForm (fun iss => .fmin iss d a b) true d (fun _ q => fpMinMax false q.f[a] q.f[b]) ∧
    FpForm (fun iss => .fmax iss d a b) true d (fun _ q => fpMinMax true q.f[a] q.f[b]) ∧
    (∀ cc : Fin 8, FpForm (fun iss => .fcmp iss cc d a b) false d (fun _ q => fpCmp cc.val q.f[a] q.f[b]))) ∧
  (∀ d a : Fin 16,
    FpForm (fun iss => .frcp iss d a) true d (fun _ q => fpRcp q.f[a]) ∧
    FpForm (fun iss => .fcvtFi iss d a) false d (fun rm q => fpToInt rm q.f[a]) ∧
    FpForm (fun iss => .fcvtIf iss d a) true d (fun rm q => fpOfInt rm q.g[a]) ∧
    FpForm (fun iss => .fmov iss d a) true d (fun _ q => flushed q.f[a]) ∧
    FpForm (fun iss => .fneg iss d a) true d (fun _ q => ((flushed q.f[a]).1 ^^^ 0x80000000#32, (flushed q.f[a]).2)) ∧
    FpForm (fun iss => .fabs iss d a) true d (fun _ q => ((flushed q.f[a]).1 &&& 0x7FFFFFFF#32, (flushed q.f[a]).2)) ∧
    PlainForm (fun iss => .fmvgf iss d a) 4 (fun iss q =>
      ({ q with f := q.f.set d q.g[a] } : Seq).advance (iss.prefixes.length + 4)) ∧
    PlainForm (fun iss => .fmvfg iss d a) 4 (fun iss q =>
      ({ q with g := q.g.set d q.f[a] } : Seq).advance (iss.prefixes.length + 4)))

/-- FP exceptions of FADD (R108): a result with SB in TRAP mode enters #FS (vector 4) with SFLG and every register as they
were; otherwise one with an enabled flag enters #FE (vector 5) with SFLG updated and the destination not written. -/
def Sys2Proof.Claims.FloatingPointTraps : Prop :=
  ∀ (iss : Issue) (d a b : Fin 16) (s : State) (v : Word), plainIssue iss false = true →
    s.issues iss.h (iss.prefixes.length + 4) = true → s.flgBit iss.h 11 = false →
    let q := s.seq iss.h
    let r := fpAdd (q.fpctl.toNat % 4) q.f[a] q.f[b]
    ((q.fpctl.getLsbD 2 && r.2.testBit 5) = true → canEnter s iss.h 4 q.pc false 0 none v →
      Answers (.fadd iss d a b) s (entered s iss.h 4 q.pc false 0 none v)) ∧
    ((q.fpctl.getLsbD 2 && r.2.testBit 5) = false → (r.2 % 32) &&& (q.fpctl.extractLsb' 8 5).toNat ≠ 0 →
      let t := s.modSeq iss.h fun q => { q with fpctl := withSflg q.fpctl r.2 }
      canEnter t iss.h 5 q.pc false 0 none v →
      Answers (.fadd iss d a b) s (entered t iss.h 5 q.pc false 0 none v))

namespace Sys2Proof.Claims

/-- Is a word a NaN, a signalling NaN, a subnormal, finite? -/
def wNaN (w : Word) : Bool := decide (w.extractLsb' 23 8 = 255#8) && decide (w.extractLsb' 0 23 ≠ 0)
def wSignals (w : Word) : Bool := wNaN w && !w.getLsbD 22
def wSubnormal (w : Word) : Bool := decide (w.extractLsb' 23 8 = 0#8) && decide (w.extractLsb' 0 23 ≠ 0)
def wFinite (w : Word) : Bool := decide (w.extractLsb' 23 8 ≠ 255#8)

/-- The rational number that a finite word stands for, a subnormal read as zero (R103, R105). -/
def wValue (w : Word) : ℚ :=
  if w.extractLsb' 23 8 = 0#8 then 0
  else (if w.getLsbD 31 then -1 else 1) * (2 ^ 23 + (w.extractLsb' 0 23).toNat : ℚ) *
    (2 : ℚ) ^ (((w.extractLsb' 23 8).toNat : ℤ) - 150)

end Sys2Proof.Claims

/-- NaNs (R104): an operation with a NaN operand returns the default NaN, and raises IV where an operand signals. -/
def Sys2Proof.Claims.NanOperandsGiveDefaultNan : Prop :=
  ∀ (rm : Nat) (a b c : Word),
    (wNaN a = true ∨ wNaN b = true →
      (fpAdd rm a b).1 = 0x7FC00000 ∧ (fpSub rm a b).1 = 0x7FC00000 ∧ (fpMul rm a b).1 = 0x7FC00000) ∧
    (wSignals a = true ∨ wSignals b = true →
      (fpAdd rm a b).2.testBit 0 = true ∧ (fpSub rm a b).2.testBit 0 = true ∧ (fpMul rm a b).2.testBit 0 = true) ∧
    (wNaN a = true ∨ wNaN b = true ∨ wNaN c = true → (fpFma rm a b c).1 = 0x7FC00000)

/-- No operation produces a subnormal (R103). -/
def Sys2Proof.Claims.NoSubnormalResults : Prop :=
  ∀ (rm : Nat) (a b c : Word),
    wSubnormal (fpAdd rm a b).1 = false ∧ wSubnormal (fpSub rm a b).1 = false ∧ wSubnormal (fpMul rm a b).1 = false ∧
      wSubnormal (fpFma rm a b c).1 = false ∧ wSubnormal (fpMinMax false a b).1 = false ∧
      wSubnormal (fpMinMax true a b).1 = false ∧ wSubnormal (fpRcp a).1 = false ∧ wSubnormal (fpOfInt rm a).1 = false

/-- FCMP orders finite operands as numbers, with -0 equal to +0 (R113). -/
def Sys2Proof.Claims.CompareOrdersNumbers : Prop :=
  ∀ a b : Word, wFinite a = true → wFinite b = true →
    ((fpCmp 0 a b).1 = 1 ↔ wValue a = wValue b) ∧ ((fpCmp 1 a b).1 = 1 ↔ wValue a ≠ wValue b) ∧
    ((fpCmp 2 a b).1 = 1 ↔ wValue a < wValue b) ∧ ((fpCmp 3 a b).1 = 1 ↔ wValue a ≤ wValue b) ∧
    ((fpCmp 4 a b).1 = 1 ↔ wValue b < wValue a) ∧ ((fpCmp 5 a b).1 = 1 ↔ wValue b ≤ wValue a) ∧
    (fpCmp 6 a b).1 = 0 ∧ (fpCmp 7 a b).1 = 1

/-- Floating point: traps, NaN, results below the normal range, and comparison. -/
def Obligations.FloatingPointRules : Prop :=
  FloatingPointTraps ∧ NanOperandsGiveDefaultNan ∧ NoSubnormalResults ∧ CompareOrdersNumbers

/-! ### System instructions of page 4 (R196 to R208) -/

namespace Sys2Proof.Claims

/-- A sequencer with FLG.Z written. -/
def withZ (z : Bool) (q : Seq) : Seq := { q with flg := setBits q.flg 0 1 (if z then 1 else 0) }

/-- A sequencer with the latches of v cleared, Gd = v and Z = z: what a WAITEV leaves (R200). -/
def evResult (d : Fin 16) (v : Word) (z : Bool) (q : Seq) : Seq :=
  { withZ z q with ev := q.ev &&& ~~~v, g := q.g.set d v }

/-- A sequencer whose WAITEV `w` ends with Gd = v, Z = z and the latches of v cleared (R200). -/
def waited (w : EvWait) (v : Word) (z : Bool) (q : Seq) : Seq :=
  let flg := setBits q.flg 0 1 (if z then 1 else 0)
  { q with
    run := .running, wait := none, ev := q.ev &&& ~~~v, g := q.g.set w.d v, pc := w.next, atomRep := false
    flg := if w.te then setBits flg 10 1 1 else flg }

/-- Entry i armed at a tick with the settings that its registers hold (R372, R398). -/
def armedNow (s : State) (i : Fin 256) (tick : Nat) : Armed :=
  { tick
    action := s.getF (rg .leCtl i) F.leCtl_ACTION, arg := s.reg (rg .leArg i)
    group := s.getF (rg .leCtl i) F.leCtl_GROUP, latePol := s.flag (rg .leCtl i) F.leCtl_LATEPOL
    irq := s.flag (rg .leCtl i) F.leCtl_IRQ
    period := s.getF (rg .lePer i) F.lePer_PERIOD, reps := s.getF (rg .lePer i) F.lePer_REPS }

/-- Entry i of the launch table holds `a` as armed, and ARMED shows it (R372). -/
def putArmed (s : State) (i : Fin 256) (a : Option Armed) : State :=
  ({ s with mantel := { s.mantel with armed := s.mantel.armed.set i a } } : State).setF (rg .leCtl i) F.leCtl_ARMED
    (if a.isSome then 1 else 0)

end Sys2Proof.Claims

/-- WAITEV, WAITEV_HIT, WAITEV_TIMEOUT and SETEV (R197, R200, R202): with a selected latch set, or with Gb = 0, WAITEV ends at
issue; otherwise the wait begins with the masks in force. It ends with the selected latches in Gd, cleared, and Z = 0, or with
Gd = 0 and Z = 1; SETEV sets one latch of one sequencer. -/
def Sys2Proof.Claims.EventLatchInstructions : Prop :=
  (∀ d a b : Fin 16, PlainForm (fun iss => .waitev iss d a b) 4 fun iss q =>
    if q.ev &&& q.g[a] ≠ 0 then (evResult d (q.ev &&& q.g[a]) false q).advance (iss.prefixes.length + 4)
    else if q.g[b] = 0 then (evResult d 0 true q).advance (iss.prefixes.length + 4)
    else { q with
      run := .waiting, atomRep := false
      wait := some { d, mask := q.g[a], limit := q.g[b], next := q.pc + BitVec.ofNat 32 (iss.prefixes.length + 4)
                     te := q.flg.getLsbD 9 } }) ∧
  (∀ (h : Fin 4) (s : State) (w : EvWait), s.calm = true → s.coreOn = true → (s.seq h).wait = some w →
    (s.seq h).run = .waiting → (s.seq h).ev &&& w.mask ≠ 0 →
    Answers (.waitevHit h) s (s.modSeq h (waited w ((s.seq h).ev &&& w.mask) false))) ∧
  (∀ (h : Fin 4) (s : State) (w : EvWait), s.calm = true → s.coreOn = true → (s.seq h).wait = some w →
    (s.seq h).run = .waiting → (s.seq h).ev &&& w.mask = 0 → w.limit ≠ 0xFFFFFFFF →
    Answers (.waitevTimeout h) s (s.modSeq h (waited w 0 true))) ∧
  (∀ (a : Fin 16) (iss : Issue) (s : State), plainIssue iss false = true →
    s.issues iss.h (iss.prefixes.length + 4) = true →
    let v := (s.gr iss.h a).toNat
    Answers (.setev iss a) s ((s.modSeq (Fin.ofNat 4 (v / 256 % 4)) fun q =>
      { q with ev := q.ev ||| (1#32 <<< (v % 32)) }).modSeq iss.h fun q => q.advance (iss.prefixes.length + 4)))

/-- EMITEV, LARM, LSTOP and TICK (R203 to R206, R372): what they queue, arm or disarm, and Z; LARM writes THI:TLO in ABS
mode; the firings that are due when LSTOP disarms take place first (R205, R379). -/
def Sys2Proof.Claims.LaunchAndEventInstructions : Prop :=
  (∀ (a b : Fin 16) (iss : Issue) (s : State), plainIssue iss false = true →
    s.issues iss.h (iss.prefixes.length + 4) = true →
    ((∀ k : Fin 6, s.joined k = false) →
      Answers (.emitev iss a b) s (s.modSeq iss.h fun q => (withZ false q).advance (iss.prefixes.length + 4))) ∧
    ((∃ k : Fin 6, s.joined k = true) → (s.seq iss.h).evq.length < 4 →
      Answers (.emitev iss a b) s (s.modSeq iss.h fun q =>
        (withZ true { q with evq := q.evq ++ [(q.g[a].setWidth 16, q.g[b])] }).advance (iss.prefixes.length + 4))) ∧
    ((∃ k : Fin 6, s.joined k = true) → 4 ≤ (s.seq iss.h).evq.length →
      Answers (.emitev iss a b) s (s.modSeq iss.h fun q => { q with atomRep := false }))) ∧
  (∀ (a b c : Fin 16) (iss : Issue) (s : State), plainIssue iss false = true →
    s.issues iss.h (iss.prefixes.length + 4) = true →
    let i : Fin 256 := Fin.ofNat 256 (s.gr iss.h a).toNat
    let tick := (s.gr iss.h b).toNat + 2 ^ 32 * (s.gr iss.h c).toNat
    let owner := s.getF (rg .leCtl i) F.leCtl_OWNER
    (owner = 0 ∨ owner = iss.h.val + 1 → s.count.toNat < tick →
      let o := s.setF (rg .leCtl i) F.leCtl_OWNER (iss.h.val + 1)
      let t := if s.getF (rg .leCtl i) F.leCtl_MODE = 0 then
        (o.setReg (rg .leTlo i) (s.gr iss.h b)).setReg (rg .leThi i) (s.gr iss.h c) else o
      Answers (.larm iss a b c) s ((putArmed t i (some (armedNow t i tick))).modSeq iss.h fun q =>
        (withZ true q).advance (iss.prefixes.length + 4))) ∧
    (owner ≠ 0 → owner ≠ iss.h.val + 1 →
      Answers (.larm iss a b c) s ((s.mantelRefuse i iss.h false 0).modSeq iss.h fun q =>
        (withZ false q).advance (iss.prefixes.length + 4)))) ∧
  (∀ (a : Fin 16) (iss : Issue) (s : State), plainIssue iss false = true →
    s.issues iss.h (iss.prefixes.length + 4) = true →
    let i : Fin 256 := Fin.ofNat 256 (s.gr iss.h a).toNat
    let mine := (s.mantel.armed[i]).isSome && decide (s.getF (rg .leCtl i) F.leCtl_OWNER = iss.h.val + 1)
    Answers (.lstop iss a) s ((if mine then putArmed (s.fireUpTo i) i none else s).modSeq iss.h fun q =>
      (withZ mine q).advance (iss.prefixes.length + 4))) ∧
  (∀ (d a : Fin 16) (iss : Issue) (s : State), plainIssue iss false = true →
    s.issues iss.h (iss.prefixes.length + 4) = true →
    Answers (.tick iss d a) s (s.modSeq iss.h fun q =>
      ({ q with g := (q.g.set d (s.count.setWidth 32)).set a ((s.count >>> 32).setWidth 32) } : Seq).advance
        (iss.prefixes.length + 4)))

/-- Event latches, EVENTs and launches from the sequencers. -/
def Obligations.EventAndLaunchInstructions : Prop :=
  EventLatchInstructions ∧ LaunchAndEventInstructions

/-- MBR, MBW, MBF and MBA (R208): each completes when its condition holds, and MBW and MBF wait, with the pc where it is,
for a write not yet acknowledged, or one of ARRAY_WOWN, ARRAY_BOUND or ARRAY_TOPO not yet in its register. -/
def Sys2Proof.Claims.BarriersComplete : Prop :=
  (PlainForm (fun iss => .mbr iss) 2 fun iss q => q.advance (iss.prefixes.length + 2)) ∧
  (∀ (iss : Issue) (s : State), plainIssue iss false = true → s.issues iss.h (iss.prefixes.length + 2) = true →
    ((s.seq iss.h).wbuf = [] → (s.seq iss.h).unacked = 0 → (s.seq iss.h).arrWrites = [] →
      Answers (.mbw iss) s (s.modSeq iss.h fun q => q.advance (iss.prefixes.length + 2)) ∧
      Answers (.mbf iss) s (s.modSeq iss.h fun q => q.advance (iss.prefixes.length + 2))) ∧
    ((s.seq iss.h).wbuf = [] → ((s.seq iss.h).unacked ≠ 0 ∨ (s.seq iss.h).arrWrites ≠ []) →
      Answers (.mbw iss) s (s.modSeq iss.h fun q => { q with atomRep := false }) ∧
      Answers (.mbf iss) s (s.modSeq iss.h fun q => { q with atomRep := false })) ∧
    ((s.seq iss.h).jobs = [] → (s.seq iss.h).caps = [] →
      Answers (.mba iss) s (s.modSeq iss.h fun q => q.advance (iss.prefixes.length + 2))))

/-- WGIVE (R26, R53, R207): with the right to give the wing, OWN names the new owner, and Z = 1; without it nothing but the
record in ARRAY_CLAIM changes, and Z = 0; where the wing is the new owner's already OWN stays, and Z = 1. With Z = 1 the giver's
WM bit goes, but where it names itself. -/
def Sys2Proof.Claims.WingIsHandedOver : Prop :=
  ∀ (a b : Fin 16) (iss : Issue) (s : State), plainIssue iss false = true →
    s.issues iss.h (iss.prefixes.length + 4) = true → s.arrayWaits iss.h = false → (s.seq iss.h).jobs = [] →
    (s.seq iss.h).caps = [] →
    let w := (s.gr iss.h a).toNat % 8
    let n := (s.gr iss.h b).toNat % 4
    let given (q : Seq) : Seq := { q with wm := if n = iss.h.val then q.wm else setBits q.wm w 1 0 }
    (s.wingOwner w ≠ n → s.ownRight iss.h w = true →
      Answers (.wgive iss a b) s ((s.setF (rg .arrayWown) (F.arrayWown_OWN w) n).modSeq iss.h fun q =>
        (withZ true (given q)).advance (iss.prefixes.length + 4))) ∧
    (s.wingOwner w ≠ n → s.ownRight iss.h w = false →
      Answers (.wgive iss a b) s ((s.arrayRefuse iss.h.val w).modSeq iss.h fun q =>
        (withZ false q).advance (iss.prefixes.length + 4))) ∧
    (s.wingOwner w = n →
      Answers (.wgive iss a b) s (s.modSeq iss.h fun q => (withZ true (given q)).advance (iss.prefixes.length + 4)))

/-- Barriers, and the hand-over of a wing. -/
def Obligations.BarriersAndHandOver : Prop :=
  BarriersComplete ∧ WingIsHandedOver

/-! ### Array and lane instructions, the Chimney, micro-traps (R47, R48, R76, R91, R95, R135, R139) -/

namespace Sys2Proof.Claims

/-- One micro-operation of the routine in progress on sequencer h, and the routine's offset past it. -/
def microOnce (h : Fin 4) (s : State) : State :=
  match (s.seq h).routine with
  | none => s
  | some r => (s.microStep h r (r.step r.offset)).modSeq h fun q =>
      { q with routine := q.routine.map fun r => { r with offset := r.offset + 1 } }

/-- `n` micro-operations. -/
def microTimes (h : Fin 4) : Nat → State → State
  | 0, s => s
  | n + 1, s => microTimes h n (microOnce h s)

/-- The routine of an array or lane instruction as it issues (R72, R120, R229). -/
def issuedRoutine (s : State) (iss : Issue) (op : ArrOp) (mode : StepMode) (word : Word) (len : Nat) : Routine :=
  let q := s.seq iss.h
  s.reform iss.h
    { op, addr := q.pc, len, mask := s.effMask iss, mode, opword := word
      rep := false, repa := false, atom := hasAtom iss, te := q.flg.getLsbD 9
      d := none, a := none, b := none, c := none
      gval := s.scalarOperand iss.h op word
      rm := q.fpctl.toNat % 4, sub := q.fpctl.getLsbD 2, lfp := q.lfp.toNat % 4096
      begun := true }

/-- A plain array or lane instruction of `len` bytes passes its checks on a sequencer with nothing in its pipeline (R31, R55,
R155, R210): microcode is loaded, its words are sound, and the planes, wings and flags named are there. -/
def arrayReady (s : State) (iss : Issue) (op : ArrOp) (mode : StepMode) (word : Word) (len : Nat) : Bool :=
  plainIssue iss false && s.issues iss.h (iss.prefixes.length + len) && decide (iss.stop = none) &&
  (s.seq iss.h).csDigest.isSome && (s.seq iss.h).csBad.isEmpty && (s.seq iss.h).jobs.isEmpty &&
  (s.seq iss.h).caps.isEmpty && (s.seq iss.h).susp.isEmpty && !s.arrayWaits iss.h &&
  decide (s.getF (rg .sysPwrstat) F.sysPwrstat_STATE ≠ 1) && !op.badWord word && !op.badRange word &&
  decide (s.afCheck iss.h op mode word (s.effMask iss) (op.extends false true) = none) &&
  (List.range 8).all (fun w => !(wingIn (s.effMask iss) w && s.wingClearing w))

/-- The state after a plain array instruction: its `n` micro-operations, the stepped pointers, and the pc past it. -/
def arrayDone (s : State) (iss : Issue) (op : ArrOp) (mode : StepMode) (word : Word) (len n : Nat) : State :=
  let h := iss.h
  let r := issuedRoutine s iss op mode word (iss.prefixes.length + len)
  let t := (microTimes h n (s.modSeq h fun q => { q with routine := some r })).stepPointers h r
  t.modSeq h fun q => { q with
    routine := none, pc := (s.seq h).pc + BitVec.ofNat 32 (iss.prefixes.length + len)
    flg := if r.te then setBits q.flg 10 1 1 else q.flg }

/-- `c` runs as routine `op` of `n word` micro-operations (R76). -/
def ArrayForm (c : Issue → P1 → Instr) (op : ArrOp) (n : Word → Nat) : Prop :=
  ∀ (iss : Issue) (a : P1) (s : State), arrayReady s iss op a.mode a.word 7 = true →
    Answers (c iss a) s (arrayDone s iss op a.mode a.word 7 (n a.word))

/-- The width W of the operand word (R164, R165): 1 to 64. -/
def opW (op : ArrOp) (word : Word) : Nat := op.width word

end Sys2Proof.Claims

/-- The array instructions run (R76, R89, R91): each executes the number of micro-operations of R76 from its schedule on the
wings of its mask, then steps its pointers and completes. -/
def Obligations.ArrayInstructionsRun : Prop :=
  ArrayForm .aadd .aadd (fun w => opW .aadd w + 1) ∧
  ArrayForm .aaddi .aaddi (fun w => opW .aaddi w + 1) ∧
  ArrayForm .asub .asub (fun w => 1 + opW .asub w + 1) ∧
  ArrayForm .asubi .asubi (fun w => 1 + opW .asubi w + 1) ∧
  ArrayForm .amul .amul (fun w => opW .amul w * (opW .amul w + 2)) ∧
  ArrayForm .acmp .acmp (fun w => opW .acmp w + 2) ∧
  ArrayForm .acmpi .acmpi (fun w => opW .acmpi w + 2) ∧
  ArrayForm .asel .asel (fun w => 2 * opW .asel w + 4) ∧
  ArrayForm .aset .aset (fun w => opW .aset w) ∧
  (∀ tt : Fin 16, ArrayForm (fun iss a => .alog iss tt a) (.alog tt) (fun w => opW (.alog tt) w)) ∧
  (∀ tt : Fin 16, ArrayForm (fun iss a => .abit iss tt a) (.abit tt) (fun _ => 1)) ∧
  (∀ dir : ShiftDir, ArrayForm (fun iss a => .ashf iss dir a) (.ashf dir)
    (fun w => (shiftHops dir (opDist w)).length * opW (.ashf dir) w + 1)) ∧
  ArrayForm .acnt .acnt (fun _ => 7) ∧
  ArrayForm .aloc .aloc (fun _ => 7)

namespace Sys2Proof.Claims

/-- Bit i of plane k of an operand, in unit u (R67). -/
def slotBit (s : State) (u i : Nat) (t : Option Slot) (k : Nat) : Bool := (s.plane u (slotPlane t k)).getLsbD i

/-- The number that the first n planes of an operand hold in PE i of unit u. -/
def slotNum (s : State) (u i : Nat) (t : Option Slot) (n : Nat) : Nat :=
  ((List.range n).map fun k => if slotBit s u i t k then 2 ^ k else 0).sum

/-- The first m planes of the destination d stand apart from one another and from the first n planes of t. -/
abbrev standsClear (d : Option Slot) (m : Nat) (t : Option Slot) (n : Nat) : Prop :=
  (∀ k, k < m → slotPlane d k < 4096 ∧ ∀ j, j < k → slotPlane d j ≠ slotPlane d k) ∧
    ∀ k, k < m → ∀ j, j < n → slotPlane d k ≠ slotPlane t j

/-- From s to t, in the PEs of a mask with X = 1, plane k of the first m of d takes the bit g u i k; every other bit of every
plane stays (R37, R73). -/
def PlanesTake (s t : State) (mask : BitVec 8) (d : Option Slot) (m : Nat) (g : Nat → Nat → Nat → Bool) : Prop :=
  ∀ u, u < 10 →
    (unitExec mask u = false → ∀ p, p < 4096 → t.plane u p = s.plane u p) ∧
    (unitExec mask u = true → ∀ i, (unitOnes u).getLsbD i = true →
      (∀ k, k < m → slotBit t u i d k = if (s.pe u).x.getLsbD i then g u i k else slotBit s u i d k) ∧
      ∀ p, p < 4096 → (∀ k, k < m → slotPlane d k ≠ p) → (t.plane u p).getLsbD i = (s.plane u p).getLsbD i)

/-- C is 0 in every PE (R74). -/
abbrev carriesClear (s : State) : Prop := ∀ u, u < 10 → (s.pe u).c = 0

/-- A plain array instruction `c` whose destination stands apart from its sources writes to its first `m` planes, from its
routine r at issue and in each PE with X = 1, the bits of `g`. -/
def LeavesForm (c : Issue → P1 → Instr) (op : ArrOp) (m na nb : Word → Nat)
    (g : State → Routine → Word → Nat → Nat → Nat → Bool) : Prop :=
  ∀ (iss : Issue) (a : P1) (s : State), arrayReady s iss op a.mode a.word 7 = true → carriesClear s →
    let r := issuedRoutine s iss op a.mode a.word (iss.prefixes.length + 7)
    standsClear r.d (m a.word) r.a (na a.word) → standsClear r.d (m a.word) r.b (nb a.word) →
    ∃ t, exec (c iss a) s = .next t ∧ PlanesTake s t r.mask r.d (m a.word) (g s r a.word)

/-- A comparison leaves F combined with its outcome in the PEs with X = 1, and no plane changed (R81). -/
def ComparesForm (c : Issue → P1 → Instr) (op : ArrOp) (second : State → Routine → Nat → Nat → Nat → Nat) : Prop :=
  ∀ (iss : Issue) (a : P1) (s : State), arrayReady s iss op a.mode a.word 7 = true → carriesClear s →
    let r := issuedRoutine s iss op a.mode a.word (iss.prefixes.length + 7)
    let w := op.width a.word
    ∃ t, exec (c iss a) s = .next t ∧ PlanesTake s t r.mask none 0 (fun _ _ _ => false) ∧
      ∀ u, u < 10 → unitExec r.mask u = true → ∀ i, (unitOnes u).getLsbD i = true →
        let x := slotNum s u i r.a w
        let y := second s r w u i
        let sg (v : Nat) : Int := if v < 2 ^ (w - 1) then v else v - 2 ^ w
        let rel := [decide (x = y), decide (x ≠ y), decide (x < y), decide (y ≤ x), decide (sg x < sg y),
          decide (sg y ≤ sg x)].getD (opAux a.word % 8) false
        let f := (s.pe u).f.getLsbD i
        (t.pe u).f.getLsbD i = if (s.pe u).x.getLsbD i then
          [rel, f && rel, f || rel, f && !rel].getD (opAux a.word / 8) false else f

/-- Planes `v` of the units of a mask, moved by hops: each PE reads its neighbour's bit, 0 from a unit that does not execute
(R43, R84, R85). -/
def hopped (s : State) (mask : BitVec 8) : List NDir → (Nat → Plane) → Nat → Plane
  | [], v => v
  | d :: l, v => hopped s mask l fun u => s.neighbour d u fun u => if unitExec mask u then v u else 0

end Sys2Proof.Claims

/-- What array instructions leave in the planes (R73, R74, R76 to R84, R189), for a destination apart from the sources: the sum
with its carry, the difference with its bit of no borrow, the product, the selection, the truth table, the scalar's bits and the
shifted operand; a comparison leaves F; nothing else in any plane changes. -/
def Sys2Proof.Claims.ArrayResultsInPlanes : Prop :=
  let W (op : ArrOp) (word : Word) : Nat := op.width word
  let k (r : Routine) (w : Nat) : Nat := r.gval.toNat % 2 ^ w
  let none' : Word → Nat := fun _ => 0
  LeavesForm .aadd .aadd (fun v => W .aadd v + 1) (W .aadd) opWb (fun s r v u i j =>
    (slotNum s u i r.a (W .aadd v) + slotNum s u i r.b (opWb v)).testBit j) ∧
  LeavesForm .aaddi .aaddi (fun v => W .aaddi v + 1) (W .aaddi) none' (fun s r v u i j =>
    (slotNum s u i r.a (W .aaddi v) + k r (W .aaddi v)).testBit j) ∧
  LeavesForm .asub .asub (fun v => W .asub v + 1) (W .asub) opWb (fun s r v u i j =>
    let a := slotNum s u i r.a (W .asub v)
    let b := slotNum s u i r.b (opWb v)
    if j = W .asub v then decide (b ≤ a) else (2 ^ W .asub v + a - b).testBit j) ∧
  LeavesForm .asubi .asubi (fun v => W .asubi v + 1) (W .asubi) none' (fun s r v u i j =>
    let a := slotNum s u i r.a (W .asubi v)
    let b := k r (W .asubi v)
    if j = W .asubi v then decide (b ≤ a) else (2 ^ W .asubi v + a - b).testBit j) ∧
  LeavesForm .amul .amul (fun v => 2 * W .amul v) (W .amul) (W .amul) (fun s r v u i j =>
    (slotNum s u i r.a (W .amul v) * slotNum s u i r.b (W .amul v)).testBit j) ∧
  LeavesForm .asel .asel (W .asel) (W .asel) (W .asel) (fun s r _ u i j =>
    if (s.pe u).f.getLsbD i then slotBit s u i r.a j else slotBit s u i r.b j) ∧
  LeavesForm .aset .aset (W .aset) none' none' (fun _ r _ _ _ j => r.gval.getLsbD j) ∧
  (∀ tt : Fin 16, LeavesForm (fun iss a => .alog iss tt a) (.alog tt) (W (.alog tt)) (W (.alog tt)) (W (.alog tt))
    fun s r _ u i j => tt.val.testBit (2 * (if slotBit s u i r.a j then 1 else 0) + if slotBit s u i r.b j then 1 else 0)) ∧
  (∀ dir : ShiftDir, LeavesForm (fun iss a => .ashf iss dir a) (.ashf dir) (W (.ashf dir)) (W (.ashf dir)) none'
    fun s r v u i j => (hopped s r.mask (shiftHops dir (opDist v)) (fun u => s.plane u (slotPlane r.a j)) u).getLsbD i) ∧
  ComparesForm .acmp .acmp (fun s r w u i => slotNum s u i r.b w) ∧
  ComparesForm .acmpi .acmpi (fun _ r w _ _ => k r w)

namespace Sys2Proof.Claims

/-- The unit and PE at a position of the row: in 1D mode of the array's one row, in 2D mode of row `row` (R22, R42). -/
def unitAt (twoD : Bool) (row : Nat) (t : Int) : Option (Nat × Nat) :=
  if twoD then
    if t = -1 then some (0, row) else if t = 1024 then some (9, row)
    else if 0 ≤ t ∧ t < 1024 then some ((t / 128).toNat + 1, 128 * row + (t % 128).toNat) else none
  else if -64 ≤ t ∧ t < 0 then some (0, (t + 64).toNat)
  else if 0 ≤ t ∧ t < 65536 then some ((t / 8192).toNat + 1, (t % 8192).toNat)
  else if 65536 ≤ t ∧ t ≤ 65599 then some (9, (t - 65536).toNat)
  else none

/-- The row and the position along it of PE i of unit u. -/
def placeOf (twoD : Bool) (u i : Nat) : Nat × Int :=
  if twoD then
    if u = 0 then (i, -1) else if u = 9 then (i, 1024) else (i / 128, 128 * (u - 1 : Int) + (i % 128 : Nat))
  else (0, if u = 0 then i - 64 else 8192 * (u - 1 : Int) + i)

/-- The number of wings in the segment of wing w: those that only JOIN boundaries part from it (R41). -/
def segmentWings (mode : Nat → Nat) (w : Nat) : Nat :=
  ((List.range 8).filter fun v => (List.range 9).all fun k => !(decide (min v w < k) && decide (k ≤ max v w)) || mode k = 0).length

/-- What PE i of unit u reads along its row at displacement d, of the operands b (R42). -/
def rowRead (s : State) (b : Nat → Plane) (u i : Nat) (d : Int) : Bool :=
  let place := placeOf s.twoD u i
  let bOf (t : Int) : Bool :=
    match unitAt s.twoD place.1 t with
    | some (v, j) => (b v).getLsbD j
    | none => false
  let t := place.2 + d
  let halo := u = 0 ∨ u = 9
  let mode := s.boundMode (if 0 < d then u else u - 1)
  if (unitAt s.twoD place.1 t).map (·.1) = some u then bOf t
  else if (u = 0 ∧ d < 0) ∨ (u = 9 ∧ 0 < d) then false
  else if mode = 0 then bOf t
  else if mode = 1 ∨ halo then false
  else
    let width : Int := segmentWings s.boundMode (u - 1) * (if s.twoD then 128 else 8192)
    bOf (if 0 < d then t - width else t + width)

/-- What PE i of unit u reads from the row above (`up`) or below: 0 in 1D mode (R39, R40). -/
def columnRead (s : State) (b : Nat → Plane) (u i : Nat) (up : Bool) : Bool :=
  let k := if u = 0 ∨ u = 9 then 1 else 128
  let r := i / k
  let wing := if u = 0 then 0 else if u = 9 then 7 else u - 1
  s.twoD && (if up then
      if 0 < r then (b u).getLsbD (i - k) else (s.getF (rg .arrayTopo) F.arrayTopo_NSEDGE).testBit wing && (b u).getLsbD (i + 63 * k)
    else if r < 63 then (b u).getLsbD (i + k)
    else (s.getF (rg .arrayTopo) F.arrayTopo_NSEDGE).testBit wing && (b u).getLsbD (i - 63 * k))

end Sys2Proof.Claims

/-- Neighbour reads (R39 to R42): what each direction delivers in each PE, along the row by the mode of the boundary that the read
crosses, and across rows by NSEDGE. -/
def Sys2Proof.Claims.NeighbourReads : Prop :=
  ∀ (s : State) (b : Nat → Plane) (u i : Nat), u < 10 → (unitOnes u).getLsbD i = true → (∀ k, k < 9 → s.boundMode k < 3) →
    (∀ j, 64 ≤ j → (b 0).getLsbD j = false ∧ (b 9).getLsbD j = false) →
    (s.neighbour .e u b).getLsbD i = rowRead s b u i 1 ∧ (s.neighbour .w u b).getLsbD i = rowRead s b u i (-1) ∧
    (s.neighbour .e32 u b).getLsbD i = rowRead s b u i 32 ∧ (s.neighbour .w32 u b).getLsbD i = rowRead s b u i (-32) ∧
    (s.neighbour .north u b).getLsbD i = columnRead s b u i true ∧
    (s.neighbour .south u b).getLsbD i = columnRead s b u i false

namespace Sys2Proof.Claims

/-- The routine of a lane instruction as it issues; the operand field is the word's low half (R169, R229). -/
def laneRoutine (s : State) (iss : Issue) (op : LaneOp) (half : Bool) (a : P2) : Routine :=
  issuedRoutine s iss (.lane op half) a.mode (a.fld.setWidth 32) (iss.prefixes.length + 5)

/-- The state after a plain lane instruction on a sequencer with an empty pipeline: `n` window slots of loads, the
instruction behind its load stage with the words loaded, the stepped pointers, and the pc past it (R95, R96). -/
def laneDone (s : State) (iss : Issue) (op : LaneOp) (half : Bool) (a : P2) (n : Nat) : State :=
  let h := iss.h
  let r := laneRoutine s iss op half a
  let t := microTimes h n (s.modSeq h fun q => { q with routine := some r })
  let t := t.modSeq h fun q => { q with
    jobs := match r.d, q.routine with
      | some d, some r' => [{ op, half, mask := r.mask, d, lfp := r.lfp, rm := r.rm, sub := r.sub, buf := r'.buf }]
      | _, _ => [] }
  (t.stepPointers h r).modSeq h fun q => { q with
    routine := none, pc := (s.seq h).pc + BitVec.ofNat 32 (iss.prefixes.length + 5)
    flg := if r.te then setBits q.flg 10 1 1 else q.flg }

/-- A plain lane instruction passes its checks on a sequencer with nothing in its pipeline. -/
def laneReady (s : State) (iss : Issue) (op : LaneOp) (half : Bool) (a : P2) : Bool :=
  arrayReady s iss (.lane op half) a.mode (a.fld.setWidth 32) 5

/-- `c` runs as lane instruction `op`: the loads take the 64 or, for a paired form, 32 slots of the window (R95). -/
def LaneForm (c : Issue → P2 → Instr) (op : LaneOp) (half : Bool) : Prop :=
  ∀ (iss : Issue) (a : P2) (s : State), laneReady s iss op half a = true →
    ((s.seq iss.h).fpctl.getLsbD 2 && op.isFp) = false →
    Answers (c iss a) s (laneDone s iss op half a (if half then 32 else 64))

/-- A floating-point lane instruction with the mode TRAP: it stores before it completes, captures its SB plane, and a PE that
presents 1 brings the entry to #LA with the next instruction as the return address (R109). -/
def LaneTrapForm (c : Issue → P2 → Instr) (op : LaneOp) : Prop :=
  ∀ (iss : Issue) (a : P2) (s : State), laneReady s iss op false a = true → (s.seq iss.h).fpctl.getLsbD 2 = true →
    let h := iss.h
    let t := (((laneDone s iss op false a 64).storeJob h)).completeCapture h
    (t.flag (rg .chimCnt h.val) F.chimCnt_OR = false → Answers (c iss a) s t) ∧
    (∀ x, t.flag (rg .chimCnt h.val) F.chimCnt_OR = true → canEnter t h 6 (t.seq h).pc false 0 none x →
      Answers (c iss a) s (entered t h 6 (t.seq h).pc false 0 none x))

end Sys2Proof.Claims

/-- The lane instructions run (R93 to R101): each loads its operands over its window, stays behind its load stage for the
store, and steps its pointers. -/
def Sys2Proof.Claims.LaneInstructionsRun : Prop :=
  (∀ half : Bool,
    LaneForm (fun iss a => .ladd iss half a) .ladd half ∧ LaneForm (fun iss a => .lsub iss half a) .lsub half ∧
    LaneForm (fun iss a => .lmul iss half a) .lmul half ∧
    ∀ sg : Bool,
      LaneForm (fun iss a => .lmulf iss sg half a) (.lmulf sg) half ∧
      LaneForm (fun iss a => .lmin iss sg half a) (.lmin sg) half ∧
      LaneForm (fun iss a => .lmax iss sg half a) (.lmax sg) half) ∧
  LaneForm .lfadd .lfadd false ∧ LaneForm .lfsub .lfsub false ∧ LaneForm .lfmul .lfmul false ∧
  LaneForm .lfma .lfma false ∧ LaneForm .lfmin .lfmin false ∧ LaneForm .lfmax .lfmax false ∧
  LaneForm .lfrcp .lfrcp false ∧ LaneForm .lfcvtFi .lfcvtFi false ∧ LaneForm .lfcvtIf .lfcvtIf false ∧
  (∀ cc : Fin 8, LaneForm (fun iss a => .lfcmp iss cc a) (.lfcmp cc) false) ∧
  LaneTrapForm .lfadd .lfadd ∧ LaneTrapForm .lfsub .lfsub ∧ LaneTrapForm .lfmul .lfmul ∧ LaneTrapForm .lfma .lfma ∧
  LaneTrapForm .lfmin .lfmin ∧ LaneTrapForm .lfmax .lfmax ∧ LaneTrapForm .lfrcp .lfrcp ∧
  LaneTrapForm .lfcvtFi .lfcvtFi ∧ LaneTrapForm .lfcvtIf .lfcvtIf ∧
  (∀ cc : Fin 8, LaneTrapForm (fun iss a => .lfcmp iss cc a) (.lfcmp cc))

namespace Sys2Proof.Claims

/-- The planes that the store stage of a lane instruction writes (R101). -/
def storedPlanes (jb : LaneJob) : List Nat :=
  (List.range (laneDWidth jb.op jb.half)).map jb.d.plane ++ (laneFlags jb.op).map (jb.lfp + ·)

/-- What a lane computes of the words that its buffer holds for PE i of unit u: result and flags. -/
def laneResult (jb : LaneJob) (u i : Nat) : Nat × Nat :=
  let n := laneWidth jb.half
  laneCompute jb.op jb.half jb.rm (bufWord jb.buf 0 n u i) (bufWord jb.buf 1 n u i) (bufWord jb.buf 2 n u i)

/-- Value v of n bits as a two's complement number. -/
def signedOf (n v : Nat) : Int := if v < 2 ^ (n - 1) then v else v - 2 ^ n

/-- OF of an exact value outside the signed range of n bits (R102). -/
def overflows (n : Nat) (v : Int) : Nat := if -(2 ^ (n - 1) : Int) ≤ v ∧ v < 2 ^ (n - 1) then 0 else 4

end Sys2Proof.Claims

/-- What lane instructions load, compute and store (R93 to R96, R98, R101, R102, R191): behind its load stage an instruction holds
the words of its operands in every PE; the integer results with OF; the store writes result and flags in the PEs of a wing with
X = 1 and 0 in those of a halo, and nothing else in any plane changes. The floating-point results are those of the scalar
instructions (R101). -/
def Sys2Proof.Claims.LaneWordsAndPlanes : Prop :=
  (∀ (iss : Issue) (op : LaneOp) (half : Bool) (a : P2) (s : State), laneReady s iss op half a = true →
    let r := laneRoutine s iss op half a
    let n := laneWidth half
    ∃ jb, ((laneDone s iss op half a (laneL half)).seq iss.h).jobs = [jb] ∧ jb.op = op ∧ jb.half = half ∧ jb.mask = r.mask ∧
      some jb.d = r.d ∧ jb.lfp = r.lfp ∧ jb.rm = r.rm ∧
      ∀ u i, u < 10 → unitExec r.mask u = true → bufWord jb.buf 0 n u i = slotNum s u i r.a n ∧
        (op.hasB = true → bufWord jb.buf 1 n u i = slotNum s u i r.b n) ∧
        (op.hasC = true → bufWord jb.buf 2 n u i = slotNum s u i r.c n)) ∧
  (∀ (half sg : Bool) (rm a b c : Nat),
    let n := if half then 16 else 32
    let x := signedOf n a
    let y := signedOf n b
    let less (p q : Nat) : Bool := if sg then decide (signedOf n p < signedOf n q) else decide (p < q)
    a < 2 ^ n → b < 2 ^ n →
    laneCompute .ladd half rm a b c = ((a + b) % 2 ^ n, overflows n (x + y)) ∧
    laneCompute .lsub half rm a b c = ((a + 2 ^ n - b) % 2 ^ n, overflows n (x - y)) ∧
    laneCompute .lmul half rm a b c = (a * b % 2 ^ n, overflows n (x * y)) ∧
    laneCompute (.lmulf false) half rm a b c = (a * b, 0) ∧
    laneCompute (.lmulf true) half rm a b c = ((x * y % 2 ^ (2 * n)).toNat, 0) ∧
    laneCompute (.lmin sg) half rm a b c = (if less b a then b else a, 0) ∧
    laneCompute (.lmax sg) half rm a b c = (if less a b then b else a, 0)) ∧
  (∀ (s : State) (jb : LaneJob) (u i : Nat), u < 10 → (unitOnes u).getLsbD i = true → (storedPlanes jb).Nodup →
    (∀ p ∈ storedPlanes jb, p < 4096) →
    let t := s.storeUnit jb u
    let wing : Bool := decide (1 ≤ u) && decide (u ≤ 8)
    let stored (p : Nat) (v : Bool) : Prop :=
      (t.plane u p).getLsbD i = if (s.pe u).x.getLsbD i then wing && v else (s.plane u p).getLsbD i
    (∀ j, j < laneDWidth jb.op jb.half → stored (jb.d.plane j) ((laneResult jb u i).1.testBit j)) ∧
    (∀ k ∈ laneFlags jb.op, stored (jb.lfp + k) ((laneResult jb u i).2.testBit k)) ∧
    ∀ p, p < 4096 → p ∉ storedPlanes jb → t.plane u p = s.plane u p)

/-- CHIMNEY_RESULT (R47, R48): the oldest capture of a sequencer becomes valid, its total and the results of its wings in
their registers, in the format of R47. LANE_STORE_STAGE (R95, R96, R98): the oldest lane instruction behind its load stage
writes what its lanes computed, and leaves the pipeline. -/
def Sys2Proof.Claims.CapturesAndLaneStores : Prop :=
  (∀ (h : Fin 4) (s : State) (c : Capture) (cs : List Capture), s.calm = true → s.coreOn = true →
    (s.seq h).caps = c :: cs →
    let x := (s.modSeq h fun q => { q with caps := cs }).putCapture h c
    let total := (c.wings.map fun w => w.2.1).sum
    Answers (.chimneyResult h) s x ∧
    (total ≤ 65536 →
      x.getF (rg .chimCnt h.val) F.chimCnt_COUNT = total ∧
      x.flag (rg .chimCnt h.val) F.chimCnt_OR = decide (total ≠ 0) ∧
      x.flag (rg .chimCnt h.val) F.chimCnt_VALID = true) ∧
    (∀ i, c.wings.findSome? (fun w => w.2.2.map (8192 * w.1 + ·)) = some i → i < 65536 →
      x.getF (rg .chimFirst h.val) F.chimFirst_INDEX = i ∧ x.flag (rg .chimFirst h.val) F.chimFirst_NONE = false) ∧
    (c.wings.findSome? (fun w => w.2.2.map (8192 * w.1 + ·)) = none →
      x.flag (rg .chimFirst h.val) F.chimFirst_NONE = true)) ∧
  (∀ (h : Fin 4) (s : State) (jb : LaneJob) (js : List LaneJob), s.calm = true → s.coreOn = true →
    (s.seq h).jobs = jb :: js → (jb.sub && jb.op.isFp) = false →
    Answers (.laneStoreStage h) s
      ((s.modSeq h fun q => { q with jobs := js }).forUnits jb.mask fun u s => s.storeUnit jb u))

/-- Lane instructions, what they load, compute and store, and captures. -/
def Obligations.LanesRunAndStore : Prop :=
  LaneInstructionsRun ∧ LaneWordsAndPlanes ∧ CapturesAndLaneStores

namespace Sys2Proof.Claims

/-- What one PE computes in a micro-operation from its A, B and C bits (R36). -/
def peResult (o : Uop) (a b c : Bool) : Bool :=
  if o.add then a ^^ (b ^^ o.invb) ^^ c else o.tt.testBit (2 * (if a then 1 else 0) + (if b then 1 else 0))

/-- The majority of three bits. -/
def maj (a b c : Bool) : Bool := (a && b) || (a && c) || (b && c)

end Sys2Proof.Claims

/-- A micro-operation in one PE (R36, R37): the result by the truth table or the adder, written to its destination where X is
1; X itself is written whatever X holds; the adder's carry goes to C where X is 1; every other plane keeps its bits. -/
def Sys2Proof.Claims.MicroOperationOfPe : Prop :=
  ∀ (s : State) (o : Uop) (u i : Nat) (bs : Nat → Plane) (nb : Plane), u < 10 →
    (unitOnes u).getLsbD i = true →
    let t := (s.uopUnit o u bs nb).1
    let x := (s.pe u).x.getLsbD i
    let a := (s.operand u o.a).getLsbD i
    let b := (bs u).getLsbD i
    let c := (s.pe u).c.getLsbD i
    let r := peResult o a b c
    (s.uopUnit o u bs nb).2.getLsbD i = r ∧
    (∀ p, p < 4096 → (t.plane u p).getLsbD i = if o.dest = .plane p ∧ x = true then r else (s.plane u p).getLsbD i) ∧
    (t.pe u).x.getLsbD i = (if o.dest = .x then r else x) ∧
    (t.pe u).f.getLsbD i = (if o.dest = .f ∧ x = true then r else (s.pe u).f.getLsbD i) ∧
    (t.pe u).t.getLsbD i = (if o.dest = .t ∧ x = true then r else (s.pe u).t.getLsbD i) ∧
    (t.pe u).n.getLsbD i = (if o.ndir = .none then (s.pe u).n.getLsbD i else nb.getLsbD i) ∧
    (o.dest ≠ .c → (t.pe u).c.getLsbD i = if o.add ∧ x = true then maj a (b ^^ o.invb) c else c) ∧
    (o.dest = .c → (t.pe u).c.getLsbD i = if x = true then r else c)

/-- What array instructions leave in the planes, what a neighbour read delivers, and one micro-operation in one PE. -/
def Obligations.MicroOperationInOnePe : Prop :=
  ArrayResultsInPlanes ∧ NeighbourReads ∧ MicroOperationOfPe

namespace Sys2Proof.Claims

/-- Sequencer h with its routine stopped: its captures complete, the 64-byte frame below MTF, and the routine among those
suspended (R49, R135). -/
def suspended (s0 : State) (h : Fin 4) (r : Routine) : State :=
  let s := s0.completeCaptures h
  let mtf := (s.seq h).mtf - 64
  let depth := (s.seq h).susp.length
  let fr := r.frame (s.seq h).cs depth
  (s.setStudy h mtf.toNat fr).modSeq h fun q => { q with
    mtf, routine := none
    susp := { routine := r, depth, frameAddr := mtf.toNat, frame := fr, spilled := false } :: q.susp }

/-- A frame can stand at an address: 64-aligned, in Study memory (R135). -/
def frameOk (a : Word) : Bool := decide (a.toNat % 64 = 0) && decide (a.toNat < 0x40000)

/-- A routine of sequencer h can be stopped for an entry (R128, R138): asynchronous entries are looked at, the routine has
begun, and the loaded microcode's depth allows one more. -/
def stoppable (s : State) (h : Fin 4) (r : Routine) : Bool :=
  s.calm && s.entryOpen h && decide ((s.seq h).routine = some r) && (r.begun || !r.first) &&
    decide ((s.seq h).susp.length < s.mtDepth)

/-- Level l is the highest pending of sequencer h, and is accepted (R128). -/
def accepts (s : State) (h : Fin 4) (l : Nat) : Bool :=
  s.flgBit h 8 && !s.flgBit h 11 && decide (s.topLevel h = some l) && decide (s.pri h ≤ l) && decide (l ≤ 15)

end Sys2Proof.Claims

/-- MICRO_TRAP and ATOM_LIMIT (R128, R135, R138, R139): the routine stops with its frame stored at MTF - 64 and FLG.MIP set;
#WD comes before an interrupt. ATOM keeps it from stopping until its limit, which is counted up to 255. -/
def Obligations.MicroTrapAndAtomLimit : Prop :=
  (∀ (h : Fin 4) (s : State) (r : Routine) (l : Nat) (a : Word), stoppable s h r = true →
    frameOk ((s.seq h).mtf - 64) = true → r.atom = false → (s.seq h).wdPend = false → accepts s h l = true →
    let t := suspended s h r
    canEnter t h (16 + l) r.addr true 0 none a →
    Answers (.microTrap h) s (entered t h (16 + l) r.addr true 0 none a)) ∧
  (∀ (h : Fin 4) (s : State) (r : Routine) (a : Word), stoppable s h r = true →
    frameOk ((s.seq h).mtf - 64) = true → r.atom = false → (s.seq h).wdPend = true →
    let t := suspended (s.modSeq h fun q => { q with wdPend := false }) h r
    canEnter t h 7 r.addr true 0 none a →
    Answers (.microTrap h) s (entered t h 7 r.addr true 0 none a)) ∧
  (∀ (h : Fin 4) (s : State) (r : Routine), stoppable s h r = true → r.atom = true → r.atomOver = false →
    Answers (.microTrap h) s s) ∧
  (∀ (h : Fin 4) (s : State) (r : Routine) (l : Nat) (a : Word), stoppable s h r = true →
    frameOk ((s.seq h).mtf - 64) = true → r.atom = true → r.atomOver = false → (s.seq h).wdPend = false → accepts s h l = true →
    let t := suspended (s.modSeq h fun q => { q with atomx := if q.atomx < 255 then q.atomx + 1 else q.atomx })
      h { r with atomOver := true }
    canEnter t h (16 + l) r.addr true 0 none a →
    Answers (.atomLimit h) s (entered t h (16 + l) r.addr true 0 none a))

/-! ### Register writes in general; registers of the sequencers, the array and the control store (R7 to R16, R26, R31, R51, R53,
R54, R62 to R64, R144, R198, R199, R217) -/

namespace Sys2Proof.Claims

/-- The command `c`, a write of the register `x`, does `f` where its block takes the write and `p` holds. -/
def WriteForm (c : Requester → Word → Instr) (x : Reg) (p : Requester → Word → State → Prop)
    (f : Requester → Word → State → State) : Prop :=
  ∀ (r : Requester) (v : Word) (s : State), s.takes r x v = true → p r v s → Answers (c r v) s (f r v s)

/-- The value that a write gives a field by its access code (R9, R16). -/
def fieldAfter (lock : Bool) (a : Access) (old new : Nat) : Nat :=
  match a with
  | .rw => new
  | .ro | .wo => old
  | .w1c => old &&& (old ^^^ new)
  | .w1s => old ||| new
  | .rwl => if lock then old else new

/-- The state with its PCI Express port replaced; with an answer for the requester. -/
def putPcie (s : State) (f : Pcie → Pcie) : State := { s with pcie := f s.pcie }
def answers (s : State) (a : Answer) : State := { s with answer := some a }

/-- AER has logged error `b` (R445, in the places of log entry 17): its bit of the uncorrectable status; nothing but the words of
device status, the two error status registers, the control register and the Header Log may differ, those two not where the
error is masked or a first error stands; at most one error message goes out, none where the error is masked. -/
def errorLogged (s : State) (b : Nat) (x : State) : Prop :=
  let masked := (s.cfgWord 66).getLsbD b = true
  let first := (s.cfgWord 65).getLsbD ((s.cfgWord 70).toNat % 32) = true
  x = { putPcie s (fun p => { p with cfg := x.pcie.cfg, tlps := x.pcie.tlps }) with free := x.free } ∧
    x.cfgWord 65 = s.cfgWord 65 ||| (1#32 <<< b) ∧
    (∀ k, k ∉ [22, 65, 68, 70, 71, 72, 73, 74] → x.cfgWord k = s.cfgWord k) ∧
    (masked ∨ first → x.free = s.free ∧ ∀ k ∈ [70, 71, 72, 73, 74], x.cfgWord k = s.cfgWord k) ∧
    (¬ masked → ¬ first → (s.cfgWord 69).getLsbD 13 = false → (x.cfgWord 70).toNat % 32 = b) ∧
    (x.pcie.tlps = s.pcie.tlps ∨ ¬ masked ∧ ∃ k, x.pcie.tlps = s.pcie.tlps ++ [.error k])

/-- The request `c` is answered Unsupported Request, which AER logs. -/
def unsupportedBy (c : Instr) (s : State) : Prop := ∃ x, errorLogged s 20 x ∧ Answers c s (answers x .unsupported)

/-- Registers that any requester writes and whose writes do nothing but give each field its new value. -/
def plainFams : List Fam :=
  [.dbRaw, .dbInsvc, .dbClaim, .dbPend, .dbErr, .mantelCntlo, .mantelCnthi, .mantelSync, .mantelClaim, .encZpos,
   .encTlo, .encThi, .lcLastlo, .lcLasthi, .arrayClaim, .wingCnt, .wingFirst, .chimCnt, .chimFirst, .peFault,
   .peFaultw, .porchClaim, .annexCfgRdata, .annexCfgErr, .annexRstate0, .annexRstate1, .annexConflict, .annexWtmo,
   .annexClaim, .annexImgStat, .cellarWake, .cellarEccaddr, .cellarStarve, .cellarStarveStat, .cellarClaim,
   .cellarTaglim, .cellarEccreq, .cellarPlanCtl, .cellarPlanStat, .cellarPlanFail, .cellarPlanBanks, .dmaCur,
   .linkSyncRxlo, .linkSyncRxhi, .linkSyncAtlo, .linkSyncAthi, .linkBulk, .linkBaddr, .linkEvctl, .linkEvqlo,
   .linkEvqhi, .linkSchimCtl, .linkSchimOut, .linkSchimStat, .linkSeamStat, .linkClaim, .linkRt, .kpStat, .kpPeer,
   .kpDly, .pcieId, .pcieLink, .pcieErraddr, .pcieHdb, .pcieBootaddr, .pcieAtt, .ringWptr, .ringRptr, .sensorClaim,
   .asBootStat, .asBootImg, .asBootInfo, .asBootVer, .asMcStat, .asMcVer, .asMcInfo, .asMcPerr, .asMcRomver,
   .asMcDigest, .asOtp, .asOtpData, .asOtpStat, .pinsIn, .bankStat, .pinsClaim, .pinsCtl, .sysRegerr, .sysSeqEntry]

/-- The same for the registers of SYS that only sequencers write (R495), and for those of the Lodge, under its lock (R473). -/
def seqFams : List Fam :=
  [.sysId, .sysClkstat, .sysSsc, .sysPwrstat, .sysWakelo, .sysWakehi, .sysRstcause]
def lodgeFams : List Fam :=
  [.lodgeCtl, .lodgeBootcnt, .lodgeUser, .lodgeQspi, .lodgeAct, .wdStat]

/-- Fields that share no bit. -/
abbrev apart (f g : Field) : Prop := f.lo + f.width ≤ g.lo ∨ g.lo + g.width ≤ f.lo

/-- Bit i lies in field f. -/
abbrev Within (f : Field) (i : Nat) : Prop := f.lo ≤ i ∧ i < f.lo + f.width

end Sys2Proof.Claims

/-- The access codes (R9, R16): after a write every field holds what its code gives it, a locked field its old value, and a
bit of no field its old value. -/
def Sys2Proof.Claims.AccessCodesGovernWrites : Prop :=
  ∀ (lock : Bool) (fs : List Field) (old v : Word), fs.Pairwise apart → (∀ f ∈ fs, f.lo + f.width ≤ 32) →
    (∀ f ∈ fs, f.of (accessWrite lock fs old v) = fieldAfter lock f.acc (f.of old) (f.of v)) ∧
    (∀ i, (∀ f ∈ fs, ¬ Within f i) → (accessWrite lock fs old v).getLsbD i = old.getLsbD i)

/-- The fields of every register share no bit and lie within the word (R9, R10). -/
def Sys2Proof.Claims.RegisterFieldsAreApart : Prop :=
  ∀ fam : Fam, fam.info.fields.Pairwise apart ∧ ∀ f ∈ fam.info.fields, f.lo + f.width ≤ 32

/-- Access codes, and the fields they act on. -/
def Obligations.AccessCodesAndFields : Prop :=
  AccessCodesGovernWrites ∧ RegisterFieldsAreApart

/-- A write with a reserved encoding is discarded as a whole, whoever makes it, and recorded in SYS_REGERR: the first with
its address and requester, a further one in MULTI (R11, R12). -/
def Sys2Proof.Claims.ReservedEncodingsAreDiscarded : Prop :=
  ∀ (r : Requester) (x : Reg) (v : Word) (s : State), s.calm = true → s.reaches r = true → regAt x.off = some x →
    s.annexHolds r x = false → s.regReserved r x v = true → x.off < 2 ^ 24 →
    (s.flag (rg .sysRegerr) F.sysRegerr_VALID = true →
      Answers (.registerWrite r x.off v) s (s.setF (rg .sysRegerr) F.sysRegerr_MULTI 1)) ∧
    (s.flag (rg .sysRegerr) F.sysRegerr_VALID = false →
      ∃ w, Answers (.registerWrite r x.off v) s (s.setReg (rg .sysRegerr) w) ∧
        F.sysRegerr_ADDR.of w = x.off ∧ F.sysRegerr_SRC.of w = reqCode r ∧ F.sysRegerr_VALID.of w = 1 ∧
        F.sysRegerr_MULTI.of w = s.getF (rg .sysRegerr) F.sysRegerr_MULTI)

/-- Writes in general (R7 to R10, R473, R495): a register without behaviour of its own takes the value by its access codes, from
any requester or, where only sequencers write it, from them alone; a write that is no aligned word, or meets no register, is
not performed: the host sees Unsupported Request, and a DMA chain ends in error; so does every access of the host while its
memory requests are not taken (R437, R445). Where AER logs it is the model's choice (log entry 17). -/
def Sys2Proof.Claims.RegisterWritesInGeneral : Prop :=
  (∀ (x : Reg) (r : Requester) (v : Word) (s : State), regAt x.off = some x → s.takes r x v = true →
    let put (lock : Bool) : State := s.setReg x (accessWrite lock x.fam.info.fields (s.reg x) v)
    (x.fam ∈ plainFams → Answers (.registerWrite r x.off v) s (put false)) ∧
    (x.fam ∈ seqFams → Answers (.registerWrite r x.off v) s (if fromSeq r then put false else s)) ∧
    (x.fam ∈ lodgeFams →
      Answers (.registerWrite r x.off v) s (if fromSeq r then put (s.flag (rg .lodgeCtl) F.lodgeCtl_LOCK) else s))) ∧
  (∀ (r : Requester) (v : Word) (s : State), s.takes r (rg .sysRegerr) v = true →
    Answers (.registerWrite r (rg .sysRegerr).off v) s
      (s.setReg (rg .sysRegerr) (s.reg (rg .sysRegerr) &&& ~~~(v &&& 0xC0000000#32)))) ∧
  (∀ (off : Nat) (v : Word) (s : State), s.calm = true → (off % 4 ≠ 0 ∨ Reg.ofOff off = none) →
    unsupportedBy (.registerWrite .host off v) s ∧ Answers (.registerWrite .remote off v) s s ∧
    (∀ h, Answers (.registerWrite (.seq h) off v) s s) ∧
    (∀ c, (s.dmaFail c 6).quiet = true → Answers (.registerWrite (.dma c) off v) s (s.dmaFail c 6))) ∧
  (∀ (off : Nat) (v : Word) (s : State), s.calm = true →
    (s.cfgWord 1).getLsbD 1 = false ∨ s.flag (rg .pcieLink) F.pcieLink_D3 = true →
    unsupportedBy (.registerWrite .host off v) s ∧ ∀ h, unsupportedBy (.claim .host h) s)

/-- Register writes in general, and those with a reserved encoding. -/
def Obligations.RegisterWritesAndReservedEncodings : Prop :=
  ReservedEncodingsAreDiscarded ∧ RegisterWritesInGeneral

/-- SYS_SEQ[h]_EVL (R198): its offset and reset value; a read returns the latches of Hh; a write sets a latch for each 1
written, and nothing else changes. -/
def Obligations.EventLatchSetRegister : Prop :=
  ∀ h : Fin 4, (rg .sysSeqEvl h).off = 0x110 + 4 * h.val ∧ (State.reset.seq h).ev = 0 ∧
    (∀ (r : Requester) (s : State), s.regGet r (rg .sysSeqEvl h) = (s, (s.seq h).ev)) ∧
    WriteForm (fun r v => .sysSeqEvl r h v) (rg .sysSeqEvl h) (fun _ _ _ => True)
    fun _ v s => s.modSeq h fun q => { q with ev := q.ev ||| v }

/-- SYS_SEQ[h]_EVC (R199): its offset and reset value; a read returns the same latches; a write clears a latch for each 1
written, and nothing else changes. -/
def Obligations.EventLatchClearRegister : Prop :=
  ∀ h : Fin 4, (rg .sysSeqEvc h).off = 0x120 + 4 * h.val ∧ (State.reset.seq h).ev = 0 ∧
    (∀ (r : Requester) (s : State), s.regGet r (rg .sysSeqEvc h) = (s, (s.seq h).ev)) ∧
    WriteForm (fun r v => .sysSeqEvc r h v) (rg .sysSeqEvc h) (fun _ _ _ => True)
    fun _ v s => s.modSeq h fun q => { q with ev := q.ev &&& ~~~v }

/-- ARRAY_WOWN, ARRAY_BOUND and ARRAY_TOPO (R26, R53 to R55): a sequencer's write waits its turn; any other requester's is
refused as resource 0x21; where it takes effect, exactly the fields that its sequencer has the right to change change. -/
def Sys2Proof.Claims.ArrayOwnershipWrites : Prop :=
  (∀ h : Fin 4,
    WriteForm .arrayWownWrite (rg .arrayWown) (fun r _ _ => r = .seq h)
      (fun _ v s => s.modSeq h fun q => { q with arrWrites := q.arrWrites ++ [.wown v] }) ∧
    WriteForm .arrayBoundWrite (rg .arrayBound) (fun r _ _ => r = .seq h)
      (fun _ v s => s.modSeq h fun q => { q with arrWrites := q.arrWrites ++ [.bound v] }) ∧
    WriteForm .arrayTopoWrite (rg .arrayTopo) (fun r _ _ => r = .seq h)
      (fun _ v s => s.modSeq h fun q => { q with arrWrites := q.arrWrites ++ [.topo v] })) ∧
  (∀ r : Requester, (∀ h, r ≠ .seq h) →
    (∀ v s, s.takes r (rg .arrayWown) v = true → Answers (.arrayWownWrite r v) s (s.arrayRefuse (reqCode r) 0x21)) ∧
    (∀ v s, s.takes r (rg .arrayBound) v = true → Answers (.arrayBoundWrite r v) s (s.arrayRefuse (reqCode r) 0x21)) ∧
    (∀ v s, s.takes r (rg .arrayTopo) v = true → Answers (.arrayTopoWrite r v) s (s.arrayRefuse (reqCode r) 0x21))) ∧
  (∀ (h : Fin 4) (s : State) (a : ArrWrite) (rest : List ArrWrite), s.calm = true → s.coreOn = true →
    (s.seq h).arrWrites = a :: rest → (s.seq h).routine = none → (s.seq h).jobs = [] →
    let t := s.modSeq h fun q => { q with arrWrites := rest }
    match a with
    | .wown v => Answers (.arrayWriteTakesEffect h) s (t.wownApply h v) ∧
        ∀ w, w < 8 → (t.wownApply h v).wingOwner w = if s.ownRight h w then bits v (2 * w) 2 else s.wingOwner w
    | .bound v => Answers (.arrayWriteTakesEffect h) s (t.boundApply h v) ∧
        ∀ k, k < 9 → (t.boundApply h v).boundMode k = if s.boundRight h k then bits v (2 * k) 2 else s.boundMode k
    | .topo v => Answers (.arrayWriteTakesEffect h) s (t.topoApply h v) ∧
        (∀ w, w < 8 → (t.topoApply h v).nsedge w = if s.wingOwner w = h.val then v.getLsbD (8 + w) else s.nsedge w) ∧
        (t.topoApply h v).twoD = if (List.range 8).all (fun w => s.wingOwner w = h.val) then decide (F.arrayTopo_MODE.of v = 1) else s.twoD)

/-- ATOMCLR, and the error records of the array (R51, R62 to R64, R144): each written 1 clears what its field names. -/
def Sys2Proof.Claims.ArrayRecordsCleared : Prop :=
  (∀ h : Fin 4, WriteForm (fun r v => .atomclr r h v) (rg .sysSeqStat h) (fun _ v _ => F.sysSeqStat_ATOMCLR.of v = 1)
    fun _ _ s => s.modSeq h fun q => { q with atomx := 0 }) ∧
  (∀ w : Fin 8, WriteForm (fun r v => .perrValidClear r w v) (rg .wingPerr w) (fun _ v _ => F.wingPerr_VALID.of v = 1)
    fun _ _ s => { (s.setF (rg .wingPerr w) F.wingPerr_VALID 0).setF (rg .wingPerr w) F.wingPerr_MULTI 0 with
      arr := { s.arr with bpe := s.arr.bpe.set w 0 } }) ∧
  (∀ r v s, s.takes r (rg .arrayHaloStat) v = true → F.arrayHaloStat_HPERR.of v = 1 → F.arrayHaloStat_CLRCNT.of v = 0 →
    Answers (.hperrClear r v) s
      ((s.setF (rg .arrayHaloStat) F.arrayHaloStat_HPERR 0).setF (rg .arrayHaloStat) F.arrayHaloStat_HMULTI 0)) ∧
  (∀ r v s, s.takes r (rg .arrayHaloStat) v = true → F.arrayHaloStat_HPERR.of v = 0 → F.arrayHaloStat_HMULTI.of v = 0 →
    F.arrayHaloStat_CLRCNT.of v = 1 →
    Answers (.clrcnt r v) s (s.setF (rg .arrayHaloStat) F.arrayHaloStat_SEAMCOL 0)) ∧
  (∀ w : Fin 8, WriteForm (fun r v => .colcntClr r w v) (rg .wingColcnt w) (fun _ v _ => F.wingColcnt_CLR.of v = 1)
    fun _ _ s => s.setF (rg .wingColcnt w) F.wingColcnt_COUNT 0)

/-- A wing clear (R31, R56): every plane of the wing reads 0, its PE registers and results hold their clear values, its
CLEARING bit is 0, and no other wing's planes change; with wing W0 the west halo, with W7 the east one is cleared. -/
def Sys2Proof.Claims.WingClearLeavesClearValues : Prop :=
  ∀ (w : Fin 8) (s : State), s.calm = true → s.coreOn = true → s.wingClearing w = true →
    let t := s.clearWing w
    Answers (.wingClear w) s t ∧
    (∀ p, p < 4096 → t.plane (w.val + 1) p = 0) ∧
    t.pe (w.val + 1) = PeRegs.clear (w.val + 1) ∧
    (∀ u, (w = 0 ∧ u = 0) ∨ (w = 7 ∧ u = 9) → (∀ p, p < 4096 → t.plane u p = 0) ∧ t.pe u = PeRegs.clear u) ∧
    t.wingClearing w = false ∧ t.reg (rg .wingCnt w) = (rg .wingCnt w).reset ∧
    t.reg (rg .wingFirst w) = (rg .wingFirst w).reset ∧
    (∀ u p, u < 10 → p < 4096 → u ≠ w.val + 1 → u ∉ haloOf w → t.plane u p = s.plane u p)

/-- Array ownership, records, and the clear of a wing. -/
def Obligations.ArrayRegistersAndWingClear : Prop :=
  ArrayOwnershipWrites ∧ ArrayRecordsCleared ∧ WingClearLeavesClearValues

namespace Sys2Proof.Claims

/-- The load asked for by sequencer h joins the verification engine's queue (R216). -/
def loadAsked (s : State) (h : Fin 4) (v : Word) : State :=
  { (s.setF (rg .asMcCtl) F.asMcCtl_TARGET (F.asMcCtl_TARGET.of v)).setF (rg .asMcStat) F.asMcStat_BUSY 1 with
    verQ := s.verQ ++ [.microcode h none] }

/-- The digest of a microcode image with header, key, ciphertext and tag (R214). -/
def imageDigest (hd key body : List Byte) : BitVec 512 :=
  Config.sha3 (hd ++ key ++ part body 0 65536 ++ part body 65536 16)

/-- A microcode image that has been read whole, at stages 8 to 10 (R217): its tag, its digest beside that of valid stores that
are no target, its signature, and its acceptance. -/
def loadJudged (s s1 s2 : State) (hd key body sig : List Byte) : State :=
  let k := BitVec.ofNat 256 (s1.otpNum 68 8)
  let n := part hd 0x18 12
  let target := s.mcTarget
  let dg := imageDigest hd key body
  if Config.gcmTagOk k n hd (part body 0 65536) (part body 65536 16) = false then s1.mcEnd 8
  else if (∃ j, target j = false ∧ s1.csValid j = true) ∧ dg.toNat ≠ s1.mcDigest then s1.mcEnd 0xB
  else if Config.mldsaVerify key dg sig = false then s2.mcEnd 6
  else s2.mcAccept target hd dg (Config.gcmPlain k n hd (part body 0 65536))

end Sys2Proof.Claims

/-- A microcode load (R210, R216 to R218, R223): a sequencer's GO starts it unless one runs. It begins with its checks, in
order, and clears the target stores; it ends with BUSY 0, DONE 1 and its code, and an image that verifies makes the target
stores valid with its digest and its words. The model's choices: stages 1 to 6 take place as the engine is free, and stages 7
to 10 end at MC_LOAD_END, which reads what no tick has read yet (log entry 84); each byte is read once. -/
def Obligations.MicrocodeLoads : Prop :=
  (∀ h : Fin 4, WriteForm .mcLoadGo (rg .asMcCtl)
    (fun r v s => r = .seq h ∧ F.asMcCtl_GO.of v = 1 ∧ s.flag (rg .asMcStat) F.asMcStat_BUSY = false)
    fun _ v s => (loadAsked s h v).verBegin) ∧
  (∀ (s : State) (h : Fin 4) (rest : List VerJob), s.verQ = .microcode h none :: rest →
    let a := s.mcSrc
    let suspends := ∃ k, s.mcTarget k = true ∧ (s.seq k).susp ≠ []
    (a % 8 ≠ 0 ∨ inRam a mcLen = false → s.verBegin = s.mcEnd 1) ∧
    (a % 8 = 0 → inRam a mcLen = true →
      (s.otpFlag otpKmcValid = false → s.verBegin = s.mcEnd 9) ∧
      (s.otpFlag otpKmcValid = true → suspends → s.verBegin = s.mcEnd 0xA) ∧
      (s.otpFlag otpKmcValid = true → ¬ suspends → (∀ b ∈ s.bankStates a mcLen, b = .on) →
        ∀ s1 hd, s.imgRead 8 a 128 = (s1, .bytes hd) →
          (mcHeaderErr hd ≠ 0 → s.verBegin = s1.mcEnd (mcHeaderErr hd)) ∧
          (mcHeaderErr hd = 0 → ∀ s2 key, s1.imgRead 8 (a + 128) 2592 = (s2, .bytes key) →
            ((s2.keySlot key).isSome = false → s.verBegin = s2.mcEnd 5) ∧
            ((s2.keySlot key).isSome = true → field hd 0xC 4 < s2.rollback → s.verBegin = s2.mcEnd 7) ∧
            ((s2.keySlot key).isSome = true → s2.rollback ≤ field hd 0xC 4 →
              s.verBegin = { s2.csInvalidate s.mcTarget with verQ := .microcode h (some { hd, key }) :: s2.verQ.tail }))))) ∧
  (∀ (s s1 s2 : State) (h : Fin 4) (rest : List VerJob) (hd key pre more sig : List Byte), s.calm = true → s.coreOn = true →
    s.verQ = .microcode h (some { hd, key, body := pre }) :: rest → pre.length < 65552 →
    s.imgRead 8 (s.mcSrc + 2720 + pre.length) (65552 - pre.length) = (s1, .bytes more) →
    s1.imgRead 8 (s.mcSrc + 68272) 4627 = (s2, .bytes sig) →
    Answers .mcLoadEnd s (loadJudged s s1 s2 hd key (pre ++ more) sig)) ∧
  (∀ (s : State) (target : Fin 4 → Bool) (hd : List Byte) (dg : BitVec 512) (words : BitVec 524288),
    let t := s.mcAccept target hd dg words
    (∀ k, target k = true → (t.seq k).csDigest = some dg ∧ (t.seq k).cs = words) ∧
    (∀ k, target k = false → t.seq k = s.seq k) ∧
    t.flag (rg .asMcStat) F.asMcStat_BUSY = false ∧ t.flag (rg .asMcStat) F.asMcStat_DONE = true ∧
    t.getF (rg .asMcStat) F.asMcStat_ERR = 0)

/-! ### Cellar, Landing, DMA channels and the Planisher (R232 to R265) -/

namespace Sys2Proof.Claims

/-- Where a core-clock happening `c` finds `p`, it does `f`. -/
def CoreForm (c : Instr) (p : State → Prop) (f : State → State) : Prop :=
  ∀ s : State, s.calm = true → s.coreOn = true → p s → Answers c s (f s)

/-- The same for a happening that needs only power. -/
def EventForm (c : Instr) (p : State → Prop) (f : State → State) : Prop :=
  ∀ s : State, s.calm = true → p s → Answers c s (f s)

/-- A happening on TCLK, which needs HLOCK. -/
def TclkForm (c : Instr) (p : State → Prop) (f : State → State) : Prop :=
  ∀ s : State, s.calm = true → s.hlock = true → p s → Answers c s (f s)

/-- The state with its Cellar replaced. -/
def putCellar (s : State) (f : Cellar → Cellar) : State := { s with cellar := f s.cellar }

/-- What a request does to a bank (R240): 0 is ON. -/
def bankAsked (req : Nat) (b : BankState) : BankState :=
  match req, b with
  | 0, .off => .waking true
  | 0, .retain => .waking false
  | _, b => b

/-- The banks after a write of `v` to CELLAR_PWR0 (half 0) or CELLAR_PWR1 (half 1). -/
def banksAsked (half : Fin 2) (v : Word) (s : State) : Vector BankState 32 :=
  Vector.ofFn fun b : Fin 32 =>
    if b.val / 16 = half.val then bankAsked (bits v (2 * (b.val % 16)) 2) s.cellar.bank[b] else s.cellar.bank[b]

/-- Does byte `k` of the store belong to bank b? -/
abbrev InBank (b k : Nat) : Prop := 0x20000000 + 1572864 * b ≤ k ∧ k < 0x20000000 + 1572864 * (b + 1)

end Sys2Proof.Claims

/-- Interleave and bank power (R234, R240, R241): a held ILV change takes effect once the Cellar is quiet and waits before;
a request of ON wakes a bank; a change down loses what OFF loses; a wake ends ON with source 748. -/
def Sys2Proof.Claims.CellarBanksAndInterleave : Prop :=
  (∀ n, CoreForm .ilvChange (fun s => s.cellar.ilvReq = some n ∧ s.cellarQuiet = true)
    fun s => putCellar (s.setF (rg .cellarCfg) F.cellarCfg_ILV n) fun c => { c with ilvReq := none }) ∧
  CoreForm .ilvChange (fun s => s.cellarQuiet = false) (fun s => s) ∧
  (∀ half : Fin 2, WriteForm (fun r v => .bankPowerRequest r half v) (rg (if half = 0 then .cellarPwr0 else .cellarPwr1))
    (fun _ _ _ => True)
    fun _ v s => putCellar (s.setReg (rg (if half = 0 then .cellarPwr0 else .cellarPwr1)) v) fun c =>
      { c with bank := banksAsked half v s }) ∧
  (∀ b : Fin 32,
    CoreForm (.bankPowerDown b) (fun s => s.bank b = .on ∧ s.bankReq b = 1) (fun s => s.setBank b .retain) ∧
    CoreForm (.bankPowerDown b) (fun s => (s.bank b = .on ∨ s.bank b = .retain) ∧ s.bankReq b = 2)
      (fun s => (s.zeroBank b).setBank b .off) ∧
    (∀ fromOff, CoreForm (.bankWakeEnd b) (fun s => s.bank b = .waking fromOff ∧ s.bankReq b = 0)
      (fun s => ((if fromOff then s.zeroBank b else s).setBank b .on).latch 748)) ∧
    (∀ (s : State) (k : Nat), (InBank b k → sparseGet memDefault (s.zeroBank b).mem k = 0) ∧
      (¬ InBank b k → sparseGet memDefault (s.zeroBank b).mem k = sparseGet memDefault s.mem k)))

/-- Starvation reports, error counter and tag high-water mark (R238, R263, R264): the first report is captured with its class
and bank, a further one sets MULTI, and LIMIT 0 records none; CLR zeroes the error count, CLRHIGH makes HIGH the number of tags
held. -/
def Sys2Proof.Claims.CellarReportsAndCounters : Prop :=
  (∀ (cls : Fin 6) (b : Fin 32), CoreForm (.starvation cls b) (fun s => s.getF (rg .cellarStarve) F.cellarStarve_LIMIT = 0)
    fun s => s) ∧
  (∀ (cls : Fin 6) (b : Fin 32) (s : State), s.calm = true → s.coreOn = true →
    s.getF (rg .cellarStarve) F.cellarStarve_LIMIT ≠ 0 →
    (s.flag (rg .cellarStarveStat) F.cellarStarveStat_VALID = true →
      Answers (.starvation cls b) s (s.setF (rg .cellarStarveStat) F.cellarStarveStat_MULTI 1)) ∧
    (s.flag (rg .cellarStarveStat) F.cellarStarveStat_VALID = false →
      ∃ w, Answers (.starvation cls b) s (s.setReg (rg .cellarStarveStat) w) ∧ F.cellarStarveStat_CLASS.of w = 4 + cls.val ∧
        F.cellarStarveStat_BANK.of w = b.val ∧ F.cellarStarveStat_VALID.of w = 1)) ∧
  WriteForm .cellarEccClr (rg .cellarEcc) (fun _ v _ => F.cellarEcc_CLR.of v = 1)
    (fun _ v s => (s.setF (rg .cellarEcc) F.cellarEcc_CETHR (F.cellarEcc_CETHR.of v)).setF (rg .cellarEcc) F.cellarEcc_CECNT 0) ∧
  WriteForm .clrhigh (rg .cellarTags) (fun _ v _ => F.cellarTags_CLRHIGH.of v = 1)
    (fun _ _ s => s.setF (rg .cellarTags) F.cellarTags_HIGH s.reqs.length)

/-- The rule of OWNER fields (R249): 0 frees what its owner holds, a requester's own code claims what nobody holds, and
everything else is refused or changes nothing. -/
def Sys2Proof.Claims.OwnershipRule : Prop :=
  ∀ (w cur new : Nat), w ≠ 0 →
    (ownerRuleOf (some w) cur new = .claim ↔ new = w ∧ cur = 0) ∧
    (ownerRuleOf (some w) cur new = .keep ↔ new = w ∧ cur = w) ∧
    (ownerRuleOf (some w) cur new = .release ↔ new = 0 ∧ cur = w) ∧
    (ownerRuleOf (some w) cur new = .nothing ↔ new = 0 ∧ cur = 0) ∧
    ownerRuleOf none cur new = .refuse

namespace Sys2Proof.Claims

/-- A write of CELLAR_DMA[c]_CTL: OWNER, START, ABORT and PRI of the written word. -/
abbrev dmaAsk (v : Word) (owner start abort : Nat) : Prop :=
  F.dmaCtl_OWNER.of v = owner ∧ F.dmaCtl_START.of v = start ∧ F.dmaCtl_ABORT.of v = abort

/-- OWNER of channel c. -/
abbrev dmaOwnedBy (s : State) (c : Fin 48) (n : Nat) : Prop := s.getF (rg .dmaCtl c) F.dmaCtl_OWNER = n

/-- PRI of channel c takes its value of `v`. -/
def putPri (s : State) (c : Fin 48) (v : Word) : State := s.setF (rg .dmaCtl c) F.dmaCtl_PRI (F.dmaCtl_PRI.of v)

/-- Channel c idle with nothing in its engine, its outstanding bursts orphaned (R253). -/
def dmaIdle (s : State) (c : Fin 48) (err : Nat) : State :=
  let s := s.setF (rg .dmaStat c) F.dmaStat_PEND 0
  let s := s.setF (rg .dmaStat c) F.dmaStat_STATE 0
  let s := s.setF (rg .dmaStat c) F.dmaStat_ERR err
  (s.modDma c fun _ => {}).dmaOrphan c

end Sys2Proof.Claims

/-- DMA channel control (R249, R253): claim, release, which stops an ACTIVE channel, and refusal; START begins a chain, sets PEND
or OVR; ABORT returns to IDLE, with 0x09 from ACTIVE, while which source 576 + c is asserted (R451). -/
def Sys2Proof.Claims.DmaChannelControl : Prop :=
  ∀ c : Fin 48,
    WriteForm (fun r v => .dmaClaim r c v) (rg .dmaCtl c)
      (fun r v s => ∃ w, reqOwner r = some w ∧ dmaAsk v w 0 0 ∧ dmaOwnedBy s c 0)
      (fun r v s => putPri (s.setF (rg .dmaCtl c) F.dmaCtl_OWNER ((reqOwner r).getD 0)) c v) ∧
    WriteForm (fun r v => .dmaClaim r c v) (rg .dmaCtl c)
      (fun r v s => ∃ w, w ≠ 0 ∧ reqOwner r = some w ∧ F.dmaCtl_OWNER.of v = 0 ∧ dmaOwnedBy s c w ∧ s.dmaState c ≠ 1)
      (fun _ _ s => s.setF (rg .dmaCtl c) F.dmaCtl_OWNER 0) ∧
    WriteForm (fun r v => .dmaClaim r c v) (rg .dmaCtl c)
      (fun r v s => ∃ w, w ≠ 0 ∧ reqOwner r = some w ∧ F.dmaCtl_OWNER.of v = 0 ∧ dmaOwnedBy s c w ∧ s.dmaState c = 1)
      (fun _ _ s => (dmaIdle s c 9).setF (rg .dmaCtl c) F.dmaCtl_OWNER 0) ∧
    WriteForm (fun r v => .dmaClaim r c v) (rg .dmaCtl c)
      (fun r v s => ownerRule r (s.getF (rg .dmaCtl c) F.dmaCtl_OWNER) (F.dmaCtl_OWNER.of v) = .refuse)
      (fun r _ s => s.dmaRefuse c (reqCode r) false) ∧
    WriteForm (fun r v => .dmaStart r c v) (rg .dmaCtl c)
      (fun r v s => ∃ w, w ≠ 0 ∧ reqOwner r = some w ∧ dmaAsk v w 1 0 ∧ dmaOwnedBy s c w ∧ s.dmaState c = 0)
      (fun _ v s =>
        let t := ((putPri s c v).modDma c fun k => { k with
          tmo := s.getF (rg .dmaTmo c) F.dmaTmo_TIMEOUT, mrrs := s.maxRead }).setF (rg .dmaStat c) F.dmaStat_STATE 1
        (t.setReg (rg .dmaCur c) (s.reg (rg .dmaDesc c))).dmaFetch c) ∧
    WriteForm (fun r v => .dmaStart r c v) (rg .dmaCtl c)
      (fun r v s => ∃ w, w ≠ 0 ∧ reqOwner r = some w ∧ dmaAsk v w 1 0 ∧ dmaOwnedBy s c w ∧ s.dmaState c = 1)
      (fun _ v s => (putPri s c v).setF (rg .dmaStat c)
        (if s.flag (rg .dmaStat c) F.dmaStat_PEND then F.dmaStat_OVR else F.dmaStat_PEND) 1) ∧
    WriteForm (fun r v => .dmaAbort r c v) (rg .dmaCtl c)
      (fun r v s => ∃ w, w ≠ 0 ∧ reqOwner r = some w ∧ F.dmaCtl_OWNER.of v = w ∧ F.dmaCtl_ABORT.of v = 1 ∧
        dmaOwnedBy s c w)
      (fun _ v s => dmaIdle (putPri s c v) c (if s.dmaState c = 1 then 9 else 0)) ∧
    (∀ s : State, s.getF (rg .dmaStat c) F.dmaStat_ERR = 9 → s.asserted (576 + c.val) = true)

/-- The rule of OWNER fields, and DMA channel control. -/
def Obligations.DmaChannelsAndOwners : Prop :=
  OwnershipRule ∧ DmaChannelControl

/-- Reading a descriptor (R250, R251): from a bank that is ON and free of errors its eight words are decoded; a reserved
encoding ends the chain with error 0x02, an address outside memory with 0x01. -/
def Sys2Proof.Claims.DmaDescriptorsAreRead : Prop :=
  ∀ (s : State) (c : Fin 48),
    let a := (s.reg (rg .dmaCur c)).toNat
    let w (k : Nat) : Word := BitVec.ofNat 32 (s.memNum (a + 4 * k) 4)
    let d := Desc.ofWords (w 0) (w 1) (w 2) (w 3) (w 4) (w 5) (w 6) (w 7)
    (regionOfRange a 32 ≠ some .landing → regionOfRange a 32 ≠ some .cellar → s.dmaFetch c = s.dmaFail c 1) ∧
    ((regionOfRange a 32 = some .landing ∨ regionOfRange a 32 = some .cellar) → s.bankSt a = .on → s.cellar.bad = [] →
      s.cellar.weak = [] →
      (descReserved (w 0) (w 1) (w 4) (w 5) (w 6) (w 7) = true → s.dmaFetch c = s.dmaFail c 2) ∧
      (descReserved (w 0) (w 1) (w 4) (w 5) (w 6) (w 7) = false → d.rangeErr = none →
        s.dmaFetch c = s.modDma c fun k => { desc := some d, tmo := k.tmo, mrrs := k.mrrs }))

namespace Sys2Proof.Claims

/-- The end of descriptor d of channel c (R252), the last of its chain, with no start pending. -/
def chainDone (s : State) (c : Fin 48) (d : Desc) : State :=
  let s := if d.irq then s.latch (576 + c.val) else s
  let s := s.setF (rg .dmaStat c) F.dmaStat_DONE 1
  let s := s.setF (rg .dmaStat c) F.dmaStat_STATE 0
  s.modDma c fun _ => {}

/-- Channel c is ACTIVE on descriptor d, the last of its chain, with no start pending and nothing awaited. -/
abbrev lastDesc (s : State) (c : Fin 48) (d : Desc) : Prop :=
  s.dmaState c = 1 ∧ (s.dmaCh c).desc = some d ∧ (s.dmaCh c).wait = none ∧ (s.dmaCh c).acks = 0 ∧ d.chain = false ∧
    s.flag (rg .dmaStat c) F.dmaStat_PEND = false

/-- `n` bytes at `a` lie in the Landing within one granule of 256 bytes, which no upset has touched. -/
abbrev landGranule (s : State) (a n : Nat) : Prop :=
  0 < n ∧ 0x10000000 ≤ a ∧ a + n ≤ 0x10040000 ∧ a % 256 + n ≤ 256 ∧ s.cellar.bad = [] ∧ s.cellar.weak = []

end Sys2Proof.Claims

/-- DMA_DESCRIPTOR_COMPLETE and DMA_TIMEOUT (R250, R252, R254): a finished descriptor raises its source and ends the chain
with DONE; a copy within the Landing moves its bytes, a fill repeats its word; a timeout ends the chain with 0x07. The model's
choices: bursts to the device's own memories complete within the command (log entry 42), and a timeout is reported in BERR and
LINK_BSTAT too (log entry 62). -/
def Sys2Proof.Claims.DmaDescriptorsComplete : Prop :=
  (∀ (c : Fin 48) (lost : List (BitVec 16)) (d : Desc),
    CoreForm (.dmaDescriptorComplete c lost) (fun s => lastDesc s c d ∧ d.rows < (s.dmaCh c).row)
      (fun s => chainDone s c d)) ∧
  (∀ (c : Fin 48) (d : Desc),
    CoreForm (.dmaDescriptorComplete c [])
      (fun s => lastDesc s c d ∧ (s.dmaCh c).row = 0 ∧ (s.dmaCh c).pos = 0 ∧ (s.dmaCh c).held = 0 ∧ (s.dmaCh c).got = 0 ∧
        (s.dmaCh c).put = 0 ∧ d.kind = 0 ∧ d.rows = 0 ∧ landGranule s d.src.toNat d.len ∧ landGranule s d.dst.toNat d.len)
      (fun s => chainDone (s.setMemBytes d.dst.toNat (s.memBytes d.src.toNat d.len)) c d)) ∧
  (∀ (c : Fin 48) (d : Desc),
    CoreForm (.dmaDescriptorComplete c [])
      (fun s => lastDesc s c d ∧ (s.dmaCh c).row = 0 ∧ (s.dmaCh c).pos = 0 ∧ (s.dmaCh c).put = 0 ∧ d.kind = 2 ∧ d.rows = 0 ∧
        landGranule s d.dst.toNat d.len)
      (fun s => chainDone (s.setMemBytes d.dst.toNat
        ((List.range d.len).map fun i => BitVec.ofNat 8 (d.src.toNat >>> (8 * (i % 4))))) c d)) ∧
  (∀ (c : Fin 48) (q : Req) (pre post : List Req) (t : Nat),
    EventForm (.dmaTimeout c)
      (fun s => s.reqs = pre ++ q :: post ∧ q.who = .dma c ∧ q.dead = false ∧ q.pcie = false ∧ q.due = some t ∧ t < s.ns ∧
        ∀ p ∈ pre ++ post, p.who ≠ .dma c)
      (fun s =>
        let u : State := { s with reqs := pre ++ post }
        ((u.modLink fun l => { l with lateTags := l.lateTags ++ [(q.tag, c)] }).bulkReport q 0 true).dmaFail c 7))

/-- A channel error (R251, R255): STATE is ERROR with its code, nothing is pending or in its engine, source 576 + c is
raised, and no other channel changes. That a pending start is dropped with it is the model's choice (log entry 25). -/
def Sys2Proof.Claims.DmaErrorsEndTheChain : Prop :=
  ∀ (s : State) (c : Fin 48) (e : Nat), e < 256 →
    let t := s.dmaFail c e
    t.dmaState c = 2 ∧ t.getF (rg .dmaStat c) F.dmaStat_ERR = e ∧
    t.flag (rg .dmaStat c) F.dmaStat_PEND = false ∧ t.dmaCh c = {} ∧ t.asserted (576 + c.val) = true ∧
    t.mem = s.mem ∧
    (∀ c' : Fin 48, c' ≠ c → t.reg (rg .dmaStat c') = s.reg (rg .dmaStat c') ∧ t.dmaCh c' = s.dmaCh c')

/-- DMA descriptors are read, run and end. -/
def Obligations.DmaDescriptorsRun : Prop :=
  DmaDescriptorsAreRead ∧ DmaDescriptorsComplete ∧ DmaErrorsEndTheChain

namespace Sys2Proof.Claims

/-- The Planisher is inside a pass at window w of bank b, which it visits, with the pass's order not at its end there. -/
abbrev planAt (s : State) (mode b w : Nat) : Prop :=
  s.getF (rg .cellarPlanCtl) F.cellarPlanCtl_MODE = mode ∧ s.cellar.planNext = (b, w) ∧ b < 32 ∧ 0 < w ∧ w < 383 ∧
    s.planVisits b = true ∧ (s.reg (rg .cellarPlanBanks)).getLsbD b = true

/-- CELLAR_PLAN_STAT shows the window, the next one follows it, and the list of abandoned windows is `retry`. -/
def planShown (s : State) (b w : Nat) (retry : List (Nat × Nat)) : State :=
  putCellar ((s.setF (rg .cellarPlanStat) F.cellarPlanStat_BANK b).setF (rg .cellarPlanStat) F.cellarPlanStat_WINDOW w)
    fun c => { c with planRetry := retry, planNext := (b, w + 1) }

/-- What a window of `s` without an uncorrectable error leaves when every row of it is read and written back (R236): `t` with
its single-bit errors counted and corrected. -/
def windowRead (s t : State) (b w : Nat) : State :=
  let n := (s.cellar.weak.filter (inWindow b w)).length
  putCellar (t.setF (rg .cellarEcc) F.cellarEcc_CECNT (Nat.min 65535 (s.getF (rg .cellarEcc) F.cellarEcc_CECNT + n)))
    fun c => { c with weak := s.cellar.weak.filter fun k => !inWindow b w k }

/-- The Planisher is at window w of bank b in a mode, and the window has no uncorrectable error. -/
abbrev planClean (s : State) (mode b w : Nat) : Prop :=
  planAt s mode b w ∧ s.cellar.bad.find? (inWindow b w) = none

/-- A window done, and not abandoned. -/
def windowDone (s : State) (b w : Nat) : State :=
  windowRead s (planShown s b w (s.cellar.planRetry.filter (· ≠ (b, w)))) b w

/-- A window that a sequencer's access cuts: abandoned, and to be tried again in the pass (R258). -/
def windowLeft (s : State) (b w : Nat) : State :=
  windowRead s ((planShown s b w (s.cellar.planRetry.filter (· ≠ (b, w)) ++ [(b, w)])).setF (rg .cellarPlanStat)
    F.cellarPlanStat_ABANDON (Nat.min 255 (s.getF (rg .cellarPlanStat) F.cellarPlanStat_ABANDON + 1))) b w

end Sys2Proof.Claims

/-- PLANISHER_WINDOW (R257 to R259, R236): OFF does nothing; a scrub, and a March test that finds no failure, count and correct
the window's single-bit errors; a March test captures the first failure's bank, row and bit, and a further one in MULTI; a
window that a sequencer's access cuts is counted and comes again, with a failure found before; the rows before the first with
an uncorrectable error are counted, and by a scrub corrected, the error is captured and the window is skipped. -/
def Sys2Proof.Claims.PlanisherWindows : Prop :=
  (∀ cut fail, CoreForm (.planisherWindow cut fail) (fun s => s.getF (rg .cellarPlanCtl) F.cellarPlanCtl_MODE = 0) fun s => s) ∧
  (∀ b w cut fail, CoreForm (.planisherWindow cut fail) (fun s => planClean s 1 b w) fun s => windowDone s b w) ∧
  (∀ b w, CoreForm (.planisherWindow .none none) (fun s => planClean s 2 b w) fun s => windowDone s b w) ∧
  (∀ b w row n, CoreForm (.planisherWindow .none (some (row, n)))
    (fun s => planClean s 2 b w ∧ s.flag (rg .cellarPlanFail) F.cellarPlanFail_VALID = true)
    fun s => (windowDone s b w).setF (rg .cellarPlanFail) F.cellarPlanFail_MULTI 1) ∧
  (∀ b w row n (s : State), row < 128 → n < 288 → s.calm = true → s.coreOn = true → planClean s 2 b w →
    s.flag (rg .cellarPlanFail) F.cellarPlanFail_VALID = false →
    ∃ v, Answers (.planisherWindow .none (some (row, n))) s ((windowDone s b w).setReg (rg .cellarPlanFail) v) ∧
      F.cellarPlanFail_BANK.of v = b ∧ F.cellarPlanFail_ROW.of v = 128 * w + row ∧ F.cellarPlanFail_BIT.of v = n ∧
      F.cellarPlanFail_VALID.of v = 1) ∧
  (∀ b w, CoreForm (.planisherWindow .sequencer none) (fun s => planClean s 2 b w) fun s => windowLeft s b w) ∧
  (∀ b w row n, CoreForm (.planisherWindow .sequencer (some (row, n)))
    (fun s => planClean s 2 b w ∧ s.flag (rg .cellarPlanFail) F.cellarPlanFail_VALID = true)
    fun s => (windowLeft s b w).setF (rg .cellarPlanFail) F.cellarPlanFail_MULTI 1) ∧
  (∀ b w mode cut fail i (s : State), s.calm = true → s.coreOn = true → mode = 1 ∨ mode = 2 → planAt s mode b w → i < 128 →
    let row (j : Nat) : Nat := 0x20000000 + bankBytes * b + 4096 * w + 32 * j
    let broken (j : Nat) : Prop := ∃ k ∈ s.cellar.bad, row j ≤ k ∧ k < row (j + 1)
    let below (k : Nat) : Bool := inWindow b w k && decide (k < row i)
    broken i → (∀ j, j < i → ¬ broken j) →
    ∃ t, exec (.planisherWindow cut fail) s = .next t ∧ t.flag (rg .cellarPlanFail) F.cellarPlanFail_VALID = true ∧
      (s.flag (rg .cellarPlanFail) F.cellarPlanFail_VALID = false →
        t.getF (rg .cellarPlanFail) F.cellarPlanFail_BANK = b ∧ t.getF (rg .cellarPlanFail) F.cellarPlanFail_ROW = 128 * w + i) ∧
      t.flag (rg .cellarEccaddr) F.cellarEccaddr_VALID = true ∧ t.cellar.planNext = (b, w + 1) ∧ t.mem = s.mem ∧
      t.getF (rg .cellarEcc) F.cellarEcc_CECNT =
        Nat.min 65535 (s.getF (rg .cellarEcc) F.cellarEcc_CECNT + (s.cellar.weak.filter below).length) ∧
      t.cellar.bad = s.cellar.bad ∧ t.cellar.weak = if mode = 1 then s.cellar.weak.filter (fun k => !below k) else s.cellar.weak)

/-- The Cellar: banks, interleave, reports and Planisher. -/
def Obligations.CellarAndPlanisher : Prop :=
  CellarBanksAndInterleave ∧ CellarReportsAndCounters ∧ PlanisherWindows

/-! ### Sensor receivers, inlets, outlets and rings (R267 to R300, R529) -/

namespace Sys2Proof.Claims

/-- The requester owns inlet w; outlet w (R295). -/
abbrev ownsInlet (r : Requester) (w : Fin 8) (s : State) : Prop := reqOwner r = some (s.getF (rg .swIctl w) F.swIctl_OWNER)
abbrev ownsOutlet (r : Requester) (w : Fin 8) (s : State) : Prop := reqOwner r = some (s.getF (rg .soCtl w) F.soCtl_OWNER)

/-- Outlet w's job is over with a code (R294). -/
def outletOver (s : State) (w : Fin 8) (err : Nat) : State :=
  let x := rg .soStat w
  { ((s.setF x F.soStat_STATE 0).setF x F.soStat_ERR err).setF x F.soStat_DONE 1 with
    outJobs := s.outJobs.filter fun j => j.1 ≠ w.val }

/-- One more event in OVRCNT of wing w, which holds at 65,535 (R284, R299). -/
def overrunCounted (s : State) (w : Fin 8) : State :=
  s.setF (rg .swStat w) F.swStat_OVRCNT (Nat.min 65535 (s.getF (rg .swStat w) F.swStat_OVRCNT + 1))

/-- The lanes of group g that its logical lanes map to, as they stand (R268). -/
def lanesNow (s : State) (g : Fin 8) : List RxLane := (s.mapped g).map fun m => (s.inl g).lanes[m]

/-- The end of a line in reception (R274): SHORT where it is cut off or a lane has brought fewer words than expected, LONG
where one has brought more or its EOL is missing. -/
def lineOver (s : State) (g : Fin 8) (l : Line) (cut : Bool) : State :=
  let n := s.getF (rg .swIctl g) F.swIctl_PXCNT / 2 ^ s.getF (rg .sgCtl g) F.sgCtl_NL
  let short := cut || (lanesNow s g).any fun x => decide (x.cur.words.length < n)
  let long := !short && (lanesNow s g).any fun x => !x.cur.eol || decide (n < x.cur.words.length)
  s.modInl g fun x => { x with
    rx := none, ended := x.ended ++ [{ l with short, long, words := (lanesNow s g).map fun x => x.cur.words.reverse }] }

/-- Group g receives lines: enabled, locked, trained without a failure, aligned; its inlet enabled, no line in reception. -/
abbrev groupIdle (s : State) (g : Fin 8) : Prop :=
  s.groupReady g = true ∧ s.flag (rg .sgStat g) F.sgStat_ALIGNED = true ∧ s.flag (rg .swIctl g) F.swIctl_EN = true ∧
    (s.inl g).rx = none

/-- Bits of a word of group g (R267). -/
def wordBits (s : State) (g : Fin 8) : Nat := s.getF (rg .sgCtl g) F.sgCtl_BPW + 1

/-- The word that leaves a lane's deskew when `w` arrives, in a word of n bits (R271). -/
def leaves (x : RxLane) (n : Nat) (w : BitVec 16) : BitVec 16 := (BitVec.ofNat 16 (w.toNat % 2 ^ n) :: x.late).getLastD 0

/-- On every mapped lane the word that leaves completes a preamble with code word `code` (R273). -/
abbrev preambleDue (s : State) (g : Fin 8) (ws : LaneWords) (code : Nat) : Prop :=
  ∀ m ∈ s.mapped g,
    let x := (s.inl g).lanes[m]
    x.late.length = x.delay ∧ x.sol = none ∧ x.cur.eol = false ∧
      (x.last.take 3).map (·.toNat) = [0, 0, 2 ^ wordBits s g - 1] ∧
      (leaves x (wordBits s g) ws[m]).toNat = code % 2 ^ wordBits s g

/-- The mapped lanes past a word, with what becomes of their words. -/
def lanesPast (s : State) (g : Fin 8) (ws : LaneWords) (f : RxLane → BitVec 16 → LaneLine) : State :=
  s.modLanes g fun m x =>
    let w := leaves x (wordBits s g) ws[m]
    { x with
      late := (BitVec.ofNat 16 (ws[m].toNat % 2 ^ wordBits s g) :: x.late).dropLast, last := (w :: x.last).take 10, cur := f x w }

/-- A SOL on every mapped lane: an empty line begins. -/
def lanesBegun (s : State) (g : Fin 8) (ws : LaneWords) : State := lanesPast s g ws fun _ _ => { eol := false }

/-- The code words of group g. -/
def solCode (s : State) (g : Fin 8) : Nat := s.getF (rg .sgCode g) F.sgCode_SOL
def eolCode (s : State) (g : Fin 8) : Nat := s.getF (rg .sgCode g) F.sgCode_EOL

/-- The error-free phases of a lane are one run of `n` from `lo` on, with a phase in its middle (R270). -/
abbrev oneRun (clean : BitVec 64) (lo n : Nat) : Prop :=
  n % 2 = 1 ∧ n < 64 ∧ lo + n ≤ 64 ∧ ∀ p, p < 64 → (clean.getLsbD p = true ↔ lo ≤ p ∧ p < lo + n)

end Sys2Proof.Claims

/-- Training and loss of lock (R270, R272): TRAINGO clears the group's results and begins; without PLL lock it ends at once;
else it records lock, the centre and the width of each mapped lane's error-free run, the lanes whose run is shorter than 8
phases and, where there is none, those whose training word is not found. Loss of lock clears LOCK and ALIGNED, forgets what
the lanes hold and breaks the line off as SHORT. -/
def Sys2Proof.Claims.GroupTraining : Prop :=
  ∀ g : Fin 8,
    WriteForm (fun r v => .traingo r g v) (rg .sgCtl g)
      (fun r v s => ownsInlet r g s ∧ F.sgCtl_TRAINGO.of v = 1)
      (fun _ v s =>
        ((s.writeDefault (rg .sgCtl g) v).setReg (rg .sgStat g) (s.reg (rg .sgStat g) &&& 1)).modInl g fun i =>
          { i with training := true, lanes := i.lanes.map fun l => { cur := l.cur } }) ∧
    (∀ clean seen, CoreForm (.trainingEnd g false clean seen) (fun s => (s.inl g).training = true) fun s =>
      ((s.modInl g fun i => { i with training := false }).setF (rg .sgStat g) F.sgStat_LOCK 0).setF (rg .sgStat g)
        F.sgStat_TDONE 1) ∧
    (∀ (clean : Vector (BitVec 64) 8) (seen : Vector (List (Option (BitVec 16))) 8) (lo n : Fin 8 → Nat) (s : State), s.calm = true →
      s.coreOn = true → (s.inl g).training = true → (∀ m ∈ s.mapped g, oneRun clean[m] (lo m) (n m)) →
      ∃ t, exec (.trainingEnd g true clean seen) s = .next t ∧
        t.flag (rg .sgStat g) F.sgStat_LOCK = true ∧ t.flag (rg .sgStat g) F.sgStat_TDONE = true ∧
        (∀ m ∈ s.mapped g, t.getF (rg .sgLane g m) F.sgLane_PHASE = lo m + (n m - 1) / 2 ∧
          t.getF (rg .sgLane g m) F.sgLane_EYE = n m) ∧
        (∀ m : Fin 8, (t.getF (rg .sgStat g) F.sgStat_EYEFAIL).testBit m = true ↔ m ∈ s.mapped g ∧ n m < 8) ∧
        ((∀ m ∈ s.mapped g, 8 ≤ n m) →
          ∀ m : Fin 8, (t.getF (rg .sgStat g) F.sgStat_WORDFAIL).testBit m = true ↔
            m ∈ s.mapped g ∧ wordFound (wordBits s g) (s.getF (rg .sgTrain g) F.sgTrain_TRAIN) seen[m] = false)) ∧
    (∀ l, CoreForm (.lossOfLock g []) (fun s => (s.inl g).rx = some l) fun s =>
      (lineOver ((s.setF (rg .sgStat g) F.sgStat_LOCK 0).setF (rg .sgStat g) F.sgStat_ALIGNED 0) g l true).modInl g fun i =>
        { i with lanes := Vector.replicate 8 {} }) ∧
    CoreForm (.lossOfLock g []) (fun s => (s.inl g).rx = none) fun s =>
      ((s.setF (rg .sgStat g) F.sgStat_LOCK 0).setF (rg .sgStat g) F.sgStat_ALIGNED 0).modInl g fun i =>
        { i with lanes := Vector.replicate 8 {} }

/-- SOL and EOL (R271, R273 to R275, R277, R282): a SOL on every mapped lane takes the oldest mark and begins its line, is
counted in GATED at a closed gate, and is an orphan with no mark queued; an EOL on every lane ends the line; any other word
belongs to its line; the first SOL after training sets each lane's SKEW, or SKEWFAIL where a lane lags by more than 7 words.
A group that is not ready takes no word. The model's choices: what makes a group ready (log entry 57), and the preamble taken
lane by lane (log entry 100). -/
def Sys2Proof.Claims.LinesAreReceived : Prop :=
  ∀ g : Fin 8,
    (∀ words last, CoreForm (.solPreamble g words last) (fun s => s.groupReady g = false) (fun s => s) ∧
      CoreForm (.eolPreamble g words) (fun s => s.groupReady g = false) fun s => s) ∧
    (∀ ws, CoreForm (.solPreamble g [] ws)
      (fun s => groupIdle s g ∧ preambleDue s g ws (solCode s g) ∧ s.gateOpen g s.porchGate = false) fun s =>
      (lanesBegun s g ws).setF (rg .sgStat g) F.sgStat_GATED (Nat.min 4095 (s.getF (rg .sgStat g) F.sgStat_GATED + 1))) ∧
    (∀ ws, CoreForm (.solPreamble g [] ws)
      (fun s => groupIdle s g ∧ preambleDue s g ws (solCode s g) ∧ s.gateOpen g s.porchGate = true ∧ (s.inl g).marks = [])
      fun s =>
      overrunCounted ((lanesBegun s g ws).setF (rg .swStat g) F.swStat_ORPHAN
        (Nat.min 32767 (s.getF (rg .swStat g) F.swStat_ORPHAN + 1))) g) ∧
    (∀ ws n slot rest, CoreForm (.solPreamble g [] ws)
      (fun s => groupIdle s g ∧ preambleDue s g ws (solCode s g) ∧ s.gateOpen g s.porchGate = true ∧
        (s.inl g).marks = (n, slot) :: rest ∧ (s.inl g).ended = [] ∧ (s.inl g).writer = [] ∧
        s.flag (rg .swIctl g) F.swIctl_RELCHK = false) fun s =>
      (((lanesBegun s g ws).modInl g fun x => { x with marks := rest }).setF (rg .swLine g) F.swLine_QUEUED rest.length).modInl g
        fun x => { x with rx := some { n, slot, late := false, skew := false } }) ∧
    (∀ ws l, CoreForm (.eolPreamble g [ws])
      (fun s => s.groupReady g = true ∧ (s.inl g).rx = some l ∧ preambleDue s g ws (eolCode s g) ∧
        solCode s g % 2 ^ wordBits s g ≠ eolCode s g % 2 ^ wordBits s g) fun s =>
      lineOver (lanesPast s g ws fun x _ => { words := x.cur.words.drop 3, eol := true }) g l false) ∧
    (∀ ws code, CoreForm (.solPreamble g [] ws)
      (fun s => s.groupReady g = true ∧ preambleDue s g ws code ∧ code % 2 ^ wordBits s g ≠ solCode s g % 2 ^ wordBits s g ∧
        code % 2 ^ wordBits s g ≠ eolCode s g % 2 ^ wordBits s g) fun s =>
      lanesPast s g ws fun x w => { x.cur with words := w :: x.cur.words }) ∧
    (∀ (s : State) (k : Fin 8 → Nat), s.flag (rg .sgStat g) F.sgStat_ALIGNED = false → (s.inl g).rx = none →
      (∀ m ∈ s.mapped g, ((s.inl g).lanes[m]).sol.map (·.1) = some (k m)) →
      ((∀ m ∈ s.mapped g, k m ≤ 7) → (s.sol g).flag (rg .sgStat g) F.sgStat_ALIGNED = true ∧
        ∀ m ∈ s.mapped g, (s.sol g).getF (rg .sgLane g m) F.sgLane_SKEW = k m) ∧
      ((∃ m ∈ s.mapped g, 7 < k m) → s.sol g = s.setF (rg .sgStat g) F.sgStat_SKEWFAIL 1))

/-- Marks (R276, R278, R285): with the ring in effect, a write of SENSOR_W[w]_LINE sets NEXT and the slot of that line; MARK
queues it; with two queued the oldest becomes a missed line, counted in OVRCNT. That NEXT is set before MARK is the model's
choice (log entry 26). -/
def Sys2Proof.Claims.LineMarks : Prop :=
  ∀ w : Fin 8,
    let x := rg .swLine w
    let size (s : State) := F.swWin_IDEPTH.of (((s.inl w).win).getD (s.reg (rg .swWin w)))
    let placed (s : State) (v : Word) := (s.setF x F.swLine_NEXT (F.swLine_NEXT.of v)).setF x F.swLine_SLOT
      (F.swLine_NEXT.of v % size s)
    let after (s : State) (v : Word) := ((placed s v).setF x F.swLine_NEXT (F.swLine_NEXT.of v + 1)).setF x F.swLine_SLOT
      ((F.swLine_NEXT.of v % size s + 1) % size s)
    WriteForm (fun r v => .lineNextWrite r w v) x
      (fun r v s => ownsInlet r w s ∧ F.swLine_MARK.of v = 0 ∧ 0 < size s ∧ size s ≤ 64) (fun _ v s => placed s v) ∧
    WriteForm (fun r v => .lineStartMark r w v) x
      (fun r v s => ownsInlet r w s ∧ F.swLine_MARK.of v = 1 ∧ 0 < size s ∧ size s ≤ 64 ∧ (s.inl w).marks.length < 2)
      (fun _ v s => ((after s v).modInl w fun i =>
        { i with marks := i.marks ++ [(F.swLine_NEXT.of v, F.swLine_NEXT.of v % size s)] }).setF x F.swLine_QUEUED
          ((s.inl w).marks.length + 1)) ∧
    (∀ m sl second, WriteForm (fun r v => .lineStartMark r w v) x
      (fun r v s => ownsInlet r w s ∧ F.swLine_MARK.of v = 1 ∧ 0 < size s ∧ size s ≤ 64 ∧
        (s.inl w).marks = [(m, sl), second])
      (fun _ v s => ((overrunCounted ((after s v).putHist w m false false false false false false 1) w).modInl w
        fun i => { i with marks := [second, (F.swLine_NEXT.of v, F.swLine_NEXT.of v % size s)] }).setF x F.swLine_QUEUED 2))

/-- Sensor groups train and receive lines by their marks. -/
def Obligations.GroupsReceiveLines : Prop :=
  GroupTraining ∧ LinesAreReceived ∧ LineMarks

/-- HAND_OVER and LINE_STATUS_WRITE (R279, R280, R283, R285, R286): a waiting write of WIN takes effect, and the oldest ended
line's bits go to the planes of its slot, in a wing that is ON; then HIST records its number and how it ended. In a wing that is
OFF or being cleared the line is lost, with that fate in HIST, and counted; source 664 + 4 w is asserted while the count is
not 0. The model's choices: a plane past the last wraps (log entry 51), and the operand says which writes met a
micro-operation (log entry 59). -/
def Obligations.LinesReachThePlanes : Prop :=
  ∀ w : Fin 8,
    (∀ (collide : BitVec 16) (l : Line) (rest : List Line), CoreForm (.handOver w collide)
      (fun s => (s.inl w).ended = l :: rest ∧ s.getF (rg .sysPwrstat) F.sysPwrstat_STATE ≠ 1 ∧ s.wingOn w = true ∧
        s.wingClearing w = false)
      fun s =>
        let win := s.reg (rg .swWin w)
        let n := s.getF (rg .swIctl w) F.swIctl_PXCNT
        let px := (List.range n).map (linePixel (2 ^ s.getF (rg .sgCtl w) F.sgCtl_NL) n (s.getF (rg .sgCtl w) F.sgCtl_BPW + 1)
          (s.flag (rg .sgCtl w) F.sgCtl_MAPMODE) l.words)
        let t := s.modInl w fun x => { x with ended := rest, win := none }
        let t := forN (F.swWin_BPP.of win) (fun j t => t.inletPlane w
          ((F.swWin_IBASE.of win + l.slot * F.swWin_BPP.of win + j) % 4096) (pixelPlane px (j + F.swWin_PSHIFT.of win))
          (collide.getLsbD j)) t
        t.modInl w fun x => { x with
          writer := x.writer ++ [({ l with words := [] }, (List.range (F.swWin_BPP.of win)).any fun j => collide.getLsbD j)] }) ∧
    (∀ (collide : BitVec 16) (l : Line) (rest : List Line), CoreForm (.handOver w collide)
      (fun s => (s.inl w).ended = l :: rest ∧ s.getF (rg .sysPwrstat) F.sysPwrstat_STATE ≠ 1 ∧
        (s.wingOn w = false ∨ s.wingClearing w = true))
      fun s => overrunCounted ((s.modInl w fun x => { x with ended := rest, win := none }).putHist w l.n false l.short l.long
        l.skew false false 4) w) ∧
    (∀ s : State, s.asserted (664 + 4 * w.val) = true ↔ s.getF (rg .swStat w) F.swStat_OVRCNT ≠ 0) ∧
    (∀ (px : List Nat) (b i : Nat), i < 8192 → (pixelPlane px b).getLsbD i = ((px[i]?).getD 0).testBit b) ∧
    (∀ (l : Line) (hit : Bool) (rest : List (Line × Bool)) (s : State), s.calm = true → s.coreOn = true →
      (s.inl w).writer = (l, hit) :: rest →
      ∃ v, Answers (.lineStatusWrite w) s
          ((s.modInl w fun x => { x with writer := rest }).setReg (rg .swHist w (l.n % 4)) v) ∧
        F.swHist_LINE.of v = l.n % 2 ^ 23 ∧ F.swHist_COMPLETE.of v = (if l.short || l.long then 0 else 1) ∧
        F.swHist_SHORT.of v = (if l.short then 1 else 0) ∧ F.swHist_LONG.of v = (if l.long then 1 else 0) ∧
        F.swHist_SKEW.of v = (if l.skew then 1 else 0) ∧ F.swHist_COLLIDED.of v = (if hit then 1 else 0) ∧
        F.swHist_OVERWROTE.of v = (if l.late then 1 else 0) ∧ F.swHist_FATE.of v = 0)

/-- W_STAT_CLR, RING_RPTR_WRITE, RING_STAT_CLR and HEAD_PRESENCE_CHANGE (R291, R299, R300, R529, R546): the owner of an inlet
zeroes OVRCNT and ORPHAN; RPTR takes what is written; CLR zeroes DROP; a change of presence that has held for FILT µs is
recorded, with its change bit, and a shorter one is not; without VIO12 the pin reads 0, which says present. -/
def Sys2Proof.Claims.SensorCountersAndPresence : Prop :=
  (∀ w : Fin 8, WriteForm (fun r v => .wStatClr r w v) (rg .swStat w)
    (fun r v s => ownsInlet r w s ∧ F.swStat_CLR.of v = 1)
    fun _ _ s => (s.setF (rg .swStat w) F.swStat_OVRCNT 0).setF (rg .swStat w) F.swStat_ORPHAN 0) ∧
  (∀ i : Fin 8, WriteForm (fun r v => .ringRptrWrite r i v) (rg .ringRptr i) (fun _ _ _ => True)
    fun _ v s => s.setF (rg .ringRptr i) F.ringRptr_RPTR (F.ringRptr_RPTR.of v)) ∧
  (∀ i : Fin 8, WriteForm (fun r v => .ringStatClr r i v) (rg .ringStat i) (fun _ v _ => F.ringStat_CLR.of v = 1)
    fun _ v s => (s.writeDefault (rg .ringStat i) v).setF (rg .ringStat i) F.ringStat_DROP 0) ∧
  (∀ (g : Fin 8) (p : Bool) (held : Nat), TclkForm (.headPresenceChange g ⟨p, held⟩)
    (fun s => 1000 * s.getF (rg .sensorHpres) F.sensorHpres_FILT ≤ held ∧
      (s.reg (rg .sensorHpres)).getLsbD g ≠ (p || s.supplyGone 11)) fun s =>
    s.setReg (rg .sensorHpres) (setBits (setBits (s.reg (rg .sensorHpres)) g 1 (if p || s.supplyGone 11 then 1 else 0))
      (8 + g.val) 1 1)) ∧
  (∀ (g : Fin 8) (p : Bool) (held : Nat), TclkForm (.headPresenceChange g ⟨p, held⟩)
    (fun s => held < 1000 * s.getF (rg .sensorHpres) F.sensorHpres_FILT ∨
      (s.reg (rg .sensorHpres)).getLsbD g = (p || s.supplyGone 11)) fun s => s)

/-- INLET_CLAIM and OUTLET_CLAIM (R249, R295): an unowned inlet or outlet takes the claimant and the write's other fields; a
release frees it, and aborts the job of an active outlet; a refusal is captured in SENSOR_CLAIM. -/
def Sys2Proof.Claims.InletAndOutletClaims : Prop :=
  ∀ w : Fin 8,
    WriteForm (fun r v => .inletClaim r w v) (rg .swIctl w)
      (fun r v s => reqOwner r = some (F.swIctl_OWNER.of v) ∧ s.getF (rg .swIctl w) F.swIctl_OWNER = 0)
      (fun _ v s => s.writeDefault (rg .swIctl w) v) ∧
    WriteForm (fun r v => .outletClaim r w v) (rg .soCtl w)
      (fun r v s => reqOwner r = some (F.soCtl_OWNER.of v) ∧ s.getF (rg .soCtl w) F.soCtl_OWNER = 0)
      (fun _ v s => s.writeDefault (rg .soCtl w) v) ∧
    WriteForm (fun r v => .inletClaim r w v) (rg .swIctl w)
      (fun r v s => ownsInlet r w s ∧ F.swIctl_OWNER.of v = 0)
      (fun _ _ s => s.setF (rg .swIctl w) F.swIctl_OWNER 0) ∧
    WriteForm (fun r v => .outletClaim r w v) (rg .soCtl w)
      (fun r v s => ownsOutlet r w s ∧ F.soCtl_OWNER.of v = 0 ∧ s.flag (rg .soStat w) F.soStat_STATE = false)
      (fun _ _ s => s.setF (rg .soCtl w) F.soCtl_OWNER 0) ∧
    WriteForm (fun r v => .outletClaim r w v) (rg .soCtl w)
      (fun r v s => ownsOutlet r w s ∧ s.getF (rg .soCtl w) F.soCtl_OWNER ≠ 0 ∧ F.soCtl_OWNER.of v = 0 ∧
        s.flag (rg .soStat w) F.soStat_STATE = true)
      (fun _ _ s => (outletOver s w 6).setF (rg .soCtl w) F.soCtl_OWNER 0) ∧
    WriteForm (fun r v => .inletClaim r w v) (rg .swIctl w)
      (fun r v s => ownerRule r (s.getF (rg .swIctl w) F.swIctl_OWNER) (F.swIctl_OWNER.of v) = .refuse)
      (fun r _ s => s.sensorRefuse w (reqCode r) false) ∧
    WriteForm (fun r v => .outletClaim r w v) (rg .soCtl w)
      (fun r v s => ownerRule r (s.getF (rg .soCtl w) F.soCtl_OWNER) (F.soCtl_OWNER.of v) = .refuse)
      (fun r _ s => s.sensorRefuse (8 + w.val) (reqCode r) false)

/-- Counters and presence; claims of inlets and outlets. -/
def Obligations.SensorRecordsAndClaims : Prop :=
  SensorCountersAndPresence ∧ InletAndOutletClaims

namespace Sys2Proof.Claims

/-- Planes of wing w copied to memory from `dst` on, 1,024 bytes each, bit t of byte b from column 8 b + t (R293). -/
def planesCopied (s : State) (w : Fin 8) : Nat → List Nat → State
  | _, [] => s
  | dst, p :: l => planesCopied (s.setMemBytes dst (bytesLE 1024 (s.plane (w.val + 1) p).toNat)) w (dst + 1024) l

/-- A write of SENSOR_OSTART that selects outlet w alone, by its owner. -/
abbrev selects (r : Requester) (w : Fin 8) (v : Word) (s : State) (start abort : Nat) : Prop :=
  ownsOutlet r w s ∧ bits v 0 8 = 2 ^ w.val ∧ F.sensorOstart_START.of v = start ∧ F.sensorOstart_ABORT.of v = abort

end Sys2Proof.Claims

/-- Outlets (R288 to R294): a start checks its configuration and captures the flagged records; a busy outlet shows OVR; an
abort ends with 0x06; a job's records go to its ring, dropped when full, or its planes to memory, and it ends with DONE. -/
def Sys2Proof.Claims.OutletJobs : Prop :=
  ∀ w : Fin 8,
    let x := rg .soStat w
    let cleared (s : State) := s.setReg x (s.reg x &&& 0x3FFF000C#32)
    let awake (s : State) : Prop := s.getF (rg .sysPwrstat) F.sysPwrstat_STATE ≠ 1
    WriteForm .outletStart (rg .sensorOstart)
      (fun r v s => selects r w v s 1 0 ∧ s.flag x F.soStat_STATE = false ∧ awake s ∧ (s.outCheck w).isSome = true)
      (fun _ _ s => outletOver (cleared s) w ((s.outCheck w).getD 0)) ∧
    WriteForm .outletStart (rg .sensorOstart)
      (fun r v s => selects r w v s 1 0 ∧ s.flag x F.soStat_STATE = false ∧ awake s ∧ s.outCheck w = none ∧
        s.arr.badPar = [] ∧ s.getF (rg .soCtl w) F.soCtl_MODE = 0)
      (fun _ _ s =>
        let recs := s.outRecords w
        let max := s.getF (rg .soLim w) F.soLim_MAXREC
        let t := (((cleared s).setF x F.soStat_STATE 1).setF x F.soStat_CAPT 1).setF x F.soStat_FCNT recs.length
        { t.setF x F.soStat_TRUNC (if max < recs.length then 1 else 0) with
          outJobs := s.outJobs ++ [(w.val, .compact (s.getF (rg .soCtl w) F.soCtl_RING) (recs.take max))] }) ∧
    WriteForm .outletStart (rg .sensorOstart)
      (fun r v s => selects r w v s 1 0 ∧ s.flag x F.soStat_STATE = false ∧ awake s ∧ s.outCheck w = none ∧
        s.getF (rg .soCtl w) F.soCtl_MODE = 1)
      (fun _ _ s => { (cleared s).setF x F.soStat_STATE 1 with
        outJobs := s.outJobs ++ [(w.val, .plane (s.reg (rg .soDst w)).toNat [] (s.outPlanes w))] }) ∧
    WriteForm .outletStart (rg .sensorOstart)
      (fun r v s => selects r w v s 1 0 ∧ s.flag x F.soStat_STATE = true) (fun _ _ s => s.setF x F.soStat_OVR 1) ∧
    WriteForm .outletAbort (rg .sensorOstart)
      (fun r v s => ownsOutlet r w s ∧ bits v 0 8 = 2 ^ w.val ∧ F.sensorOstart_ABORT.of v = 1 ∧ s.flag x F.soStat_STATE = true)
      (fun _ _ s => outletOver s w 6) ∧
    (∀ ring recs pre post t, CoreForm (.outletDone w)
      (fun s => s.outJobs = pre ++ (w.val, .compact ring recs) :: post ∧
        (∀ j ∈ pre, j.1 ≠ w.val ∧ j.2.ring? ≠ some ring) ∧
        (∀ b, b < 32 → s.bankWaking b = false) ∧ s.ringPutAll ring recs = (t, none))
      fun _ => outletOver (t.setF x F.soStat_CAPT 1) w 0) ∧
    (∀ dst planes pre post, CoreForm (.outletDone w)
      (fun s => s.outJobs = pre ++ (w.val, .plane dst [] planes) :: post ∧ (∀ j ∈ pre, j.1 ≠ w.val) ∧ awake s ∧
        s.wingOn w = true ∧ s.wingClearing w = false ∧ s.arr.badPar = [] ∧ (∀ b, b < 32 → s.bank b = .on) ∧
        s.cellar.bad = [] ∧ s.cellar.weak = [] ∧ 0x20000000 ≤ dst ∧ dst % 32 = 0 ∧ dst + 1024 * planes.length ≤ 0x23000000)
      fun s => outletOver ((planesCopied s w dst planes).setF x F.soStat_CAPT 1) w 0)

/-- One record to a ring (R291): a full ring drops and counts it; otherwise its 8 bytes stand at the place of WPTR, which
moves on by one. -/
def Sys2Proof.Claims.RingsTakeRecords : Prop :=
  ∀ (s : State) (i : Fin 8) (rec : BitVec 64),
    let size := 2 ^ s.getF (rg .ringSize i) F.ringSize_SIZE
    let wp := s.getF (rg .ringWptr i) F.ringWptr_WPTR
    let rp := s.getF (rg .ringRptr i) F.ringRptr_RPTR
    let a := (s.reg (rg .ringBase i)).toNat + 8 * (wp % size)
    ((2 ^ 24 + wp - rp) % 2 ^ 24 = size → s.ringPut i rec =
      ((s.setF (rg .ringStat i) F.ringStat_DROP (Nat.min 65535 (s.getF (rg .ringStat i) F.ringStat_DROP + 1))).setF
        (rg .ringStat i) F.ringStat_FULL 1, none)) ∧
    ((2 ^ 24 + wp - rp) % 2 ^ 24 ≠ size → s.bankSt a = .on → s.cellar.bad = [] → s.cellar.weak = [] →
      s.ringPut i rec = ((s.setMemBytes a (bytesLE 8 rec.toNat)).setF (rg .ringWptr i) F.ringWptr_WPTR (wp + 1), none))

/-- Outlet jobs, and the rings that take records. -/
def Obligations.OutletJobsAndRings : Prop :=
  OutletJobs ∧ RingsTakeRecords

/-! ### Porch engines (R301 to R337) -/

namespace Sys2Proof.Claims

/-- A porch instruction word from its fields: OP, W, SP, DWELL and the 12 operand bits (R311). -/
def porchWord (op : Fin 16) (w : Bool) (sp : Fin 8) (dwell : Fin 16) (operand : Fin 4096) : BitVec 24 :=
  BitVec.ofNat 24 (operand.val + 4096 * dwell.val + 65536 * sp.val + (if w then 2 ^ 19 else 0) + 2 ^ 20 * op.val)

/-- The bits of a truth value. -/
def one (b : Bool) : Nat := if b then 1 else 0

/-- `w` means `i` whatever its common fields hold. -/
abbrev Means (op : Fin 16) (operand : Nat) (i : PInstr) : Prop :=
  ∀ w sp dwell, decodePorch (porchWord op w sp dwell (Fin.ofNat 4096 operand)) = some i

end Sys2Proof.Claims

/-- Porch instruction words (R311 to R314): each operand form at its place means its instruction, and the two undefined
operation codes are faults. -/
def Sys2Proof.Claims.PorchWordsDecode : Prop :=
  (∀ (cond : Nat) (addr : Byte), cond < 14 → Means 0 (addr.toNat + 256 * cond) (.br cond addr.toNat)) ∧
  (∀ reg : Fin 2, Means 1 reg.val (.brr reg)) ∧
  (∀ (pol limit : Bool) (i : Fin 32), Means 2 (i.val + 256 * one limit + 2048 * one pol) (.wait pol 0 limit i)) ∧
  (∀ (pol limit : Bool) (i : Fin 8), Means 2 (i.val + 256 * one limit + 512 + 2048 * one pol) (.wait pol 1 limit i)) ∧
  (∀ pol limit : Bool, Means 2 (256 * one limit + 1024 + 2048 * one pol) (.wait pol 2 limit 0)) ∧
  (∀ (d : Fin 6) (auto : Bool) (count : Nat), 1 ≤ count → count ≤ 32 →
    Means 3 (count + 256 * one auto + 512 * d.val) (.sho d auto count) ∧
    Means 4 (count + 256 * one auto + 512 * d.val) (.shi d auto count) ∧
    Means 5 (count + 256 * one auto) (.shx auto count)) ∧
  (∀ m : Fin 3, Means 6 m.val (.pull m) ∧ Means 7 m.val (.push m)) ∧
  (∀ (fn : Fin 8) (dst : Fin 6) (src : Fin 7), Means 8 (8 * fn.val + 64 * src.val + 512 * dst.val) (.alu fn dst src)) ∧
  (∀ (dst : Fin 4) (imm : Fin 1024), Means 9 (imm.val + 1024 * dst.val) (.ldi dst imm)) ∧
  (∀ (op : Fin 2) (i : Fin 8), Means 10 (i.val + 1024 * op.val) (.sig op i)) ∧ Means 10 2048 (.sig 2 0) ∧
  (∀ b : Bool, Means 11 (one b) (.gate b)) ∧ Means 12 0 .nop ∧ Means 13 0 .halt ∧
  (∀ w : BitVec 24, 14 ≤ w.toNat / 2 ^ 20 → decodePorch w = none)

namespace Sys2Proof.Claims

/-- Channel n is at an issue opportunity for the program word `w` at its PC: running, not in FAULT, no dwell, nothing held
or queued. -/
abbrev porchAt (s : State) (n : Fin 512) (w : BitVec 24) : Prop :=
  s.chEn n = true ∧ (s.chan n).fault = false ∧ (s.chan n).dwell = 0 ∧ (s.chan n).inj = none ∧ (s.chan n).latch = none ∧ (s.chan n).saved = none ∧
    s.chWord n = w

/-- The completion of the fetched word `w` (R311, R315): its side pattern, its dwell, and the PC, which an instruction may
write; with W it is ORIGIN, else the next. -/
def porchDone (s : State) (n : Fin 512) (w : BitVec 24) (pc : Option Nat) : State :=
  let t := s.putSide n (w.toNat / 65536 % 8)
  let dwell := w.toNat / 4096 % 16
  let t := t.modChan n fun c => { c with
    dwell := if t.getF (rg .chCtl n) F.chCtl_DWX = 1 then 4 * dwell else dwell, latch := none }
  t.setF (rg .chExec n) F.chExec_PC
    (pc.getD (if w.getLsbD 19 then t.getF (rg .chExec n) F.chExec_ORIGIN else t.getF (rg .chExec n) F.chExec_PC + 1))

/-- The command `c` completes the instruction `i` on channel n with the effect f. -/
def PorchForm (c : Instr) (n : Fin 512) (i : PInstr) (p : State → Prop) (f : State → State) : Prop :=
  ∀ (s : State) (w : BitVec 24), s.calm = true → s.coreOn = true → porchAt s n w → decodePorch w = some i → p s →
    Answers c s (porchDone (f (s.nextOpp n)) n w none)

/-- The same for an instruction that waits: its word stands in the latch, with its refill owed where `refill` says so (R317),
and f is all that changes. -/
def PorchHolds (c : Instr) (n : Fin 512) (i : PInstr) (p : State → Prop) (f : State → State) (refill : Bool := false) : Prop :=
  ∀ (s : State) (w : BitVec 24), s.calm = true → s.coreOn = true → porchAt s n w → decodePorch w = some i → p s →
    Answers c s ((f (s.nextOpp n)).modChan n fun x => { x with latch := some { word := w, inj := false, refill } })

/-- The level of pin k of the channel's input window reckoned from PINBASE. -/
def chPin (s : State) (n : Fin 512) (pads : BitVec 384) (k : Nat) : Bool := s.pinLevel pads (s.pinBase n + k)

/-- The conditions of BR (R313). -/
def brMet (s : State) (n : Fin 512) (pads : BitVec 384) (cond : Nat) : Bool :=
  let c := s.chan n
  let jpin := chPin s n pads (s.getF (rg .chPins n) F.chPins_JPIN)
  [true, c.s0 == 0, c.s0 != 1, c.s1 == 0, c.s1 != 1, c.s0 == c.s1, decide (c.s0.toNat < c.s1.toNat), jpin, !jpin,
    s.osrDone n, s.isrFull n, c.tof, c.ofifo.isEmpty, decide (8 ≤ c.ififo.length)].getD cond false

/-- What testing a condition changes: S0 or S1 counts down, TOF is cleared. -/
def brTest (cond : Nat) (c : PorchCh) : PorchCh :=
  if cond = 2 then { c with s0 := c.s0 - 1 } else if cond = 4 then { c with s1 := c.s1 - 1 }
  else if cond = 11 then { c with tof := false } else c

/-- The bits that SHO takes from OSR, and OSR after it, by OLSB (R316). -/
def outBits (lsb : Bool) (osr : Word) (k : Nat) : Word :=
  if lsb then BitVec.ofNat 32 (osr.toNat % 2 ^ k) else BitVec.ofNat 32 (osr.toNat / 2 ^ (32 - k))
def outRest (lsb : Bool) (osr : Word) (k : Nat) : Word := if lsb then osr >>> k else osr <<< k

/-- ISR after k bits of `src` have come in, by ILSB (R316). -/
def inBits (lsb : Bool) (isr src : Word) (k : Nat) : Word :=
  let v := BitVec.ofNat 32 (src.toNat % 2 ^ k)
  if lsb then (isr >>> k) ||| (v <<< (32 - k)) else (isr <<< k) ||| v

/-- OSR shifted out by k, with OCNT; ISR taking k bits, with ICNT. -/
def shifted (lsb : Bool) (k : Nat) (c : PorchCh) : PorchCh := { c with osr := outRest lsb c.osr k, ocnt := Nat.min 32 (c.ocnt + k) }
def taken (lsb : Bool) (k : Nat) (src : Word) (c : PorchCh) : PorchCh :=
  { c with isr := inBits lsb c.isr src k, icnt := Nat.min 32 (c.icnt + k) }

/-- Where SHO puts its bits. -/
def shoTo (n : Fin 512) (dst k : Nat) (v : Word) (s : State) : State :=
  match dst with
  | 0 => s.putMain n false k v
  | 1 => s.putMain n true k v
  | 2 => s.modChan n fun c => { c with s0 := v }
  | 3 => s.modChan n fun c => { c with s1 := v }
  | 4 => s.modChan n fun c => { c with isr := v, icnt := k }
  | _ => s

end Sys2Proof.Claims

/-- BR, BRR, WAIT, WAIT_TIMEOUT, HALT, NOP, SIG and GATE (R311, R313, R315, R320): the PC, the flags, and waiting. -/
def Sys2Proof.Claims.PorchFlow : Prop :=
  ∀ n : Fin 512,
    (∀ (pads : BitVec 384) (cond addr : Nat) (s : State) (w : BitVec 24), s.calm = true → s.coreOn = true →
      porchAt s n w → decodePorch w = some (.br cond addr) →
      Answers (.br n pads) s (porchDone ((s.nextOpp n).modChan n (brTest cond)) n w
        (if brMet s n pads cond then some addr else none))) ∧
    (∀ (reg : Nat) (s : State) (w : BitVec 24), s.calm = true → s.coreOn = true → porchAt s n w →
      decodePorch w = some (.brr reg) →
      Answers (.brr n) s (porchDone (s.nextOpp n) n w
        (some ((if reg = 0 then (s.chan n).s0 else (s.chan n).s1).toNat % 256)))) ∧
    (∀ pads pol idx limit, PorchForm (.wait n pads) n (.wait pol 0 limit idx) (fun s => chPin s n pads idx = pol) fun s => s) ∧
    (∀ pads pol idx limit, PorchForm (.wait n pads) n (.wait pol 1 limit idx) (fun s => s.peFlag n idx = pol) fun s =>
      if pol then s.setPeFlag n idx false else s) ∧
    (∀ pads pol limit, PorchForm (.wait n pads) n (.wait pol 2 limit 0) (fun s => (s.chan n).evl = pol) fun s =>
      if pol then s.modChan n fun c => { c with evl := false } else s) ∧
    (∀ pads pol idx, PorchHolds (.wait n pads) n (.wait pol 0 false idx) (fun s => chPin s n pads idx ≠ pol) fun s => s) ∧
    (∀ pads pol idx, PorchHolds (.wait n pads) n (.wait pol 0 true idx)
      (fun s => chPin s n pads idx ≠ pol ∧ (s.chan n).s1 ≠ 0) fun s => s.modChan n fun c => { c with s1 := c.s1 - 1 }) ∧
    (∀ pads pol idx, PorchForm (.waitTimeout n pads) n (.wait pol 0 true idx)
      (fun s => chPin s n pads idx ≠ pol ∧ (s.chan n).s1 = 0) fun s => s.modChan n fun c => { c with tof := true }) ∧
    PorchForm (.nop (.porch n)) n .nop (fun _ => True) (fun s => s) ∧
    PorchForm (.halt n) n .halt (fun _ => True)
      (fun s => (s.setF (rg .chCtl n) F.chCtl_EN 0).setF (rg .chIrq n) F.chIrq_STOPPED 1) ∧
    (∀ o, PorchForm (.gate n) n (.gate o) (fun _ => True) fun s => s.modChan n fun c => { c with gate := o }) ∧
    (∀ i, PorchForm (.sig n) n (.sig 0 i) (fun _ => True) fun s => s.setPeFlag n i true) ∧
    (∀ i, PorchForm (.sig n) n (.sig 1 i) (fun _ => True) fun s => s.setPeFlag n i false) ∧
    PorchForm (.sig n) n (.sig 2 0) (fun _ => True) (fun s => s.setF (rg .chIrq n) F.chIrq_RAISE 1)

/-- SHO, SHI, SHX, PULL and PUSH (R315 to R317, R319): shifts of COUNT bits by the bit order, the words of the FIFOs, and
waiting for them. -/
def Sys2Proof.Claims.PorchShiftsAndFifos : Prop :=
  ∀ n : Fin 512,
    let olsb (s : State) := decide (s.chF n F.chCtl_OLSB = 1)
    let ilsb (s : State) := decide (s.chF n F.chCtl_ILSB = 1)
    (∀ dst k, PorchForm (.sho n) n (.sho dst false k) (fun _ => True) fun s =>
      shoTo n dst k (outBits (olsb s) (s.chan n).osr k) (s.modChan n (shifted (olsb s) k))) ∧
    (∀ dst k, PorchHolds (.sho n) n (.sho dst true k) (fun s => s.osrDone n = true ∧ (s.chan n).ofifo = []) (fun s => s)
      true) ∧
    (∀ pads src k, PorchForm (.shi n pads) n (.shi src false k) (fun _ => True) fun s =>
      let c := s.chan n
      s.modChan n (taken (ilsb s) k ([s.pinsIn n pads, c.s0, c.s1, 0, 0xFFFFFFFF, c.osr].getD src 0))) ∧
    (∀ pads k, PorchForm (.shx n pads) n (.shx false k) (fun _ => True) fun s =>
      ((s.modChan n (shifted (olsb s) k)).modChan n (taken (ilsb s) k (s.pinsIn n pads))).putMain n false k
        (outBits (olsb s) (s.chan n).osr k)) ∧
    (∀ m x rest, PorchForm (.pull n) n (.pull m) (fun s => (s.chan n).ofifo = x :: rest ∧ (m = 2 → s.osrDone n = true))
      fun s => s.modChan n fun c => { c with ofifo := rest, osr := x, ocnt := 0 }) ∧
    PorchHolds (.pull n) n (.pull 0) (fun s => (s.chan n).ofifo = []) (fun s => s) ∧
    PorchForm (.pull n) n (.pull 1) (fun s => (s.chan n).ofifo = []) (fun s => s) ∧
    PorchForm (.pull n) n (.pull 2) (fun s => s.osrDone n = false) (fun s => s) ∧
    (∀ m, PorchForm (.push n) n (.push m) (fun s => (s.chan n).ififo.length < 8 ∧ (m = 2 → s.isrFull n = true))
      fun s => s.modChan n fun c => { c with ififo := c.ififo ++ [c.isr], isr := 0, icnt := 0 }) ∧
    PorchHolds (.push n) n (.push 0) (fun s => 8 ≤ (s.chan n).ififo.length) (fun s => s)

/-- ALU and LDI (R315): the eight functions over the registers, the pins of the input window and the drive of the main range;
OSR and ISR written reset their counts. -/
def Sys2Proof.Claims.PorchArithmetic : Prop :=
  ∀ n : Fin 512,
    (∀ (pads : BitVec 384) (fn dst src : Nat), fn < 8 → dst < 6 → src < 7 →
      PorchForm (.alu n pads) n (.alu fn dst src) (fun _ => True) fun s =>
        let c := s.chan n
        let b : Word := [c.s0, c.s1, c.osr, c.isr, s.pinsIn n pads,
          BitVec.ofNat 32 (c.ofifo.length + 16 * c.ififo.length), 0].getD src 0
        let a : Word := [c.s0, c.s1, c.osr, c.isr, s.mainBits n s.gp.out, s.mainBits n s.gp.dir].getD dst 0
        let v : Word := [b, ~~~b, b.reverse, a + b, a - b, a &&& b, a ||| b, a ^^^ b].getD fn 0
        match dst with
        | 0 => s.modChan n fun c => { c with s0 := v }
        | 1 => s.modChan n fun c => { c with s1 := v }
        | 2 => s.modChan n fun c => { c with osr := v, ocnt := 0 }
        | 3 => s.modChan n fun c => { c with isr := v, icnt := 0 }
        | 4 => s.putMain n false 32 v
        | _ => s.putMain n true 32 v) ∧
    (∀ imm, PorchForm (.ldi n) n (.ldi 0 imm) (fun _ => True) fun s => s.modChan n fun c => { c with s0 := BitVec.ofNat 32 imm }) ∧
    (∀ imm, PorchForm (.ldi n) n (.ldi 1 imm) (fun _ => True) fun s => s.modChan n fun c => { c with s1 := BitVec.ofNat 32 imm }) ∧
    (∀ imm, PorchForm (.ldi n) n (.ldi 2 imm) (fun _ => True) fun s => s.putMain n false 10 (BitVec.ofNat 32 imm)) ∧
    (∀ imm, PorchForm (.ldi n) n (.ldi 3 imm) (fun _ => True) fun s => s.putMain n true 10 (BitVec.ofNat 32 imm))

/-- Porch programs: decoding, flow, shifts, FIFOs and arithmetic. -/
def Obligations.PorchProgramsRun : Prop :=
  PorchWordsDecode ∧ PorchFlow ∧ PorchShiftsAndFifos ∧ PorchArithmetic

namespace Sys2Proof.Claims

/-- The queued injection of channel n, a word with RESUME, begins (R323): with RESUME = 1 what stands in the latch is saved;
else it is abandoned, a fetched instruction's PC moving on as if it had completed. -/
def injBegun (s : State) (n : Fin 512) (resume : Bool) : State :=
  let t := (if s.chEn n then s.nextOpp n else s).modChan n fun c => { c with inj := none }
  match (s.chan n).latch with
  | none => t
  | some h =>
    let t := t.modChan n fun c => { c with latch := none }
    if resume then t.modChan n fun c => { c with saved := some h }
    else
      let u := if h.inj then t else t.setF (rg .chExec n) F.chExec_PC
        (if h.word.getLsbD 19 then t.getF (rg .chExec n) F.chExec_ORIGIN else t.getF (rg .chExec n) F.chExec_PC + 1)
      u.setF (rg .chStat n) F.chStat_INJABN 1

/-- An injected word completes (R323): side pattern and dwell; what was saved returns to the latch, or is abandoned where the
word wrote PC; PC does not move on. -/
def injOver (s : State) (n : Fin 512) (w : BitVec 24) (pc : Option Nat) : State :=
  let t := s.putSide n (w.toNat / 65536 % 8)
  let k := w.toNat / 4096 % 16 * (if t.getF (rg .chCtl n) F.chCtl_DWX = 1 then 4 else 1)
  match pc with
  | none => t.modChan n fun c => { c with dwell := k, latch := c.saved, saved := none }
  | some a =>
    let u := t.modChan n fun c => { c with dwell := k, latch := none, saved := none }
    (if (s.chan n).saved.isSome then u.setF (rg .chStat n) F.chStat_INJABN 1 else u).setF (rg .chExec n) F.chExec_PC a

/-- The word of instruction i is queued at channel n, which may execute it: stopped, or with its dwell run down. -/
abbrev injQueued (s : State) (n : Fin 512) (w : BitVec 24) (resume : Bool) (i : PInstr) : Prop :=
  s.calm = true ∧ s.coreOn = true ∧ (s.chan n).inj = some (w, resume) ∧ (s.chan n).saved = none ∧ decodePorch w = some i ∧
    (s.chEn n = false ∨ (s.chan n).dwell = 0)

/-- An injected instruction i completes with the effect f, and writes PC where `pc` says so. -/
def InjForm (n : Fin 512) (i : PInstr) (p : State → Prop) (f : State → State) (pc : State → Option Nat := fun _ => none) : Prop :=
  ∀ (pads : BitVec 384) (w : BitVec 24) (resume : Bool) (s : State), injQueued s n w resume i → p s →
    Answers (.injectionExecute n pads) s (injOver (f (injBegun s n resume)) n w (pc (injBegun s n resume)))

end Sys2Proof.Claims

/-- DWELL_OPPORTUNITY, injections and faults (R311, R314, R323, R324): an idle opportunity counts the dwell down; a queued
injection executes in a stopped channel, or in a running one whose dwell has run down, whatever stands in its latch; one that
must wait is held in a running channel and abandoned in a stopped one; a reserved word stops the channel and is captured. -/
def Sys2Proof.Claims.PorchDwellInjectionFault : Prop :=
  ∀ n : Fin 512,
    CoreForm (.dwellOpportunity n) (fun s => s.chEn n = true ∧ (s.chan n).dwell ≠ 0)
      (fun s => (s.nextOpp n).modChan n fun c => { c with dwell := c.dwell - 1 }) ∧
    InjForm n .nop (fun _ => True) (fun s => s) ∧
    (∀ imm, InjForm n (.ldi 0 imm) (fun _ => True) fun s => s.modChan n fun c => { c with s0 := BitVec.ofNat 32 imm }) ∧
    (∀ imm, InjForm n (.ldi 1 imm) (fun _ => True) fun s => s.modChan n fun c => { c with s1 := BitVec.ofNat 32 imm }) ∧
    (∀ imm, InjForm n (.ldi 2 imm) (fun _ => True) fun s => s.putMain n false 10 (BitVec.ofNat 32 imm)) ∧
    (∀ imm, InjForm n (.ldi 3 imm) (fun _ => True) fun s => s.putMain n true 10 (BitVec.ofNat 32 imm)) ∧
    (∀ reg, InjForm n (.brr reg) (fun _ => True) (fun s => s) fun s =>
      some ((if reg = 0 then (s.chan n).s0 else (s.chan n).s1).toNat % 256)) ∧
    (∀ (pads : BitVec 384) (w : BitVec 24) (resume : Bool) (s : State), injQueued s n w resume (.push 0) →
      8 ≤ (s.chan n).ififo.length →
      let t := injBegun s n resume
      (s.chEn n = true → Answers (.injectionExecute n pads) s
        (t.modChan n fun c => { c with latch := some { word := w, inj := true } })) ∧
      (s.chEn n = false → Answers (.injectionExecute n pads) s
        ((t.modChan n fun c => { c with latch := c.saved, saved := none }).setF (rg .chStat n) F.chStat_INJABN 1))) ∧
    (∀ (s : State) (w : BitVec 24), s.calm = true → s.coreOn = true → porchAt s n w → decodePorch w = none →
      s.flag (rg .peFault (n.val / 8)) F.peFault_VALID = false →
      ∃ v, Answers (.nop (.porch n)) s
          (((((s.nextOpp n).setReg (rg .peFault (n.val / 8)) v).setF (rg .peFaultw (n.val / 8)) F.peFaultw_WORD w.toNat).setF
            (rg .chCtl n) F.chCtl_EN 0).modChan n fun c => { c with latch := some { word := w, inj := false }, fault := true }) ∧
        F.peFault_VALID.of v = 1 ∧ F.peFault_CH.of v = n.val % 8 ∧ F.peFault_PC.of v = s.chPc n)

namespace Sys2Proof.Claims

/-- The requester acts with the owner code `o` on porch channels; a DMA channel with its own owner's (R329). -/
abbrev actsAs (s : State) (r : Requester) (o : Nat) : Prop := s.porchOwner r = some o ∧ o ≠ 0

/-- The requester owns channel n. -/
abbrev ownsChan (r : Requester) (n : Fin 512) (s : State) : Prop := actsAs s r (s.chF n F.chCtl_OWNER)

/-- The settings of PORCH_CH[n]_CTL as `v` gives them; OWNER and EN stay. -/
def chSettings (s : State) (n : Fin 512) (v : Word) : State :=
  s.setReg (rg .chCtl n) (setBits (s.reg (rg .chCtl n)) 5 18 (bits v 5 18) &&& 0x007FEFFF#32)

end Sys2Proof.Claims

/-- Claims of channels and engines (R249, R307, R329): an unowned one is taken, a release frees it and a channel's pins, and
a refusal is captured in PORCH_CLAIM. That the release of a channel clears its EN is the model's choice (log entry 56). -/
def Sys2Proof.Claims.PorchClaims : Prop :=
  (∀ n : Fin 512,
    WriteForm (fun r v => .porchChannelClaim r n v) (rg .chCtl n)
      (fun r v s => actsAs s r (F.chCtl_OWNER.of v) ∧ s.chF n F.chCtl_OWNER = 0 ∧ F.chCtl_RESTART.of v = 0 ∧
        F.chCtl_EN.of v = 0)
      (fun _ v s => (chSettings (s.setF (rg .chCtl n) F.chCtl_OWNER (F.chCtl_OWNER.of v)) n v).setF (rg .chCtl n) F.chCtl_EN 0) ∧
    WriteForm (fun r v => .porchChannelClaim r n v) (rg .chCtl n)
      (fun r v s => ownsChan r n s ∧ F.chCtl_OWNER.of v = 0)
      (fun _ _ s => ((s.setF (rg .chCtl n) F.chCtl_EN 0).setF (rg .chCtl n) F.chCtl_OWNER 0).freePinsBy
        fun p => ((s.setF (rg .chCtl n) F.chCtl_EN 0).setF (rg .chCtl n) F.chCtl_OWNER 0).pinOfChan p n) ∧
    WriteForm (fun r v => .porchChannelClaim r n v) (rg .chCtl n)
      (fun r v s => ownerRuleOf (s.porchOwner r) (s.chF n F.chCtl_OWNER) (F.chCtl_OWNER.of v) = .refuse)
      (fun r _ s => s.porchRefuse n (reqCode r) false 0)) ∧
  (∀ e : Fin 64,
    WriteForm (fun r v => .porchEngineClaim r e v) (rg .peCtl e)
      (fun r v s => actsAs s r (F.peCtl_OWNER.of v) ∧ s.getF (rg .peCtl e) F.peCtl_OWNER = 0)
      (fun _ v s => s.setF (rg .peCtl e) F.peCtl_OWNER (F.peCtl_OWNER.of v)) ∧
    WriteForm (fun r v => .porchEngineClaim r e v) (rg .peCtl e)
      (fun r v s => actsAs s r (s.getF (rg .peCtl e) F.peCtl_OWNER) ∧ F.peCtl_OWNER.of v = 0)
      (fun _ _ s => s.setF (rg .peCtl e) F.peCtl_OWNER 0) ∧
    WriteForm (fun r v => .porchEngineClaim r e v) (rg .peCtl e)
      (fun r v s => ownerRuleOf (s.porchOwner r) (s.getF (rg .peCtl e) F.peCtl_OWNER) (F.peCtl_OWNER.of v) = .refuse)
      (fun r _ s => s.porchRefuse (0x200 + e.val) (reqCode r) false 0))

/-- Porch dwell, injection and faults; claims. -/
def Obligations.PorchClaimsAndDwell : Prop :=
  PorchDwellInjectionFault ∧ PorchClaims

/-- PORCH_ENABLE, PORCH_DISABLE, RESTART and PORCH_SYNC (R305, R307, R325, R326): a start claims every pin of both ranges or
none; a stop keeps them; a restart resets the channel; a sync restarts the dividers of the groups named. -/
def Sys2Proof.Claims.PorchStartStopSync : Prop :=
  (∀ n : Fin 512,
    (∀ (r : Requester) (v : Word) (s : State), s.takes r (rg .chCtl n) v = true → ownsChan r n s →
      F.chCtl_OWNER.of v = s.chF n F.chCtl_OWNER → F.chCtl_EN.of v = 1 → F.chCtl_RESTART.of v = 0 → s.chEn n = false →
      let t := (chSettings s n v).chStart n (reqCode r) false
      Answers (.porchEnable r n v) s t ∧
      ((∀ p ∈ s.chRange n, p < 384 ∧ (s.pinHolder p = 0 ∨ s.pinOfChan p n = true)) →
        t.chEn n = true ∧ ∀ p ∈ s.chRange n, t.pinOfChan p n = true) ∧
      ((∃ p ∈ s.chRange n, s.pinHolder p ≠ 0 ∧ s.pinOfChan p n = false) →
        t.chEn n = false ∧ t.flag (rg .porchClaim) F.porchClaim_CLAIM_FAIL = true ∧ t.gp = s.gp)) ∧
    WriteForm (fun r v => .porchDisable r n v) (rg .chCtl n)
      (fun r v s => ownsChan r n s ∧ F.chCtl_OWNER.of v = s.chF n F.chCtl_OWNER ∧ F.chCtl_EN.of v = 0 ∧
        F.chCtl_RESTART.of v = 0)
      (fun _ v s => (chSettings s n v).setF (rg .chCtl n) F.chCtl_EN 0) ∧
    WriteForm (fun r v => .restart r n v) (rg .chCtl n)
      (fun r v s => ownsChan r n s ∧ F.chCtl_OWNER.of v = s.chF n F.chCtl_OWNER ∧ F.chCtl_EN.of v = 0 ∧
        F.chCtl_RESTART.of v = 1)
      (fun _ v s => (((chSettings s n v).setF (rg .chExec n) F.chExec_PC (s.getF (rg .chExec n) F.chExec_ORIGIN)).modChan n
        fun c => { acc := c.acc, ofifo := c.ofifo, ififo := c.ififo, inj := c.inj }).setF (rg .chCtl n) F.chCtl_EN 0)) ∧
  (∀ (r : Requester) (v : Word) (s : State) (o : Nat), s.takes r (rg .porchSync) v = true → actsAs s r o →
    F.porchSync_ENABLE.of v = 0 →
    (∀ n : Fin 512, (F.porchSync_GROUPS.of v).testBit (s.chF n F.chCtl_SGRP) = true →
      s.chF n F.chCtl_OWNER = 0 ∨ s.chF n F.chCtl_OWNER = o) →
    ∃ t, Answers (.porchSync r v) s t ∧ t.regs = s.regs ∧
      ∀ n : Fin 512, t.chan n =
        if (F.porchSync_GROUPS.of v).testBit (s.chF n F.chCtl_SGRP) = true ∧ s.chF n F.chCtl_OWNER = o then
          { s.chan n with acc := s.divider n - 256 }
        else s.chan n)

/-- The registers of a channel's FIFOs, injection, event latch and PC (R319, R323, R330, R335, R336): TXF appends a word, RXF
takes the oldest, with TXOVF and RXUNF at a full and an empty FIFO; an injection is queued, or sets INJOVF; EVT sets the
latch, FLUSH empties the FIFOs, and CH_EXEC sets the PC. -/
def Sys2Proof.Claims.PorchChannelRegisters : Prop :=
  ∀ n : Fin 512,
    WriteForm (fun r v => .porchTxf r n v) (rg .chTxf n) (fun r _ s => ownsChan r n s ∧ (s.chan n).ofifo.length < 8)
      (fun _ v s => s.modChan n fun c => { c with ofifo := c.ofifo ++ [v] }) ∧
    WriteForm (fun r v => .porchTxf r n v) (rg .chTxf n) (fun r _ s => ownsChan r n s ∧ 8 ≤ (s.chan n).ofifo.length)
      (fun _ _ s => s.setF (rg .chFstat n) F.chFstat_TXOVF 1) ∧
    (∀ (r : Requester) (s : State) (x : Word) (rest : List Word), s.calm = true → s.reaches r = true → ownsChan r n s →
      (s.chan n).ififo = x :: rest →
      Answers (.porchRxf r n) s { s.modChan n fun c => { c with ififo := rest } with answer := some (.data x.toNat) }) ∧
    (∀ (r : Requester) (s : State), s.calm = true → s.reaches r = true → ownsChan r n s → (s.chan n).ififo = [] →
      Answers (.porchRxf r n) s { s.setF (rg .chFstat n) F.chFstat_RXUNF 1 with answer := some (.data 0) }) ∧
    WriteForm (fun r v => .porchInject r n v) (rg .chInj n) (fun r _ s => ownsChan r n s ∧ (s.chan n).inj = none)
      (fun _ v s => s.modChan n fun c => { c with inj := some (v.setWidth 24, v.getLsbD 24) }) ∧
    WriteForm (fun r v => .porchInject r n v) (rg .chInj n) (fun r _ s => ownsChan r n s ∧ (s.chan n).inj ≠ none)
      (fun _ _ s => s.setF (rg .chStat n) F.chStat_INJOVF 1) ∧
    WriteForm (fun r v => .porchEvt r n v) (rg .chEvt n) (fun r v s => ownsChan r n s ∧ v.getLsbD 0 = true)
      (fun _ _ s => s.modChan n fun c => { c with evl := true }) ∧
    WriteForm (fun r v => .flush r n v) (rg .chFstat n) (fun r v s => ownsChan r n s ∧ F.chFstat_FLUSH.of v = 1)
      (fun _ v s => (s.writeDefault (rg .chFstat n) v).modChan n fun c => { c with ofifo := [], ififo := [] }) ∧
    WriteForm (fun r v => .chExecPcWrite r n v) (rg .chExec n) (fun r _ s => ownsChan r n s)
      (fun _ v s => s.setReg (rg .chExec n) (setBits (s.reg (rg .chExec n)) 0 16 (v.toNat % 65536)))

/-- Porch starts, stops, syncs and channel registers. -/
def Obligations.PorchControl : Prop :=
  PorchStartStopSync ∧ PorchChannelRegisters

/-! ### The Annex (R338 to R365) -/

namespace Sys2Proof.Claims

/-- The state with its Annex replaced. -/
def putAnnex (s : State) (f : Annex → Annex) : State := { s with annex := f s.annex }

/-- The packet `ws` with header h stands at the head of the port's FIFO, followed by `rest`: a good header of command
`cmd`, the right CRC as its last word, and nothing that makes it wait; the direct port needs no hallmark (R350, R351, R353). -/
abbrev packetAt (s : State) (cmd : Nat) (h : Word) (ws rest : List Word) : Prop :=
  s.annex.wfifo = ws ++ rest ∧ ws.headD 0 = h ∧ ws.length = (if cmd = 2 then 34 else 2) ∧ hdrCmd h = cmd ∧
    hdrBad h = false ∧ crc32c (wordBytes ws.dropLast) = ws.getLastD 0 ∧ s.annex.clearing = none ∧
    s.annex.rfifo.length ≤ 31 ∧ s.hallRequired = false

/-- The port past a packet: its words are gone and LAST holds its status. -/
def portPast (s : State) (rest : List Word) : State := putAnnex s fun x => { x with wfifo := rest }
def portLast (s : State) (st : Nat) : State := s.setF (rg .annexCfgStat) F.annexCfgStat_LAST st

/-- `c` is the packet of command `cmd`: with `p` it does f and LAST is 0. -/
def PacketForm (c : Instr) (cmd : Nat) (p : Word → List Word → State → Prop) (f : Word → List Word → State → State) : Prop :=
  ∀ (s : State) (h : Word) (ws rest : List Word), s.calm = true → s.coreOn = true → packetAt s cmd h ws rest → p h ws s →
    Answers c s (portLast (f h ws (portPast s rest)) 0)

/-- Frames of region r all read 0 in `t`, and the others are as in `s`. -/
def framesCleared (s t : State) (r : Nat) : Prop :=
  ∀ q f, f < 2048 → t.frame q f = if q = r then 0 else s.frame q f

end Sys2Proof.Claims

/-- The packets of the configuration port (R350 to R358): OPEN, WRITE, READ, COMMIT, ABORT, CAPTURE and NOP, each with its
effect on the region and its frames, and status 0 in LAST. -/
def Sys2Proof.Claims.AnnexPackets : Prop :=
  PacketForm .annexOpen 1 (fun h _ s => s.regionState (hdrRegion h) ≠ 2)
    (fun h _ s => putAnnex ((s.clearFrames (hdrRegion h)).setRegionState (hdrRegion h) 1) fun x =>
      { x with clearing := some (hdrRegion h) }) ∧
  PacketForm .annexWrite 2
    (fun h _ s => (s.regionState (hdrRegion h) = 1 ∨ s.regionState (hdrRegion h) = 3) ∧ hdrFrame h < 0x44A)
    (fun h ws s => s.setFrame (hdrRegion h) (hdrFrame h) (BitVec.ofNat 1024 (numLE (wordBytes (ws.dropLast.tail))))) ∧
  (∀ edges, PacketForm (.annexRead edges) 3
    (fun h _ s => hdrFrame h < 0x450 ∧ (edges = 0 ∨ ∀ r : Fin 32, s.regionState r ≠ 2))
    fun h _ s =>
      let ws := (List.range 32).map fun i => (s.frame (hdrRegion h) (hdrFrame h)).extractLsb' (32 * i) 32
      putAnnex s fun x => { x with rfifo := x.rfifo ++ ws ++ [crc32c (wordBytes ws)] }) ∧
  PacketForm .commit 4
    (fun h _ s => s.regionState (hdrRegion h) = 1 ∧
      ∀ f ∈ [0x44B, 0x44C, 0x44D], s.frame (hdrRegion h) f = 0)
    (fun h _ s =>
      let r : Fin 32 := Fin.ofNat 32 (hdrRegion h)
      putAnnex ((s.commitPins (hdrRegion h)).setRegionState (hdrRegion h) 2) fun x => { x with
        logic := x.logic.set r { ff := BitVec.ofNat 2048 ((s.frame r 0x400).toNat + 2 ^ 1024 * (s.frame r 0x401).toNat) } }) ∧
  PacketForm .annexAbort 5 (fun h _ s => s.regionState (hdrRegion h) ≠ 2)
    (fun h _ s =>
      let t := (s.clearFrames (hdrRegion h)).setRegionState (hdrRegion h) 0
      t.freePinsBy fun p => t.pinOfRegion p (hdrRegion h)) ∧
  (∀ edges, PacketForm (.annexCapture edges) 6 (fun h _ s => s.regionState (hdrRegion h) = 2)
    fun h _ s =>
      let t := s.fclkEdges edges
      let ff := t.annex.logic[Fin.ofNat 32 (hdrRegion h)].ff
      (t.setFrame (hdrRegion h) 0x44E (ff.extractLsb' 0 1024)).setFrame (hdrRegion h) 0x44F (ff.extractLsb' 1024 1024)) ∧
  PacketForm .annexNop 0 (fun _ _ _ => True) (fun _ _ s => s) ∧
  (∀ (s : State) (r : Nat), framesCleared s (s.clearFrames r) r)

/-- A packet with a wrong CRC (R353): status 1, the port drops words from then on, the failure is counted, and the first
one's header is kept. -/
def Sys2Proof.Claims.AnnexBadCrc : Prop :=
  ∀ (s : State) (h crc : Word) (rest : List Word), s.calm = true → s.coreOn = true → s.annex.wfifo = h :: crc :: rest →
    hdrCmd h = 0 → hdrBad h = false → s.annex.clearing = none → crc32c (wordBytes [h]) ≠ crc →
    s.regionState (hdrRegion h) ≠ 1 → s.flag (rg .annexCfgStat) F.annexCfgStat_ERRV = false →
    let x := rg .annexCfgStat
    let t := ((portLast s 1).setF x F.annexCfgStat_DISCARD 1).setF x F.annexCfgStat_ERRCNT
      (Nat.min 255 (s.getF x F.annexCfgStat_ERRCNT + 1))
    Answers .annexNop s (putAnnex ((t.setReg (rg .annexCfgErr) h).setF x F.annexCfgStat_ERRV 1) fun a => { a with wfifo := [] })

/-- Packets of the configuration port, good and bad. -/
def Obligations.AnnexPacketsAreChecked : Prop :=
  AnnexPackets ∧ AnnexBadCrc

/-- The configuration port's owner, its FIFOs and counters (R349 to R351, R353, R363, R364): claim, release and refusal; RESYNC
ends DISCARD and empties the write FIFO; a write of CFG_DATA enters it, or is held while it is full; a read of RDATA takes the
oldest word, or sets RDUNF; CLR zeroes the counters of windows. -/
def Sys2Proof.Claims.AnnexPortRegisters : Prop :=
  WriteForm .annexPortClaim (rg .annexCfgCtl)
    (fun r v s => actsAs s r (F.annexCfgCtl_OWNER.of v) ∧ s.getF (rg .annexCfgCtl) F.annexCfgCtl_OWNER = 0 ∧
      F.annexCfgCtl_RESYNC.of v = 0)
    (fun _ v s => s.setF (rg .annexCfgCtl) F.annexCfgCtl_OWNER (F.annexCfgCtl_OWNER.of v)) ∧
  WriteForm .annexPortClaim (rg .annexCfgCtl)
    (fun r v s => actsAs s r (s.getF (rg .annexCfgCtl) F.annexCfgCtl_OWNER) ∧ F.annexCfgCtl_OWNER.of v = 0)
    (fun _ _ s => s.setF (rg .annexCfgCtl) F.annexCfgCtl_OWNER 0) ∧
  WriteForm .annexPortClaim (rg .annexCfgCtl)
    (fun r v s => ownerRuleOf (s.porchOwner r) (s.getF (rg .annexCfgCtl) F.annexCfgCtl_OWNER) (F.annexCfgCtl_OWNER.of v) = .refuse)
    (fun r _ s => s.portRefuse r) ∧
  WriteForm .resync (rg .annexCfgCtl)
    (fun r v s => actsAs s r (F.annexCfgCtl_OWNER.of v) ∧
      s.getF (rg .annexCfgCtl) F.annexCfgCtl_OWNER = F.annexCfgCtl_OWNER.of v ∧ F.annexCfgCtl_RESYNC.of v = 1)
    (fun _ _ s => putAnnex (s.setF (rg .annexCfgStat) F.annexCfgStat_DISCARD 0) fun x => { x with wfifo := [] }) ∧
  (∀ (r : Requester) (s : State) (w : Word) (rest : List Word), s.calm = true → s.reaches r = true → s.ownsPort r = true →
    s.annex.rfifo = w :: rest →
    Answers (.cfgRdataRead r) s { putAnnex s fun x => { x with rfifo := rest } with answer := some (.data w.toNat) }) ∧
  (∀ (r : Requester) (s : State), s.calm = true → s.reaches r = true → s.ownsPort r = true → s.annex.rfifo = [] →
    Answers (.cfgRdataRead r) s
      { s.setF (rg .annexCfgStat) F.annexCfgStat_RDUNF 1 with answer := some (.data 0) }) ∧
  (∀ (r : Requester) (v : Word) (s : State), s.calm = true → s.reaches r = true → s.annexHolds r (rg .annexCfgData) = true →
    Answers (.registerWrite r (rg .annexCfgData).off v) s (putAnnex s fun x => { x with held := [(r, v)] })) ∧
  WriteForm (fun r v => .registerWrite r (rg .annexCfgData).off v) (rg .annexCfgData)
    (fun r _ s => s.ownsPort r = true ∧ s.flag (rg .annexImgStat) F.annexImgStat_BUSY = false ∧
      s.flag (rg .annexCfgStat) F.annexCfgStat_DISCARD = false)
    (fun _ v s => putAnnex s fun x => { x with wfifo := x.wfifo ++ [v] }) ∧
  CoreForm .frameClearEnd (fun _ => True) (fun s => putAnnex s fun x => { x with clearing := none }) ∧
  WriteForm .wstatClr (rg .annexWstat) (fun _ v _ => F.annexWstat_CLR.of v = 1)
    (fun _ _ s => (s.setF (rg .annexWstat) F.annexWstat_TIMEOUTS 0).setF (rg .annexWstat) F.annexWstat_LATE 0)

/-- Image loads (R359 to R361, R365): a sequencer's GO starts one unless one runs; a bad address ends it with 0x01; an image
without a hallmark whose packets all pass ends with 0. -/
def Sys2Proof.Claims.AnnexImageLoads : Prop :=
  (∀ h : Fin 4, WriteForm .annexImageLoad (rg .annexImgCtl)
    (fun r v s => r = .seq h ∧ F.annexImgCtl_GO.of v = 1 ∧ s.flag (rg .annexImgStat) F.annexImgStat_BUSY = false)
    fun _ _ s => { s.setF (rg .annexImgStat) F.annexImgStat_BUSY 1 with verQ := s.verQ ++ [.annex h none] }) ∧
  (∀ (s : State) (h : Fin 4) (q : List VerJob), s.calm = true → s.coreOn = true → s.verQ = .annex h none :: q →
    let a := (s.reg (rg .annexImgSrc)).toNat
    (a % 8 ≠ 0 → (s.imgEnd 1).quiet = true → Answers .annexImageLoadEnd s (s.imgEnd 1)) ∧
    (∀ s1 s2 hd img f, a % 8 = 0 → inRam a 128 = true →
      s.getF (rg .annexCfgCtl) F.annexCfgCtl_OWNER = h.val + 1 → s.imgRead 8 a 128 = (s1, .bytes hd) →
      imgHeaderErr hd = 0 → field hd 8 4 = 0 → s1.hallRequired = false → inRam a (128 + field hd 0x10 4) = true →
      s1.imgRead 8 (a + 128) (field hd 0x10 4) = (s2, .bytes img) →
      f = feedPackets false (BitVec.ofNat 32 (field hd 0xC 4)) (field hd 0x10 4) (field hd 0x10 4)
        { state := s2, opened := [], held := [], rest := bytesWords img } → f.err = 0 → f.waits = false →
      let t := f.state.imgEnd 0
      t.quiet = true →
      Answers .annexImageLoadEnd s t ∧ t.flag (rg .annexImgStat) F.annexImgStat_BUSY = false ∧
      t.flag (rg .annexImgStat) F.annexImgStat_DONE = true ∧ t.getF (rg .annexImgStat) F.annexImgStat_ERR = 0))

/-- The configuration port as registers, and image loads. -/
def Obligations.AnnexPortAndImages : Prop :=
  AnnexPortRegisters ∧ AnnexImageLoads

/-- Annex windows (R346 to R348): a request reaches the interface of a LIVE region and fails at another; the region's answer
ends the load that waits for it; a timeout is counted, and its late answer discarded and counted. -/
def Obligations.AnnexWindows : Prop :=
  (∀ pre q post h, CoreForm .annexWindowRequest
    (fun s => s.annex.wins = pre ++ q :: post ∧ (∀ p ∈ pre, p.reached = true) ∧ q.reached = false ∧
      s.regionState q.region = 2 ∧ q.who = .load h)
    fun s => putAnnex s fun x => { x with wins := pre ++ { q with reached := true } :: post }) ∧
  (∀ pre q post h e l, CoreForm .annexWindowRequest
    (fun s => s.annex.wins = pre ++ q :: post ∧ (∀ p ∈ pre, p.reached = true) ∧ q.reached = false ∧
      s.regionState q.region = 2 ∧ q.who = .store h ∧ (s.seq h).wbuf = e :: l ∧ e.sent = true)
    fun s => (putAnnex s fun x => { x with wins := pre ++ { q with reached := true } :: post }).modSeq h fun x => { x with
      wbuf := l }) ∧
  (∀ pre q post h e l, CoreForm .annexWindowRequest
    (fun s => s.annex.wins = pre ++ q :: post ∧ (∀ p ∈ pre, p.reached = true) ∧ q.reached = false ∧
      s.regionState q.region ≠ 2 ∧ q.dead = false ∧ q.who = .store h ∧ (s.seq h).wbuf = e :: l ∧ e.sent = true)
    fun s => (putAnnex s fun x => { x with wins := pre ++ post }).modSeq h fun x => { x with wbuf := l }) ∧
  (∀ (g : Fin 32) (data : BitVec 64) (irq : Bool) (pre : List WinReq) (q : WinReq) (post : List WinReq) (h : Fin 4)
      (l : PendingLoad) (s : State), s.calm = true → s.coreOn = true → s.regionState g = 2 →
    s.annex.wins = pre ++ q :: post → (∀ p ∈ pre, ¬ (p.region = g.val ∧ p.reached = true)) → q.region = g.val →
    q.reached = true → q.dead = false → q.who = .load h → q.size = 4 → (s.seq h).load = some l → l.size = 4 → l.fp = false → l.upd = none →
    l.rep = false →
    let t := putAnnex s fun x => { x with irq := setBits x.irq g 1 (if irq then 1 else 0), wins := pre ++ post }
    Answers (.annexWindowAnswer g data false irq) s (t.modSeq h fun x => { x with
      load := none, g := x.g.set l.d (data.setWidth 32), pc := l.next, atomRep := false
      flg := if l.te then setBits x.flg 10 1 1 else x.flg })) ∧
  (∀ (g : Fin 32) (data : BitVec 64) (irq : Bool),
    CoreForm (.annexWindowAnswer g data true irq) (fun s => s.regionState g = 2 ∧ s.annex.owed[g] ≠ 0)
      fun s =>
        (putAnnex s fun x => { x with
          irq := setBits x.irq g 1 (if irq then 1 else 0), owed := x.owed.set g (x.owed[g] - 1) }).setF (rg .annexWstat)
            F.annexWstat_LATE (Nat.min 32767 (s.getF (rg .annexWstat) F.annexWstat_LATE + 1))) ∧
  (∀ (g : Fin 32) pre q post h, CoreForm (.annexWindowTimeout g)
    (fun s => s.getF (rg .annexWtmo) F.annexWtmo_TIMEOUT ≠ 0 ∧ s.annex.wins = pre ++ q :: post ∧
      (∀ p ∈ pre, ¬ (p.region = g.val ∧ p.reached = true)) ∧ q.region = g.val ∧ q.reached = true ∧ q.dead = false ∧ q.who = .store h)
    fun s => (putAnnex s fun x => { x with owed := x.owed.set g (x.owed[g] + 1), wins := pre ++ post }).setF (rg .annexWstat)
      F.annexWstat_TIMEOUTS (Nat.min 65535 (s.getF (rg .annexWstat) F.annexWstat_TIMEOUTS + 1)))

/-! ### The Mantel (R366 to R398) -/

namespace Sys2Proof.Claims

/-- The state with its Mantel replaced. -/
def putMantel (s : State) (f : Mantel → Mantel) : State := { s with mantel := f s.mantel }

/-- `x` is `s` but for its count, its entries, its pulses and the registers of `changes`. -/
def launchesOnly (s x : State) (changes : Reg → Prop) : Prop :=
  x = { s with regs := x.regs, count := x.count
               mantel := { s.mantel with armed := x.mantel.armed, pulses := x.mantel.pulses, stepDue := x.mantel.stepDue } } ∧
    ∀ y, regAt y.off = some y → ¬ changes y → x.reg y = s.reg y

/-- Entry i is disarmed in `x`. -/
abbrev disarmed (x : State) (i : Fin 256) : Prop := x.mantel.armed[i] = none ∧ x.flag (rg .leCtl i) F.leCtl_ARMED = false

/-- A firing of entry i is over: FIRED where IRQ is set; disarmed, or with PERIOD armed for the next one (R373, R385). -/
def firedOut (s : State) (i : Fin 256) (a : Armed) : State :=
  putArmed (if a.irq then s.setF (rg .grpStat a.group) F.grpStat_FIRED 1 else s) i
    (if a.period = 0 ∨ a.reps ≠ 0 ∧ a.reps ≤ a.fired + 1 then none
    else some { a with tick := a.tick + a.period, fired := a.fired + 1, late := none })

/-- An armed entry is due: its tick has come, and a late one waits for the edge after its late test (R373, R374; log entry
60). -/
abbrev dueNow (s : State) (a : Armed) : Prop := a.tick ≤ s.count.toNat ∧ ∀ t ∈ a.late, t < s.ns

/-- Entry i fires next: armed with `a`, due, and no lower entry due (R373, R379). -/
def firesNext (s : State) (i : Fin 256) (a : Armed) : Prop :=
  s.mantel.armed[i] = some a ∧ dueNow s a ∧ s.flag (rg .mantelCtl) F.mantelCtl_LEN = true ∧
    (∀ j, j < i → ∀ b ∈ s.mantel.armed[j], ¬ dueNow s b) ∧ s.flag (rg .linkSeamCtl) F.linkSeamCtl_AUTO = false

/-- The tick at which armed entry `a` fires (R374, R377): a late one at the count as it stands (log entry 60). -/
def firedTick (s : State) (a : Armed) : Nat := if a.late.isSome then s.count.toNat else a.tick

/-- A trailing edge at tick u falls at the same TCLK edge as a firing at tick t (R379): equal, or both of the last edge, which
takes in every tick above the count before it, so those that slewing skips or the Lodge's carry adds (R373, R467). -/
abbrev atOneEdge (s : State) (t u : Nat) : Prop :=
  t = u ∨ (s.mantel.edge < t ∧ t ≤ s.count.toNat) ∧ s.mantel.edge < u ∧ u ≤ s.count.toNat

/-- A pulse of a higher-numbered entry on output k ends at this edge (R379). -/
abbrev cutAt (s : State) (i : Fin 256) (k tick : Nat) : Prop :=
  ∃ p ∈ s.mantel.pulses, p.1 = k ∧ i.val < p.2.1 ∧ atOneEdge s tick p.2.2

/-- Output k set to `level` by entry i, which ends a pulse on it (R379). -/
def leveled (s : State) (k : Nat) (level : Prop) [Decidable level] : State :=
  (putMantel s fun m => { m with pulses := m.pulses.filter fun p => p.1 ≠ k }).setF (rg .outCtl k) F.outCtl_LEVEL
    (if level then 1 else 0)

/-- The claim, the release and the refusal of a resource with OWNER field `o` (R381). -/
def MantelClaims (res : Fin 284) (x : Reg) (o : Field) : Prop :=
  WriteForm (fun r v => .mantelClaimWrite r res v) x
    (fun r v s => reqOwner r = some (o.of v) ∧ (s.getF x o = 0 ∨ s.getF x o = o.of v)) (fun _ v s => s.writeDefault x v) ∧
  WriteForm (fun r v => .mantelClaimWrite r res v) x (fun r v s => owns r (s.getF x o) = true ∧ o.of v = 0 ∧ s.getF x o ≠ 0)
    (fun _ _ s => s.setF x o 0) ∧
  WriteForm (fun r v => .mantelClaimWrite r res v) x (fun r v s => ownerRule r (s.getF x o) (o.of v) = .refuse)
    (fun r _ s => s.mantelRefuse res (reqCode r) false 0)

/-- No group takes its lines from generator e, which emits no EVENT. -/
abbrev lineAlone (s : State) (e : Fin 4) : Prop :=
  (∀ g : Fin 8, s.getF (rg .grpCtl g) F.grpCtl_SRC ≠ 1 ∨ s.getF (rg .grpCtl g) F.grpCtl_LC ≠ e.val) ∧
    s.flag (rg .lcCtl e) F.lcCtl_EMIT = false

/-- A line event of generator e at tick t, not less than MINPER ticks after the previous one (R391). -/
def lineMade (s : State) (e : Fin 4) (t : Nat) : State :=
  let s := putMantel s fun m => { m with lineAt := m.lineAt.set e (some s.ns) }
  let s := (s.setReg (rg .lcLastlo e) (BitVec.ofNat 32 t)).setReg (rg .lcLasthi e) (BitVec.ofNat 32 (t / 2 ^ 32))
  s.setF (rg .lcStat e) F.lcStat_LINES (s.getF (rg .lcStat e) F.lcStat_LINES + 1)

/-- Encoder e counts one edge (R387): POS, DIR and the stamps. -/
def counted (s : State) (e : Fin 4) (up : Bool) : State :=
  let t := s.count.toNat
  let s := s.setReg (rg .encPos e) (if up then s.reg (rg .encPos e) + 1 else s.reg (rg .encPos e) - 1)
  let s := s.setF (rg .encStat e) F.encStat_DIR (if up then 0 else 1)
  let s := (s.setReg (rg .encTlo e) (BitVec.ofNat 32 t)).setReg (rg .encThi e) (BitVec.ofNat 32 (t / 2 ^ 32))
  putMantel s fun m => { m with edgeAt := m.edgeAt.set e (some s.ns) }

/-- The new levels of A and B. -/
def putLevels (s : State) (e : Fin 4) (a b : Bool) : State :=
  (s.setF (rg .encStat e) F.encStat_A (if a then 1 else 0)).setF (rg .encStat e) F.encStat_B (if b then 1 else 0)

/-- At least 20 ticks have passed since encoder e's last counted edge (R387). -/
def edgeLong (s : State) (e : Fin 4) : Prop := ∀ p, s.mantel.edgeAt[e] = some p → p + 20 ≤ s.ns

/-- The samples of an input, newest first, show `v` for FILT ticks behind the synchroniser's two (R386); without VIO12 an
input reads 0 (R546). -/
abbrev settledAt (s : State) (e : Fin 4) (samples : List Bool) (v : Bool) : Prop :=
  ((if s.supplyGone 11 then samples.map fun _ => false else samples).drop 2).take (s.getF (rg .encCtl e) F.encCtl_FILT + 1) = List.replicate (s.getF (rg .encCtl e) F.encCtl_FILT + 1) v

/-- The samples of A and B show the levels a and b. -/
abbrev showsAB (s : State) (e : Fin 4) (as bs : List Bool) (a b : Bool) : Prop :=
  settledAt s e as a ∧ settledAt s e bs b

end Sys2Proof.Claims

/-- The count (R366, R368 to R371): a step, of a follower too, waits for the next TCLK edge, where it sets the count to
STEPHI:STEPLO, disarms every entry and ends every pulse; without one the edge adds one, but a follower with |ERR| above 8
repeats or skips a value, once in 1,024, and ERR moves by 16 with it (R369), with ALIGNED (R371); a read of a low word keeps the high word for that
requester; a follower without SYNC frames sets TMO. -/
def Sys2Proof.Claims.CountIsSteppedAndRead : Prop :=
  (∀ (r : Requester) (v : Word) (s : State), s.takes r (rg .mantelCtl) v = true → fromSeq r = true →
    F.mantelCtl_STEP.of v = 1 →
    let joins := F.mantelCtl_ROLE.of v = 2 ∧ s.getF (rg .mantelCtl) F.mantelCtl_ROLE ≠ 2
    Answers (.step r v) s (putMantel (s.writeDefault (rg .mantelCtl) v) fun m => { m with
      stepDue := true, syncAt := if joins then some s.ns else m.syncAt })) ∧
  (∀ s : State, s.mantel.stepDue = true → (∀ p ∈ s.mantel.pulses, p.1 < 16) →
    let x := s.countTick
    x.mantel.stepDue = false ∧
      x.count = BitVec.ofNat 64 ((s.reg (rg .mantelSteplo)).toNat + 2 ^ 32 * (s.reg (rg .mantelStephi)).toNat) ∧
      (∀ i : Fin 256, (s.mantel.armed[i]).isSome = true → disarmed x i) ∧ (∀ i : Fin 256, x.mantel.armed[i] = none) ∧
      x.mantel.pulses = [] ∧
      (∀ p ∈ s.mantel.pulses, x.flag (rg .outCtl p.1) F.outCtl_LEVEL = false) ∧
      x.flag (rg .mantelSync) F.mantelSync_STEPD = true ∧
      launchesOnly s x fun y => y.fam = .leCtl ∨ y.fam = .outCtl ∨ y = rg .mantelSync) ∧
  (∀ s : State, s.mantel.stepDue = false → s.getF (rg .mantelCtl) F.mantelCtl_ROLE ≠ 2 →
    s.countTick = { s with count := s.count + 1 }) ∧
  (∀ s : State, s.mantel.stepDue = false → s.getF (rg .mantelCtl) F.mantelCtl_ROLE = 2 →
    let err := (BitVec.ofNat 16 (s.getF (rg .mantelSync) F.mantelSync_ERR)).toInt
    let slewed := putMantel s fun m => { m with slewAt := s.ns }
    let errNow (e : Int) (u : State) : State :=
      let x := rg .mantelSync
      let u := u.setF x F.mantelSync_ERR (e % 65536).toNat
      let inside : Prop := e.natAbs ≤ s.getF (rg .mantelSynccfg) F.mantelSynccfg_ALIMIT
      if inside ∧ s.flag x F.mantelSync_ALIGNED = false then (u.setF x F.mantelSync_ALIGNED 1).setF x F.mantelSync_ALGN 1
      else if ¬ inside ∧ s.flag x F.mantelSync_ALIGNED = true then (u.setF x F.mantelSync_ALIGNED 0).setF x F.mantelSync_LOST 1
      else u
    let free := s.mantel.syncAt.isSome = true ∧ s.mantel.slewAt + 1024 ≤ s.ns
    (free → 8 < err → s.countTick = errNow (err - 16) slewed) ∧
    (free → err < -8 → s.countTick = { errNow (err + 16) slewed with count := s.count + 2 }) ∧
    (¬ free ∨ -8 ≤ err ∧ err ≤ 8 → s.countTick = { s with count := s.count + 1 })) ∧
  (∀ t, EventForm .syncTimeout
    (fun s => s.getF (rg .mantelCtl) F.mantelCtl_ROLE = 2 ∧ s.getF (rg .mantelSynccfg) F.mantelSynccfg_SYNCTMO ≠ 0 ∧
      s.mantel.syncAt = some t ∧ t + usTicks (s.getF (rg .mantelSynccfg) F.mantelSynccfg_SYNCTMO) < s.ns)
    fun s => putMantel (s.setF (rg .mantelSync) F.mantelSync_TMO 1) fun m => { m with syncAt := none }) ∧
  (∀ (r : Requester) (pair : Fin 11) (s : State), s.calm = true → s.reaches r = true →
    let w := s.pairWords pair
    let k := 16 * reqCode r + pair.val
    let x : State := { putMantel s fun m => { m with shadow := sparseSet shadowDefault m.shadow k w.2 } with
      answer := some (.data w.1.toNat) }
    Answers (.countLowRead r pair) s x ∧ sparseGet shadowDefault x.mantel.shadow k = w.2)

/-- Arming, disarming and GSTOP (R372, R374, R381, R384, R398): an entry of MODE 0 is armed at THI:TLO with what its registers
hold; a tick not in the future is late: by LATEPOL the entry stays armed for the next edge, is not armed, or with PERIOD skips to
its first tick in the future; DISARM disarms, after a firing that is due, shown for a sequencer event; GSTOP disarms the
requester's entries that were armed in the groups it owns. The model's choices: the late test is made whatever LEN is (log
entry 49), and GSTOP drops a firing that is due (log entry 131). -/
def Sys2Proof.Claims.EntriesAreArmedAndDisarmed : Prop :=
  (∀ i : Fin 256,
    (∀ (r : Requester) (v : Word) (s : State), s.takes r (rg .leCtl i) v = true →
      reqOwner r = some (F.leCtl_OWNER.of v) →
      s.getF (rg .leCtl i) F.leCtl_OWNER = 0 ∨ s.getF (rg .leCtl i) F.leCtl_OWNER = F.leCtl_OWNER.of v →
      let tick := (s.reg (rg .leTlo i)).toNat + 2 ^ 32 * (s.reg (rg .leThi i)).toNat
      let t := s.writeDefault (rg .leCtl i) v
      let a := armedNow t i tick
      let u := putArmed t i (some a)
      let st := rg .grpStat a.group
      let l := (u.setF st F.grpStat_LATE 1).setF st F.grpStat_LATECNT (Nat.min 255 (u.getF st F.grpStat_LATECNT + 1))
      (F.leCtl_ARM.of v = 1 → F.leCtl_DISARM.of v = 0 → F.leCtl_MODE.of v = 0 →
        (s.count.toNat < tick → Answers (.arm r i v) s u) ∧
        (tick ≤ s.count.toNat → a.latePol = true →
          Answers (.arm r i v) s (putArmed l i (some { a with late := some s.ns }))) ∧
        (tick ≤ s.count.toNat → a.latePol = false → a.period = 0 → Answers (.arm r i v) s (putArmed l i none)) ∧
        (tick ≤ s.count.toNat → a.latePol = false → a.period ≠ 0 →
          let n := (s.count.toNat - tick) / a.period + 1
          let m := fun k => (u.setF st F.grpStat_LATE 1).setF st F.grpStat_LATECNT
            (Nat.min 255 (u.getF st F.grpStat_LATECNT + k))
          (a.reps ≠ 0 → a.reps ≤ n → Answers (.arm r i v) s (putArmed (m a.reps) i none)) ∧
          (a.reps = 0 ∨ n < a.reps → Answers (.arm r i v) s
            (putArmed (m n) i (some { a with tick := tick + n * a.period, fired := n }))))) ∧
      (F.leCtl_DISARM.of v = 1 →
        (s.flag (rg .mantelCtl) F.mantelCtl_LEN = false ∨ (∀ j, j ≤ i → ∀ b ∈ s.mantel.armed[j], ¬ dueNow s b) →
          Answers (.disarm r i v) s (putArmed t i none)) ∧
        (∀ b, firesNext s i b → b.action = 5 → s.hlock = true → b.late = none →
          let fired := firedOut (s.modSeq (Fin.ofNat 4 b.arg.toNat) fun q =>
            { q with ev := q.ev ||| (1#32 <<< (b.arg.toNat / 4 % 32)) }) i b
          Answers (.disarm r i v) s (putArmed (fired.writeDefault (rg .leCtl i) v) i none))))) ∧
  (∀ (r : Requester) (v : Word) (s : State), s.takes r (rg .mantelGstop) v = true →
    (∀ g : Fin 8, (F.mantelGstop_GROUPS.of v).testBit g = true → owns r (s.getF (rg .grpCtl g) F.grpCtl_OWNER) = true) →
    ∃ x, Answers (.gstop r v) s x ∧ x.count = s.count ∧ x.mantel.pulses = s.mantel.pulses ∧
      (∀ g : Fin 8, x.getF (rg .grpCtl g) F.grpCtl_SRC =
        if (F.mantelGstop_GROUPS.of v).testBit g then 0 else s.getF (rg .grpCtl g) F.grpCtl_SRC) ∧
      (∀ i : Fin 256,
        if (s.mantel.armed[i]).any (fun a => (F.mantelGstop_GROUPS.of v).testBit a.group) = true ∧
            owns r (s.getF (rg .leCtl i) F.leCtl_OWNER) = true
        then x.mantel.armed[i] = none
        else x.mantel.armed[i] = s.mantel.armed[i] ∧ x.reg (rg .leCtl i) = s.reg (rg .leCtl i)) ∧
      launchesOnly s x fun y => y.fam = .leCtl ∨ y.fam = .grpCtl)

/-- Firings and pulses (R373, R377 to R380, R385): a LEVEL or PULSE firing sets its output where its entry's owner owns it, and
is captured otherwise; a trailing edge of a higher-numbered entry at the same TCLK edge comes after it; an event firing sets a
latch, an EVENT firing emits one, a pin edge, mark or DMA firing acts on what its owner owns; an entry is disarmed, or with PERIOD armed
anew; a pulse ends with its output inactive. The model's choice: a late firing acts at the count as it stands, from the edge
after its late test (log entry 60). -/
def Sys2Proof.Claims.EntriesFire : Prop :=
  (∀ (i : Fin 256) (a : Armed) (s : State), s.calm = true → s.hlock = true → firesNext s i a →
    (a.late = none ∨ a.period = 0 ∨ a.reps ≠ 0 ∧ a.reps ≤ a.fired + 1) →
    let owner := s.getF (rg .leCtl i) F.leCtl_OWNER
    let k := a.arg.toNat % 16
    let tick := firedTick s a
    let done (t : State) : Prop := Answers (.launchFire i) s (firedOut t i a)
    let refused (t : State) : State := t.setF (rg .grpStat a.group) F.grpStat_REFUSED 1
    let owned := owner ≠ 0 ∧ s.getF (rg .outCtl k) F.outCtl_OWNER = owner
    (a.action = 0 → done s) ∧
    (a.action = 1 → owned → done (leveled s k (a.arg.getLsbD 4 = true ∧ ¬ cutAt s i k tick))) ∧
    (a.action = 2 → owned → done (putMantel (leveled s k (¬ cutAt s i k tick)) fun m => { m with
      pulses := m.pulses ++ [(k, i.val, tick + a.arg.toNat / 65536)] })) ∧
    (a.action = 1 ∨ a.action = 2 → owner ≠ 0 → ¬ owned → done (refused (s.mantelRefuse (0x100 + k) (owner - 1) true i))) ∧
    (∀ n : Fin 512, a.action = 3 → a.arg.toNat % 512 = n.val → owner ≠ 0 → s.chF n F.chCtl_OWNER = owner →
      let offset := a.arg.toNat / 512 % 32
      let pin := s.getF (rg .chPins n) F.chPins_PINBASE + offset
      offset < s.getF (rg .chPins n) F.chPins_PINCNT → s.pinOfChan pin n = true →
      done { s with gp := { s.gp with out := putPin s.gp.out pin (a.arg.getLsbD 14), dir := putPin s.gp.dir pin true } }) ∧
    (a.action = 5 → done (s.modSeq (Fin.ofNat 4 a.arg.toNat) fun q => { q with ev := q.ev ||| (1#32 <<< (a.arg.toNat / 4 % 32)) })) ∧
    (∀ w : Fin 8, a.action = 6 → a.arg.toNat % 256 = 2 ^ w.val → owner ≠ 0 →
      (s.getF (rg .swIctl w) F.swIctl_OWNER = owner → done (s.mark w)) ∧
      (s.getF (rg .swIctl w) F.swIctl_OWNER ≠ owner → done (refused (s.sensorRefuse w (owner - 1) true)))) ∧
    (∀ c : Fin 48, a.action = 7 → a.arg.toNat % 64 = c.val → owner ≠ 0 →
      (s.getF (rg .dmaCtl c) F.dmaCtl_OWNER = owner → done (s.dmaStart c)) ∧
      (s.getF (rg .dmaCtl c) F.dmaCtl_OWNER ≠ owner → done (refused (s.dmaRefuse c (owner - 1) true)))) ∧
    (a.action = 8 → done (s.emitEvent (a.arg.toNat % 65536) (tick % 2 ^ 32)))) ∧
  (∀ (k : Fin 16) (pre post : List (Nat × Nat × Nat)) (i t : Nat),
    EventForm (.pulseEnd k)
      (fun s => s.mantel.pulses = pre ++ (k.val, i, t) :: post ∧ (∀ p ∈ pre ++ post, p.1 ≠ k.val) ∧ t ≤ s.count.toNat ∧
        (s.flag (rg .mantelCtl) F.mantelCtl_LEN = false ∨
          ∀ j : Fin 256, j.val < i → ∀ b ∈ s.mantel.armed[j], ¬ dueNow s b))
      fun s => putMantel (s.setF (rg .outCtl k) F.outCtl_LEVEL 0) fun m => { m with pulses := pre ++ post })

/-- Launch entries are armed, disarmed and fire. -/
def Obligations.LaunchEntriesArmAndFire : Prop :=
  EntriesAreArmedAndDisarmed ∧ EntriesFire

/-- Claims of outputs, groups and encoders (R249, R381): an unowned one takes the claimant, its owner frees it, and a refused
claim is captured. -/
def Sys2Proof.Claims.MantelClaimsFollowTheRule : Prop :=
  (∀ k : Fin 16, MantelClaims ⟨0x100 + k.val, by omega⟩ (rg .outCtl k) F.outCtl_OWNER) ∧
  (∀ g : Fin 8, MantelClaims ⟨0x110 + g.val, by omega⟩ (rg .grpCtl g) F.grpCtl_OWNER) ∧
  (∀ e : Fin 4, MantelClaims ⟨0x118 + e.val, by omega⟩ (rg .encCtl e) F.encCtl_OWNER)

/-- The Mantel count, and claims of outputs, groups and encoders. -/
def Obligations.MantelCountAndClaims : Prop :=
  CountIsSteppedAndRead ∧ MantelClaimsFollowTheRule

/-- Encoders and line clocks (R386 to R391): in MODE 0 one change counts POS up or down and stamps it, two at once are
illegal, and levels that the filter does not pass change nothing; a rising Z copies POS; a counted edge adds one to the
generator's accumulator and makes a line event at RATIO; a smoothed generator makes its own at the predicted tick, and a stall
returns it to the raw schedule; without VIO12 the inputs read 0 (R546). The model's choices: counting up is A before B (log entry 34), spacings are counted in elapsed ticks (log entry 105), MINPER where it is tested (log entry
79), and the smoothed prediction with its rounding operand (log entry 33). -/
def Obligations.EncodersAndLineClocks : Prop :=
  ∀ e : Fin 4,
    (∀ (as bs : List Bool) (a b : Bool),
      TclkForm (.encoderEdge e as bs)
        (fun s => (∀ v, ¬ settledAt s e as v) ∧ (∀ v, ¬ settledAt s e bs v)) (fun s =>
          putLevels s e (s.flag (rg .encStat e) F.encStat_A) (s.flag (rg .encStat e) F.encStat_B)) ∧
      TclkForm (.encoderEdge e as bs)
        (fun s => showsAB s e as bs a b ∧ s.getF (rg .encCtl e) F.encCtl_MODE = 0 ∧ s.flag (rg .encStat e) F.encStat_A ≠ a ∧
          s.flag (rg .encStat e) F.encStat_B ≠ b)
        (fun s => ((putLevels s e a b).setF (rg .encStat e) F.encStat_ILL 1).setF (rg .encStat e) F.encStat_ILLCNT
          (Nat.min 255 (s.getF (rg .encStat e) F.encStat_ILLCNT + 1))) ∧
      TclkForm (.encoderEdge e as bs)
        (fun s => showsAB s e as bs a b ∧ s.getF (rg .encCtl e) F.encCtl_MODE = 0 ∧
          (s.flag (rg .encStat e) F.encStat_A ≠ a ↔ s.flag (rg .encStat e) F.encStat_B = b) ∧ edgeLong s e ∧
          s.flag (rg .lcCtl e) F.lcCtl_EN = false)
        (fun s => counted (putLevels s e a b) e
          (if s.flag (rg .encStat e) F.encStat_A ≠ a then a != b else a == b)) ∧
      TclkForm (.encoderEdge e as bs)
        (fun s => showsAB s e as bs a b ∧ s.getF (rg .encCtl e) F.encCtl_MODE = 2 ∧ s.flag (rg .encStat e) F.encStat_A = false ∧ a = true ∧
          edgeLong s e ∧ s.flag (rg .lcCtl e) F.lcCtl_EN = true ∧ s.flag (rg .lcCtl e) F.lcCtl_SMOOTH = false ∧
          s.getF (rg .lcCtl e) F.lcCtl_DIR = 2 ∧ lineAlone s e ∧ s.mantel.lineAt[e] = none ∧
          (s.mantel.lc[e]).acc + 65536 ≤ 2147483647 ∧ -2147483648 ≤ (s.mantel.lc[e]).acc)
        (fun s =>
          let t := counted (putLevels s e a b) e true
          let acc := (s.mantel.lc[e]).acc + 65536
          let ratio : Int := (s.reg (rg .lcRatio e)).toNat
          let put (acc : Int) : State := putMantel t fun m => { m with lc := m.lc.set e { m.lc[e] with acc := acc } }
          if acc < ratio then put acc else lineMade (put (acc - ratio)) e s.count.toNat)) ∧
    (∀ l, TclkForm (.encoderZ e l) (fun s => settledAt s e l true ∧ s.flag (rg .encStat e) F.encStat_Z = false)
      (fun s =>
        let t := ((s.setF (rg .encStat e) F.encStat_Z 1).setReg (rg .encZpos e) (s.reg (rg .encPos e))).setF (rg .encStat e)
          F.encStat_ZSEEN 1
        if s.flag (rg .encCtl e) F.encCtl_ZCLR then t.setReg (rg .encPos e) 0 else t)) ∧
    (∀ p up, TclkForm (.smoothedLineEvent e up)
      (fun s => s.flag (rg .lcCtl e) F.lcCtl_EN = true ∧ s.flag (rg .lcCtl e) F.lcCtl_SMOOTH = true ∧
        (s.mantel.lc[e]).raw = false ∧ (s.mantel.lc[e]).next = some p ∧ p ≤ 65536 * (s.ns : Int) ∧ lineAlone s e ∧
        (∀ q, s.mantel.lineAt[e] = some q → q + s.getF (rg .lcMinper e) F.lcMinper_MINPER ≤ s.ns) ∧
        s.flag (rg .lcStat e) F.lcStat_LOCKED = true)
      fun s =>
        let g := s.mantel.lc[e]
        let ratio : Int := (s.reg (rg .lcRatio e)).toNat
        let mean : Int := g.mean
        let err := (g.acc - ratio) * mean / 65536 + 65536 * ((s.ns : Int) - (g.edge.getD s.ns : Nat))
        let gain : Int := 2 ^ s.getF (rg .lcCtl e) F.lcCtl_GAIN
        let t := lineMade (putMantel s fun m => { m with lc := m.lc.set e { g with
          acc := g.acc - ratio
          next := some (p + ratio * mean / 65536 - (err / gain + if up ∧ err % gain ≠ 0 then 1 else 0)) } }) e s.count.toNat
        putMantel t fun m => { m with lc := m.lc.set e { m.lc[e] with
          near := if -mean ≤ err ∧ err ≤ mean then Nat.min 16 (g.near + 1) else 0 } }) ∧
    (∀ t, TclkForm (.lineClockStall e)
      (fun s => s.flag (rg .lcCtl e) F.lcCtl_EN = true ∧ s.flag (rg .lcCtl e) F.lcCtl_SMOOTH = true ∧
        (s.mantel.lc[e]).raw = false ∧ (s.mantel.lc[e]).edge = some t ∧ (s.mantel.lc[e]).mean ≠ 0 ∧
        65536 * t + 4 * (s.mantel.lc[e]).mean ≤ 65536 * s.ns)
      fun s => putMantel (s.setF (rg .lcStat e) F.lcStat_LOCKED 0) fun m =>
        { m with lc := m.lc.set e { acc := (s.mantel.lc[e]).acc, raw := true } })

/-! ### Tyashlink (R399 to R436) -/

namespace Sys2Proof.Claims

/-- The state with its Tyashlink replaced. -/
def putLink (s : State) (f : Link → Link) : State := { s with link := f s.link }

/-- The state with port k replaced; with one more frame waiting at it. -/
def putPort (s : State) (k : Fin 6) (f : LinkPort → LinkPort) : State :=
  putLink s fun l => { l with ports := l.ports.set k (f l.ports[k]) }
def queued (s : State) (k : Fin 6) (f : Frame) : State := putPort s k fun p => { p with waiting := p.waiting ++ [f] }

/-- The fields of a body lie in the ranges of the layout (R406, R408). -/
abbrev fits : LinkBody → Prop
  | .hello port id _ _ => port < 6 ∧ id < 1024
  | .seam plane _ planes => plane < 4096 ∧ 1 ≤ planes.length ∧ planes.length ≤ 32
  | .bulk op tag len status addr data =>
    op ≤ 5 ∧ tag < 4096 ∧ 1 ≤ len ∧ len ≤ 256 ∧ status < 16 ∧ addr < 2 ^ 32 ∧ data < 256 ^ len ∧
      ((op = 0 ∨ op = 1 ∨ op = 4) → status = 0) ∧ (bulkCarries op status = false → data = 0)
  | _ => True

/-- The stage of port k's training: lock, alignment, HELLO (R402). -/
def stageOf (s : State) (k : Fin 6) : Nat :=
  if s.flag (rg .kpStat k) F.kpStat_LOCK0 = true ∧ s.flag (rg .kpStat k) F.kpStat_LOCK1 = true then
    if (s.link.ports[k]).aligned then 3 else 2
  else 1

/-- The time of a stage in 1/100 tick (R402): 100 µs, two ALIGN periods of 16,384 slots of 2.56 ns, 10 µs. -/
def stageTime (stage : Nat) : Nat := [0, 10000000, 8388608, 1000000].getD stage 0

/-- Port k trains, and no stage of it has failed (R402). -/
abbrev trains (s : State) (k : Fin 6) : Prop :=
  s.portSt k = 1 ∧ (s.link.ports[k]).failed = none ∧
    100 * s.ns ≤ 100 * (s.link.ports[k]).stageAt + stageTime (stageOf s k)

/-- The frame carries header h and body b, follows the last one accepted, has no reserved value, and the port takes frames of
its class (R401, R404, R405, R409). -/
abbrev linkFrameOk (s : State) (f : FrameIn) (h : LinkHdr) (b : LinkBody) : Prop :=
  s.portSt f.port ≠ 0 ∧ (s.portSt f.port ≠ 1 ∨ b.wireClass = 0 ∧ trains s f.port) ∧ fits b ∧
    frameWire f b =
      frameBlocks (((s.link.ports[f.port]).rxSeq + 1) % 256) 0 false false (hdrBits b.wireClass h) b.blocks ∧
    h.rhops.toNat ≤ 8 ∧ ∀ j, j < 8 → h.route.toNat / 8 ^ j % 8 ≤ 5

/-- The state with the frame accepted: its SEQ is the last, and its credit is to be returned; in TRAINING both lanes show lock
and alignment (log entry 107), and the limit of the next stage runs from now. -/
def took (s : State) (f : FrameIn) (b : LinkBody) : State :=
  let x := rg .kpStat f.port
  let t := if s.portSt f.port = 1 then (s.setF x F.kpStat_LOCK0 1).setF x F.kpStat_LOCK1 1 else s
  putPort t f.port fun p => { p with
    rxSeq := (p.rxSeq + 1) % 256, rxAny := true, ret := p.ret.set b.cls (p.ret[b.cls] + 1)
    aligned := p.aligned || decide (s.portSt f.port = 1)
    stageAt := if s.portSt f.port = 1 ∧ stageOf s f.port ≠ 3 then s.ns else p.stageAt }

/-- `c` on an accepted frame with body b: where p holds it does g. -/
def FrameForm (c : FrameIn → Instr) (b : LinkBody) (p : FrameIn → LinkHdr → State → Prop)
    (g : FrameIn → LinkHdr → State → State) : Prop :=
  ∀ (f : FrameIn) (h : LinkHdr) (s : State), s.calm = true → linkFrameOk s f h b → p f h s → Answers (c f) s (g f h (took s f b))

/-- A counter of LINK_P[k]_ERR grows to its limit, with ERRV (R430, R436). -/
def errGrows (s : State) (k : Fin 6) (f : Field) : State :=
  (s.setF (rg .kpErr k) f (Nat.min (2 ^ f.width - 1) (s.getF (rg .kpErr k) f + 1))).setF (rg .kpStat k) F.kpStat_ERRV 1

/-- HELLO of port k (R406). -/
def helloOf (s : State) (k : Fin 6) : Frame :=
  ⟨{ src := s.ownId }, .hello k.val s.ownId.toNat s.idv (s.flag (rg .kpCtl k) F.kpCtl_JOIN)⟩

/-- Port k goes to STATE st (R401, R403): the replay buffer, the EVENTs and the waiting frames of the LINK class are gone, and
SEQ, credits and replay state start anew (log entry 38); in TRAINING it sends HELLO. -/
def wentDown (s : State) (k : Fin 6) (st : Nat) : State :=
  let t := putPort s k fun p => { waiting := p.waiting.filter fun f => decide (f.body.cls ≠ 0), stageAt := s.ns }
  let t := ((t.setF (rg .kpPeer k) F.kpPeer_VALID 0).setF (rg .kpStat k) F.kpStat_LOCK0 0).setF (rg .kpStat k) F.kpStat_LOCK1 0
  let t := if s.portSt k = st then t
    else (t.setF (rg .kpStat k) F.kpStat_STATE st).setF (rg .kpStat k) F.kpStat_STCHG 1
  if st = 1 then queued t k (helloOf s k) else t

/-- No round of the system Chimney is open. -/
abbrev noRound (s : State) : Prop := s.flag (rg .linkSchimStat) F.linkSchimStat_BUSY = false

/-- A table-routed BULK frame for this device, which serves it (R412, R413). -/
abbrev forHere (s : State) (f : FrameIn) (h : LinkHdr) : Prop :=
  h.rt = false ∧ s.idv = true ∧ h.dst = s.ownId ∧ s.coreOn = true ∧ s.joined f.port = true

/-- The way back to the frame's sender leaves by port p. -/
abbrev wayBack (s : State) (h : LinkHdr) (p : Fin 6) : Prop :=
  s.idv = true ∧ h.src ≠ s.ownId ∧ s.rtEntry h.src = p.val ∧ s.joined p = true

/-- The response to a frame with header h, queued at port p. -/
def answeredBy (s : State) (h : LinkHdr) (p : Fin 6) (op tag len status addr data : Nat) : State :=
  queued s p ⟨{ dst := h.src, src := s.ownId, hops := 1 }, .bulk op tag len status addr data⟩

/-- The request of tag t is `q`, the only one with its tag. -/
abbrev awaits (s : State) (t : Nat) (pre : List Req) (q : Req) (post : List Req) : Prop :=
  s.reqs = pre ++ q :: post ∧ q.tag = t ∧ q.pcie = false ∧ ∀ p ∈ pre ++ post, p.tag ≠ t

/-- The first failed request since VALID was cleared is reported (R416, R433). -/
def failureShown (s : State) (q : Req) (status timeout : Nat) (x : State) : Prop :=
  ∃ w, x = ((s.setF (rg .kpStat q.port) F.kpStat_BERR 1).setReg (rg .linkBstat) w).setReg (rg .linkBaddr) (BitVec.ofNat 32 q.addr) ∧
    F.linkBstat_VALID.of w = 1 ∧ F.linkBstat_DEV.of w = q.dev % 1024 ∧ F.linkBstat_STATUS.of w = status ∧
    F.linkBstat_TIMEOUT.of w = timeout ∧ F.linkBstat_WRITE.of w = (if q.write then 1 else 0) ∧ F.linkBstat_PORT.of w = q.port

/-- A failure can be shown: nothing is recorded yet, and the request left by a port. -/
abbrev canShow (s : State) (q : Req) : Prop := s.flag (rg .linkBstat) F.linkBstat_VALID = false ∧ q.port < 6

/-- The slot of EVENT `w` on port k (R407). -/
def slotOf (k : Fin 6) (w : BitVec 64) : EventIn :=
  { port := k, evt := w.setWidth 56
    data := BitVec.ofNat 64 (w.toNat / 2 ^ 56 + 2 ^ 8 * (crc16 (bytesLE 8 w.toNat)).toNat) }

/-- KIND, CODE and PAYLOAD of an EVENT (R407). -/
abbrev kindOf (w : BitVec 64) : Nat := w.toNat / 2 ^ 14 % 4
abbrev codeOf (w : BitVec 64) : Nat := w.toNat / 2 ^ 16 % 65536
abbrev payloadOf (w : BitVec 64) : Word := w.extractLsb' 32 32

/-- Every other JOINED tree port has room for an EVENT. -/
abbrev roomAtOthers (s : State) (k : Fin 6) : Prop :=
  ∀ j : Fin 6, j ≠ k → s.treePort j = true → s.joined j = true → (s.link.ports[j]).evtq.length < 8

/-- `s` with EVENT `w` of port k forwarded, its HOPS one more (R418). -/
def forwarded (s : State) (k : Fin 6) (w : BitVec 64) : State :=
  putLink s fun l => { l with ports := Vector.ofFn fun j : Fin 6 =>
    if j ≠ k ∧ w.toNat / 2 ^ 10 % 16 ≠ 15 ∧ s.treePort j = true ∧ s.joined j = true then
      { l.ports[j] with evtq := l.ports[j].evtq ++ [BitVec.ofNat 64 (w.toNat + 2 ^ 10)] }
    else l.ports[j] }

/-- An IDLE block's bytes: ACK, ACKV, NAK and the credits it returns (R404, R410). -/
def idleOf (ack : Byte) (ackv nak : Bool) (credits : Vector Byte 5) : BitVec 56 :=
  BitVec.ofNat 56 (ack.toNat + 256 * (if ackv then 1 else 0) + 512 * (if nak then 1 else 0) + 65536 * numLE credits.toList)

/-- Frames up to `e` are acknowledged at port k: `pre` and it are gone from the replay buffer, `post` is left (R409). -/
def ackedTo (s : State) (k : Fin 6) (pre : List (Nat × Frame × Nat)) (e : Nat × Frame × Nat) (post : List (Nat × Frame × Nat)) :
    State :=
  putPort s k fun p => { p with
    sent := post, replays := 0, replayQ := p.replayQ.filter fun q => !((pre.map (·.1)) ++ [e.1]).contains q }

end Sys2Proof.Claims

/-- Ports (R401 to R403, R406): enabling or a retrain leads to TRAINING, disabling to DISABLED, a failure back to TRAINING, which
starts again 1 ms after it failed and not before; HELLO ends training in UP, once one has gone out, and begins a delay
measurement; JOIN and IDV at both ends lead to JOINED. The model's choices: what a port that goes down resets (log entry 38), and
that a frame received in TRAINING shows lock and alignment (log entry 107). -/
def Sys2Proof.Claims.LinkPortsChangeState : Prop :=
  ∀ k : Fin 6,
    WriteForm (fun r v => .portEnable r k v) (rg .kpCtl k)
      (fun _ v s => noRound s ∧ F.kpCtl_EN.of v = 1 ∧ s.flag (rg .kpCtl k) F.kpCtl_EN = false)
      (fun _ v s => wentDown (s.writeDefault (rg .kpCtl k) v) k 1) ∧
    WriteForm (fun r v => .portEnable r k v) (rg .kpCtl k)
      (fun _ v s => noRound s ∧ F.kpCtl_EN.of v = 0 ∧ s.flag (rg .kpCtl k) F.kpCtl_EN = true)
      (fun _ v s => wentDown (s.writeDefault (rg .kpCtl k) v) k 0) ∧
    WriteForm (fun r v => .retrain r k v) (rg .kpCtl k)
      (fun _ v s => noRound s ∧ F.kpCtl_EN.of v = 1 ∧ F.kpCtl_RETRAIN.of v = 1)
      (fun _ v s => wentDown (s.writeDefault (rg .kpCtl k) v) k 1) ∧
    (∀ t, EventForm (.trainingRetry k)
      (fun s => s.portSt k = 1 ∧ (s.link.ports[k]).failed = some t ∧ t + 1000000 ≤ s.ns) (fun s => wentDown s k 1)) ∧
    EventForm (.trainingRetry k)
      (fun s => s.portSt k = 1 ∧ (s.link.ports[k]).failed = none ∧ ¬ trains s k ∧
        (s.link.ports[k]).stageAt + stageTime (stageOf s k) / 100 + 1000000 ≤ s.ns) (fun s => wentDown s k 1) ∧
    EventForm (.trainingRetry k) (fun s => s.portSt k ≠ 1 ∨ trains s k) id ∧
    EventForm (.portDown k) (fun s => noRound s ∧ s.portSt k ≠ 0) (fun s => wentDown s k 1) ∧
    (∀ (peer : Fin 6) (id : BitVec 10) (idv join : Bool),
      let w : Word := BitVec.ofNat 32 (peer.val + 8 * id.toNat + 8192 * (if idv then 1 else 0) + 16384 * (if join then 1 else 0) + 32768)
      let b : LinkBody := .hello peer id.toNat idv join
      let c (f : FrameIn) : Instr := .hello f (BitVec.ofNat 3 peer) id idv join
      FrameForm c b
        (fun f _ s => f.port = k ∧ noRound s ∧ s.portSt k = 1 ∧ (s.link.ports[k]).helloOut = false)
        (fun _ _ s => s.setReg (rg .kpPeer k) w) ∧
      FrameForm c b
        (fun f _ s => f.port = k ∧ noRound s ∧ s.portSt k = 1 ∧ (s.link.ports[k]).helloOut = true ∧
          s.flag (rg .kpCtl k) F.kpCtl_JOIN = false)
        (fun _ _ s =>
          let st := rg .kpStat k
          let t := ((s.setReg (rg .kpPeer k) w).setF st F.kpStat_STATE 2).setF st F.kpStat_STCHG 1
          queued (putPort t k fun p => { p with measuring := true }) k ⟨{ src := s.ownId }, .dlyreq⟩) ∧
      FrameForm c b
        (fun f _ s => f.port = k ∧ noRound s ∧ s.portSt k = 2 ∧ s.flag (rg .kpCtl k) F.kpCtl_JOIN = true ∧ s.idv = true)
        (fun _ _ s =>
          let t := s.setReg (rg .kpPeer k) w
          if idv && join then (t.setF (rg .kpStat k) F.kpStat_STATE 3).setF (rg .kpStat k) F.kpStat_STCHG 1 else t))

/-- Delay and alignment (R369, R421, R422; the fraction of a time stamp and what a port keeps are the model's choices, log entries
106 and 38): DLYGO asks, a DLYREQ is answered, a DLYRSP sets DLY; SYNC sets LINK_SYNC_RX and AT,
ERR and alignment of a follower on its UP port; SYNC frames go to every JOINED DOWN port. -/
def Sys2Proof.Claims.LinkMeasuresAndAligns : Prop :=
  (∀ k : Fin 6, WriteForm (fun r v => .dlygo r k v) (rg .kpCtl k)
    (fun _ v s => F.kpCtl_EN.of v = 1 ∧ s.flag (rg .kpCtl k) F.kpCtl_EN = true ∧ F.kpCtl_RETRAIN.of v = 0 ∧
      F.kpCtl_DLYGO.of v = 1 ∧ F.kpCtl_JOIN.of v = s.getF (rg .kpCtl k) F.kpCtl_JOIN ∧ s.linked k = true)
    (fun _ v s => queued (putPort (s.writeDefault (rg .kpCtl k) v) k fun p => { p with measuring := true }) k
      ⟨{ src := s.ownId }, .dlyreq⟩)) ∧
  (∀ (f : FrameIn) (h : LinkHdr) (s : State), s.calm = true → linkFrameOk s f h .dlyreq → ∃ own : Fin 16,
    Answers (.dlyreq f) s { queued (took s f .dlyreq) f.port
      ⟨{ src := s.ownId }, .dlyrsp (BitVec.ofNat 32 (16 * s.ns + own.val))⟩ with free := s.free + 1 }) ∧
  (∀ (turn : Word) (own : Fin 16), FrameForm (fun f => .dlyrsp f turn own) (.dlyrsp turn) (fun f _ s => (s.link.ports[f.port]).measuring = true) fun f _ s =>
    let elapsed : Word := BitVec.ofNat 32 (16 * s.ns + own.val) - (s.link.ports[f.port]).t1
    ((putPort s f.port fun p => { p with measuring := false }).setF (rg .kpDly f.port) F.kpDly_DLY
      ((elapsed - turn).toNat / 2)).setF (rg .kpStat f.port) F.kpStat_DLYV 1) ∧
  (∀ (count : BitVec 64) (frac : BitVec 4) (own : Fin 16) (f : FrameIn) (h : LinkHdr) (s : State), s.calm = true →
    linkFrameOk s f h (.sync count frac) → s.joined f.port = true → s.follower = true → s.upPort f.port = true →
    let parent := 16 * count.toNat + frac.toNat + s.getF (rg .kpDly f.port) F.kpDly_DLY
    let err : Int := ((16 * s.count.toNat + own.val : Nat) : Int) - (parent : Int)
    let cut : Int := max (-32768) (min 32767 err)
    let inside : Prop := cut.natAbs ≤ s.getF (rg .mantelSynccfg) F.mantelSynccfg_ALIMIT
    let was := s.flag (rg .mantelSync) F.mantelSync_ALIGNED
    ∃ x w, Answers (.syncFrame f count frac own) s x ∧
      x = { ((((took s f (.sync count frac)).setReg (rg .linkSyncRxlo) (BitVec.ofNat 32 ((parent + 8) / 16))).setReg (rg .linkSyncRxhi)
          (BitVec.ofNat 32 ((parent + 8) / 16 / 2 ^ 32))).setReg (rg .linkSyncAtlo) (s.count.setWidth 32)).setReg
          (rg .linkSyncAthi) ((s.count >>> 32).setWidth 32) |>.setReg (rg .mantelSync) w with
        mantel := { s.mantel with syncAt := some s.ns } } ∧
      sext 16 (F.mantelSync_ERR.of w) = cut ∧ (F.mantelSync_ALIGNED.of w = 1 ↔ inside) ∧
      (F.mantelSync_ALGN.of w = 1 ↔ (inside ∧ was = false) ∨ s.flag (rg .mantelSync) F.mantelSync_ALGN = true) ∧
      (F.mantelSync_LOST.of w = 1 ↔ (¬ inside ∧ was = true) ∨ s.flag (rg .mantelSync) F.mantelSync_LOST = true)) ∧
  EventForm .syncSend (fun s => s.flag (rg .linkSync) F.linkSync_EN = true ∧ s.link.syncDue ≤ s.ns)
    fun s => putLink s fun l => { l with
      syncDue := s.ns + usTicks (s.getF (rg .linkSync) F.linkSync_PER)
      ports := Vector.ofFn fun k : Fin 6 =>
        if s.downPort k && s.joined k then
          { l.ports[k] with waiting := l.ports[k].waiting ++
            [⟨{ dst := BitVec.ofNat 10 (s.getF (rg .kpPeer k) F.kpPeer_ID), src := s.ownId }, .sync s.count 0⟩] }
        else l.ports[k] }

/-- Tyashlink ports, delay and alignment. -/
def Obligations.LinkPortsTrainAndAlign : Prop :=
  LinkPortsChangeState ∧ LinkMeasuresAndAligns

/-- Acknowledgement and replay (R402, R404, R409, R410): blocks that spell no frame, and a frame out of sequence, are counted and
answered with NAK; an ACK in a frame or an IDLE block frees the replay buffer; NAK and the replay timeout set every
unacknowledged frame to be sent again, and the eighth time without progress takes the port down; an IDLE block returns
credits, and in TRAINING 64 good sync headers lock a lane, and ALIGN blocks at most 4 slots apart align the lanes, or fail the
training. The model's choice: what a port that goes down resets (log entry 38). -/
def Obligations.LinkFramesAreReplayed : Prop :=
  (∀ f : FrameIn,
    let bad (s : State) : State := putPort (errGrows s f.port F.kpErr_CRCERR) f.port fun p => { p with nak := true }
    EventForm (.dlyreq f) (fun s => s.portSt f.port ≠ 0 ∧ parseFrame (frameWire f .dlyreq) = none) bad ∧
    (∀ (seq : Byte) (h : LinkHdr), EventForm (.dlyreq f)
      (fun s => s.linked f.port = true ∧ seq.toNat ≠ ((s.link.ports[f.port]).rxSeq + 1) % 256 ∧
        frameWire f .dlyreq = frameBlocks seq.toNat 0 false false (hdrBits 0 h) LinkBody.dlyreq.blocks) bad) ∧
    (∀ (seq ack : Byte) (h : LinkHdr) pre e post, EventForm (.dlyreq f)
      (fun s => s.linked f.port = true ∧ seq.toNat ≠ ((s.link.ports[f.port]).rxSeq + 1) % 256 ∧
        frameWire f .dlyreq = frameBlocks seq.toNat ack.toNat true false (hdrBits 0 h) LinkBody.dlyreq.blocks ∧
        (s.link.ports[f.port]).sent = pre ++ e :: post ∧ e.1 = ack.toNat ∧ ∀ d ∈ pre, d.1 ≠ ack.toNat)
      fun s => ackedTo (bad s) f.port pre e post)) ∧
  (∀ k : Fin 6,
    let again (s : State) : State := putPort (errGrows s k F.kpErr_REPLAY) k fun p =>
      { p with replays := p.replays + 1, replayQ := p.sent.map (·.1), sent := p.sent.map fun e => (e.1, e.2.1, s.ns) }
    let none' : Vector Byte 5 := Vector.replicate 5 0
    (∀ ack : Byte,
      EventForm (.nak k (idleOf ack false true none'))
        (fun s => s.portSt k ≠ 0 ∧ (s.link.ports[k]).sent ≠ [] ∧ (s.link.ports[k]).replays < 7) again ∧
      (∀ pre e post, EventForm (.nak k (idleOf ack true true none'))
        (fun s => s.portSt k ≠ 0 ∧ (s.link.ports[k]).sent = pre ++ e :: post ∧ e.1 = ack.toNat ∧ ∀ d ∈ pre, d.1 ≠ ack.toNat)
        fun s => if post = [] then ackedTo s k pre e post else again (ackedTo s k pre e post)) ∧
      EventForm (.nak k (idleOf ack false true none'))
        (fun s => noRound s ∧ s.portSt k ≠ 0 ∧ (s.link.ports[k]).sent ≠ [] ∧ (s.link.ports[k]).replays = 7)
        (fun s => wentDown (errGrows s k F.kpErr_REPLAY) k 1) ∧
      (∀ (credits : Vector Byte 5) (lane : Fin 2) pre e post, EventForm (.idleBlock k lane {} (idleOf ack true false credits))
        (fun s => s.portSt k ≠ 0 ∧ (s.link.ports[k]).sent = pre ++ e :: post ∧ e.1 = ack.toNat ∧ ∀ d ∈ pre, d.1 ≠ ack.toNat)
        fun s => ackedTo (putPort s k fun p => { p with
          credits := Vector.ofFn fun c : Fin 5 => p.credits[c] + credits[c].toNat }) k pre e post) ∧
      (∀ (lane : Fin 2) (n : Nat), 64 ≤ n → EventForm (.idleBlock k lane { headers := n } (idleOf ack false false none'))
        (fun s => trains s k)
        fun s =>
          let t := s.setF (rg .kpStat k) (if lane = 0 then F.kpStat_LOCK0 else F.kpStat_LOCK1) 1
          if stageOf t k = stageOf s k then t else putPort t k fun p => { p with stageAt := s.ns }) ∧
      (∀ (lane : Fin 2) (skew : Nat), EventForm (.idleBlock k lane { skew := some skew } (idleOf ack false false none'))
        (fun s => trains s k ∧ stageOf s k = 2)
        fun s => putPort s k fun p =>
          if skew ≤ 4 then { p with aligned := true, stageAt := s.ns } else { p with failed := some s.ns })) ∧
    (∀ e rest, EventForm (.replayTimeout k)
      (fun s => (s.link.ports[k]).sent = e :: rest ∧ e.2.2 + usTicks 2 < s.ns ∧ (s.link.ports[k]).replays < 7) again) ∧
    WriteForm (fun r v => .pErrClr r k v) (rg .kpErr k) (fun _ v _ => F.kpErr_CLR.of v = 1)
      (fun _ _ s => s.setReg (rg .kpErr k) 0))

/-- BULK requests served (R412, R413, R415, R518): a READ of a permitted range is answered with its bytes, a WRITE stores them, a
range that is not permitted answers ERROR, and a second ATTEST answers NOT_READY. -/
def Sys2Proof.Claims.BulkRequestsAreServed : Prop :=
  ∀ (tag : BitVec 12) (p : Fin 6) (f : FrameIn) (h : LinkHdr) (b : LinkBody) (s : State), s.calm = true →
    linkFrameOk s f h b → forHere s f h → wayBack s h p →
    let t := took s f b
    (∀ (len : Fin 256) (addr : Word),
      let a := addr.toNat
      let n := len.val + 1
      (b = .bulk 0 tag.toNat n 0 a 0 →
        (t.bulkRange a n = none → Answers (.bulkRead f tag len addr) s (answeredBy t h p 2 tag.toNat n 1 a 0)) ∧
        (t.bulkRange a n = some .landing ∨ t.bulkRange a n = some .cellar → t.bankSt a = .on →
          t.eccBad a n = false → t.eccCount a n = t →
          Answers (.bulkRead f tag len addr) s (answeredBy t h p 2 tag.toNat n 0 a (numLE (t.memBytes a n))))) ∧
      (∀ data, b = .bulk 1 tag.toNat n 0 a data →
        (t.bulkRange a n = none → Answers (.bulkWrite f tag len addr data []) s (answeredBy t h p 3 tag.toNat n 1 a 0)) ∧
        (t.bulkRange a n = some .landing ∨ t.bulkRange a n = some .cellar → t.bankSt a = .on →
          t.lockout = false → s.cellar.weak = [] → s.cellar.bad = [] →
          Answers (.bulkWrite f tag len addr data []) s
            (answeredBy (t.setMemBytes a ((List.range n).map fun i => BitVec.ofNat 8 (data / 256 ^ i))) h p 3 tag.toNat n 0 a
              0)))) ∧
    (∀ req : BitVec 512, b = .bulk 4 tag.toNat 64 0 f.addr.toNat req.toNat →
      ((∀ j ∈ s.assay.sigQ, ∀ a b c d, j ≠ .remote a b c d) →
        Answers (.attest f tag req) s { t with
          assay := { s.assay with sigQ := s.assay.sigQ ++ [.remote f.port h tag.toNat req.toNat] } }) ∧
      (∀ a b c d, .remote a b c d ∈ s.assay.sigQ → s.getF (rg .asAttSrv) F.asAttSrv_NOTREADY < 127 →
        Answers (.attest f tag req) s (answeredBy (t.setF (rg .asAttSrv) F.asAttSrv_NOTREADY
          (s.getF (rg .asAttSrv) F.asAttSrv_NOTREADY + 1)) h p 5 tag.toNat 1 2 0 0)))

/-- Requests end (R182, R416, R417, R519): an RDRSP ends a load; a WRRSP a store, with its failure shown; NOT_READY leaves the
request to be sent again; a timeout is shown; a late response is counted; a failed attestation ends with 7, and a part of a
quote is stored at QADDR plus its offset, the last one ending the attestation with 0. The model's choice: a failure is reported
in BERR, LINK_BSTAT and BADDR whoever asked (log entry 62). -/
def Sys2Proof.Claims.LinkRequestsEnd : Prop :=
  (∀ (f : FrameIn) (hd : LinkHdr) (tag : BitVec 12) (status : BitVec 4) (off : Word) (op data : Nat) (pre post : List Req)
      (q : Req) (h : Fin 4) (s : State), s.calm = true →
    let b : LinkBody := .bulk op tag.toNat (f.len.val + 1) status.toNat (if op = 5 then off else f.addr).toNat
      (if op = 3 then 0 else data)
    linkFrameOk s f hd b → forHere s f hd →
    let t := took s f b
    let u := { t with reqs := pre ++ post }
    (awaits s tag.toNat pre q post →
      (∀ l : PendingLoad, op = 2 → status = 0 → q.who = .load h → (s.seq h).load = some l → l.size = 4 → l.fp = false →
        l.upd = none → l.rep = false →
        Answers (.rdrsp f tag status data) s (u.modSeq h fun x => { x with
          load := none, g := x.g.set l.d (BitVec.ofNat 32 data), pc := l.next, atomRep := false
          flg := if l.te then setBits x.flg 10 1 1 else x.flg })) ∧
      (op = 3 → q.who = .store h →
        (status = 0 → Answers (.wrrsp f tag status) s (u.modSeq h fun x => { x with unacked := x.unacked - 1 })) ∧
        (status = 1 → canShow t q → ∃ x, failureShown u q 1 0 x ∧
          Answers (.wrrsp f tag status) s (x.modSeq h fun x => { x with unacked := x.unacked - 1 }))) ∧
      (op = 3 → status = 2 → Answers (.wrrsp f tag status) s { t with reqs := pre ++ { q with again := true } :: post }) ∧
      (op = 5 → status = 1 → q.who = .attest → canShow t q → ∃ x, failureShown u q 1 0 x ∧
        Answers (.attrsp f tag status off data) s
          { ((x.setF (rg .asAttCtl) F.asAttCtl_BUSY 0).setF (rg .asAttCtl) F.asAttCtl_DONE 1).setF (rg .asAttCtl)
              F.asAttCtl_ERR 7 with assay := { s.assay with att := none } }) ∧
      (∀ a : RemoteAtt, op = 5 → status = 0 → q.who = .attest → s.assay.att = some a →
        let n := f.len.val + 1
        let at' := a.qaddr + off.toNat
        let got := a.got ++ [(off.toNat, n)]
        let whole : Prop := ∀ i, i < a.len → ∃ g ∈ got, g.1 ≤ i ∧ i < g.1 + g.2
        inRam at' n = true → (∀ b ∈ s.bankStates at' n, b = .on) → s.cellar.weak = [] → s.cellar.bad = [] →
        let w (x : State) : State := x.setMemBytes at' ((List.range n).map fun i => BitVec.ofNat 8 (data / 256 ^ i))
        (¬ whole → Answers (.attrsp f tag status off data) s
          { w t with assay := { s.assay with att := some { a with got } } }) ∧
        (whole → Answers (.attrsp f tag status off data) s
          { (((w u).setF (rg .asAttCtl) F.asAttCtl_BUSY 0).setF (rg .asAttCtl) F.asAttCtl_DONE 1).setF (rg .asAttCtl)
              F.asAttCtl_ERR 0 with assay := { s.assay with att := none } }))) ∧
    (op = 3 → (∀ q ∈ s.reqs, q.tag ≠ tag.toNat) → (∀ e ∈ s.link.lateTags, e.1 ≠ tag.toNat) →
      Answers (.wrrsp f tag status) s ((t.setF (rg .linkBstat) F.linkBstat_LATE
        (Nat.min 255 (s.getF (rg .linkBstat) F.linkBstat_LATE + 1))).setF (rg .kpStat f.port) F.kpStat_BERR 1))) ∧
  (∀ (tag : BitVec 12) (pre post : List Req) (q : Req) (d : Nat) (s : State), s.calm = true →
    awaits s tag.toNat pre q post →
    let u := { s with reqs := pre ++ post }
    (∀ h, q.who = .store h → q.due = some d → d < s.ns → canShow s q → ∃ x, failureShown u q 0 1 x ∧
      Answers (.bulkTimeout tag) s (x.modSeq h fun x => { x with unacked := x.unacked - 1 })) ∧
    (q.who = .attest → q.due = some d → d < s.ns → canShow s q → ∃ x, failureShown u q 0 1 x ∧
      Answers (.attestTimeout tag) s
        { ((x.setF (rg .asAttCtl) F.asAttCtl_BUSY 0).setF (rg .asAttCtl) F.asAttCtl_DONE 1).setF (rg .asAttCtl)
            F.asAttCtl_ERR 6 with assay := { s.assay with att := none } }) ∧
    (∀ k hdr h, q.who = .store h → q.write = true → q.again = true → s.routeOf q.hdr 0 true = .send k hdr →
      Answers (.notReadyReissue tag) s
        (queued { s with reqs := pre ++ { q with again := false, port := k.val } :: post } k
          ⟨hdr, .bulk 1 q.tag q.len 0 q.addr q.data⟩))) ∧
  (∀ (r : Requester) (v : Word) (s : State) (k : Fin 6) (tag : Nat), s.takes r (rg .linkMgCtl) v = true → fromSeq r = true →
    F.linkMgCtl_GO.of v = 1 → s.flag (rg .linkMgCtl) F.linkMgCtl_BUSY = false → (∀ q ∈ s.reqs, q.who.isManage = false) →
    s.freeTag (.manage 0) = some tag →
    let w := s.reg (rg .linkMgRoute)
    let route : BitVec 24 := w.setWidth 24
    F.linkMgRoute_RHOPS.of w ≠ 0 → w.toNat % 8 = k.val → s.linked k = true →
    let wr := F.linkMgCtl_WRITE.of v
    ∃ x, Answers (.managementAccess r v) s (queued x k
        ⟨{ src := s.ownId, rt := true, rhops := BitVec.ofNat 4 (F.linkMgRoute_RHOPS.of w - 1), route := route >>> 3 },
          .bulk wr tag 4 0 (s.reg (rg .linkMgAddr)).toNat (if wr = 1 then (s.reg (rg .linkMgData)).toNat else 0)⟩) ∧
      x.flag (rg .linkMgCtl) F.linkMgCtl_BUSY = true ∧ x.getF (rg .linkMgCtl) F.linkMgCtl_STATUS = 0 ∧
      x.reqs.length = s.reqs.length + 1 ∧ (∀ q ∈ s.reqs, q ∈ x.reqs) ∧
      (∀ y, regAt y.off = some y → y ≠ rg .linkMgCtl → y ≠ rg .cellarTags → x.reg y = s.reg y) ∧
      x = { s with regs := x.regs, reqs := x.reqs })

/-- BULK requests served here, and requests of this device that end. -/
def Obligations.BulkRequestsServedAndEnded : Prop :=
  BulkRequestsAreServed ∧ LinkRequestsEnd

/-- EVENTs (R407, R418, R419, R434): a USER EVENT is forwarded on every other JOINED tree port and queued where its code
matches; one with a bad CRC is counted; DISTRESS is treated alike on such an EVENT, and a good one is forwarded, queued whatever
its code, and is cause 0x5 of the Lodge, which LodgeCausesAct tells of; a read of LINK_EVQHI takes the oldest; CLR empties the
queue. -/
def Sys2Proof.Claims.LinkEventsAreForwarded : Prop :=
  (∀ (k : Fin 6) (w : BitVec 64) (s : State), s.calm = true → s.linked k = true → s.treePort k = true → roomAtOthers s k →
    kindOf w = 0 → (∀ g : Fin 8, s.getF (rg .grpCtl g) F.grpCtl_SRC ≠ 2) →
    let c := s.reg (rg .linkEvctl)
    let m := F.linkEvctl_MASK.of c
    let matched := s.flag (rg .linkEvstat) F.linkEvstat_EN = true ∧ codeOf w &&& m = F.linkEvctl_CODE.of c &&& m
    let x := forwarded s k w
    (¬ matched → Answers (.userEvent (slotOf k w)) s x) ∧
    (matched → s.link.evq.length < 16 →
      Answers (.userEvent (slotOf k w)) s ((putLink x fun l => { l with evq := l.evq ++ [w] }).setF (rg .kpStat k)
        F.kpStat_EVQ 1)) ∧
    (matched → 16 ≤ s.link.evq.length →
      Answers (.userEvent (slotOf k w)) s (x.setF (rg .linkEvstat) F.linkEvstat_OVF
        (Nat.min 255 (s.getF (rg .linkEvstat) F.linkEvstat_OVF + 1))))) ∧
  (∀ (e : EventIn) (s : State), s.calm = true → s.linked e.port = true →
    e.data.extractLsb' 8 16 ≠ crc16 (bytesLE 8 (e.evt.toNat + 2 ^ 56 * (e.data.toNat % 256))) →
    let x := errGrows s e.port F.kpErr_EVBAD
    Answers (.userEvent e) s x ∧ Answers (.distress e) s x) ∧
  (∀ (k : Fin 6) (w : BitVec 64) (s : State), s.linked k = true → s.treePort k = true → roomAtOthers s k → kindOf w = 1 →
    let x := forwarded s k w
    let enabled := s.flag (rg .linkEvstat) F.linkEvstat_EN = true
    exec (.distress (slotOf k w)) s = .next (s.event fun s => s.eventIn (slotOf k w)) ∧
    (¬ enabled → s.eventIn (slotOf k w) = { x with lodgeQ := s.lodgeQ ++ [5] }) ∧
    (enabled → s.link.evq.length < 16 →
      s.eventIn (slotOf k w) = { (putLink x fun l => { l with evq := l.evq ++ [w] }).setF (rg .kpStat k) F.kpStat_EVQ 1 with
        lodgeQ := s.lodgeQ ++ [5] })) ∧
  (∀ (r : Requester) (e : BitVec 64) (rest : List (BitVec 64)) (s : State), s.calm = true → s.reaches r = true → s.link.evq = e :: rest →
    Answers (.eventQueuePop r) s { putLink s fun l => { l with evq := rest } with answer := some (.data (e.toNat / 2 ^ 32)) }) ∧
  WriteForm (fun r v => .evstatClr r v) (rg .linkEvstat) (fun _ v _ => F.linkEvstat_CLR.of v = 1)
    (fun _ v s => (putLink (s.writeDefault (rg .linkEvstat) v) fun l => { l with evq := [] }).setF (rg .linkEvstat)
      F.linkEvstat_OVF 0)

/-- The system Chimney (R424, R425): a write opens a round; a device with an UP port and no JOINED DOWN port sends SCHIM_UP at
once; a SCHIM_UP is held, and with the last one awaited the device sends its SCHIM_UP with the totals, or as the master sends
SCHIM_DOWN and ends the round; SCHIM_DOWN ends the round with its totals; another round's is late; a round times out. The
model's choice: a SCHIM_UP that comes before the round is open is held for it (log entry 39). -/
def Sys2Proof.Claims.SystemChimneyRounds : Prop :=
  let ss := rg .linkSchimStat
  (∀ (r : Requester) (v : Word) (k : Fin 6) (s : State), s.takes r (rg .linkSchimIn) v = true → s.link.schim.ups = [] →
    (∀ k, (s.downPort k && s.joined k) = false) → s.getF (rg .linkTree) F.linkTree_UP = k.val →
    (s.link.ports[k]).evtq.length < 8 →
    let tmo := s.getF (rg .linkSchimCtl) F.linkSchimCtl_TMO
    Answers (.schimIn r v) s ((putLink s fun l => { l with
      schim := { round := F.linkSchimIn_ROUND.of v, count := F.linkSchimIn_COUNT.of v, orv := decide (F.linkSchimIn_OR.of v = 1)
                 due := if tmo = 0 then none else some (s.ns + usTicks tmo), upSent := true }
      ports := l.ports.set k { l.ports[k] with evtq := l.ports[k].evtq ++ [evWord s.ownId.toNat 0 2 0 v.toNat] } }).setF ss
        F.linkSchimStat_BUSY 1)) ∧
  (∀ (k : Fin 6) (w : BitVec 64),
    let e := slotOf k w
    let p := (payloadOf w).toNat
    EventForm (.schimUp e)
      (fun s => s.linked k = true ∧ kindOf w = 2 ∧ s.downPort k = true ∧ noRound s ∧ ∀ u ∈ s.link.schim.ups, u.1 ≠ k.val)
      (fun s => putLink s fun l => { l with schim := { l.schim with ups := l.schim.ups ++
        [(k.val, p / 2 ^ 28, p % 2 ^ 27, p.testBit 27)] } }) ∧
    (let held (s : State) : Schim := { s.link.schim with ups := s.link.schim.ups ++
        [(k.val, p / 2 ^ 28, p % 2 ^ 27, p.testBit 27)] }
      let opened (s : State) : Prop := s.linked k = true ∧ kindOf w = 2 ∧ s.downPort k = true ∧
        s.flag ss F.linkSchimStat_BUSY = true ∧ s.link.schim.round = p / 2 ^ 28 ∧ s.link.schim.upSent = false ∧
        ∀ u ∈ s.link.schim.ups, u.1 ≠ k.val
      let heard (s : State) (j : Fin 6) : Prop := ∃ u ∈ (held s).ups, u.1 = j.val
      let awaited (s : State) (j : Fin 6) : Prop := s.downPort j = true ∧ s.joined j = true
      let total (s : State) : Nat := (s.link.schim.count + ((held s).ups.map fun u => u.2.2.1).sum) % 2 ^ 27 +
        (if s.link.schim.orv || (held s).ups.any (fun u => u.2.2.2) then 2 ^ 27 else 0) + 2 ^ 28 * (s.link.schim.round % 16)
      (∀ j, EventForm (.schimUp e) (fun s => opened s ∧ awaited s j ∧ ¬ heard s j)
        fun s => putLink s fun l => { l with schim := held s }) ∧
      (∀ u : Fin 6, EventForm (.schimUp e)
        (fun s => opened s ∧ (∀ j, awaited s j → heard s j) ∧ s.getF (rg .linkTree) F.linkTree_UP = u.val ∧
          (s.link.ports[u]).evtq.length < 8)
        fun s => putLink s fun l => { l with
          schim := { held s with upSent := true }
          ports := l.ports.set u { l.ports[u] with evtq := l.ports[u].evtq ++ [evWord s.ownId.toNat 0 2 0 (total s)] } }) ∧
      EventForm (.schimUp e)
        (fun s => opened s ∧ (∀ j, awaited s j → heard s j) ∧ 6 ≤ s.getF (rg .linkTree) F.linkTree_UP ∧
          ∀ j, awaited s j → (s.link.ports[j]).evtq.length < 8)
        fun s => (putLink (((s.setReg (rg .linkSchimOut) (BitVec.ofNat 32 (total s))).setF ss F.linkSchimStat_BUSY 0).setF ss
          F.linkSchimStat_DONE 1) fun l => { l with
            schim := {}
            ports := Vector.ofFn fun j : Fin 6 => if s.downPort j && s.joined j then
              { l.ports[j] with evtq := l.ports[j].evtq ++ [evWord s.ownId.toNat 0 3 0 (total s)] } else l.ports[j] }).setF
          (rg .kpStat k) F.kpStat_EVQ 1) ∧
    EventForm (.schimUp e)
      (fun s => s.linked k = true ∧ kindOf w = 2 ∧ s.downPort k = true ∧ s.flag ss F.linkSchimStat_BUSY = true ∧
        p / 2 ^ 28 ≠ s.link.schim.round)
      (fun s => s.setF ss F.linkSchimStat_ERR 1) ∧
    EventForm (.schimDown e)
      (fun s => s.linked k = true ∧ kindOf w = 3 ∧ s.treePort k = true ∧ roomAtOthers s k ∧
        s.flag ss F.linkSchimStat_BUSY = true ∧ s.link.schim.round = p / 2 ^ 28)
      (fun s => (putLink ((((forwarded s k w).setReg (rg .linkSchimOut) (payloadOf w)).setF ss F.linkSchimStat_BUSY 0).setF ss
        F.linkSchimStat_DONE 1) fun l => { l with schim := {} }).setF (rg .kpStat k) F.kpStat_EVQ 1) ∧
    EventForm (.schimDown e)
      (fun s => s.linked k = true ∧ kindOf w = 3 ∧ s.treePort k = true ∧ roomAtOthers s k ∧
        (s.flag ss F.linkSchimStat_BUSY = true → s.link.schim.round ≠ p / 2 ^ 28))
      (fun s => (forwarded s k w).setF ss F.linkSchimStat_LATE (Nat.min 255 (s.getF ss F.linkSchimStat_LATE + 1)))) ∧
  (∀ t, EventForm .schimTimeout
    (fun s => s.link.schim.due = some t ∧ t < s.ns ∧ s.flag ss F.linkSchimStat_BUSY = true)
    fun s => putLink ((s.setF ss F.linkSchimStat_BUSY 0).setF ss F.linkSchimStat_TIMEOUT 1) fun l => { l with schim := {} })

/-- EVENTs and the system Chimney. -/
def Obligations.LinkEventsAndChimney : Prop :=
  LinkEventsAreForwarded ∧ SystemChimneyRounds

/-- The seam engine and remote windows (R414, R426 to R428, R435): claim, release and refusal; a start while BUSY sets OVR; an
exchange sends the edge planes of its wing in a SEAM frame, shown for one side and up to 32 planes, or with no port none, and is
BUSY until its end, which advances SLOT; a frame for no side of this device is counted, one for
the west halo writes its plane. -/
def Obligations.SeamsAndRemoteWindows : Prop :=
  let c := rg .linkSeamCtl
  let st := rg .linkSeamStat
  WriteForm .seamEngineClaim c
    (fun r v s => reqOwner r = some (F.linkSeamCtl_OWNER.of v) ∧ s.getF c F.linkSeamCtl_OWNER = 0 ∧ F.linkSeamCtl_START.of v = 0)
    (fun _ v s => s.writeDefault c v) ∧
  WriteForm .seamEngineClaim c
    (fun r v s => owns r (s.getF c F.linkSeamCtl_OWNER) = true ∧ F.linkSeamCtl_OWNER.of v = 0)
    (fun _ _ s => s.setF c F.linkSeamCtl_OWNER 0) ∧
  WriteForm .seamEngineClaim c
    (fun r v s => ownerRule r (s.getF c F.linkSeamCtl_OWNER) (F.linkSeamCtl_OWNER.of v) = .refuse)
    (fun r _ s => s.linkRefuse 0x10 (reqCode r) false) ∧
  (∀ m : Fin 16,
    let x := rg .linkRwin m
    WriteForm (fun r v => .remoteWindowClaim r m v) x
      (fun r v s => reqOwner r = some (F.linkRwin_OWNER.of v) ∧
        (s.getF x F.linkRwin_OWNER = 0 ∨ s.getF x F.linkRwin_OWNER = F.linkRwin_OWNER.of v)) 
      (fun _ v s => s.writeDefault x v) ∧
    WriteForm (fun r v => .remoteWindowClaim r m v) x
      (fun r v s => owns r (s.getF x F.linkRwin_OWNER) = true ∧ F.linkRwin_OWNER.of v = 0)
      (fun _ _ s => s.setF x F.linkRwin_OWNER 0) ∧
    WriteForm (fun r v => .remoteWindowClaim r m v) x
      (fun r v s => ownerRule r (s.getF x F.linkRwin_OWNER) (F.linkRwin_OWNER.of v) = .refuse)
      (fun r _ s => s.linkRefuse m (reqCode r) false)) ∧
  WriteForm .seamExchange c
    (fun r v s => owns r (s.getF c F.linkSeamCtl_OWNER) = true ∧ F.linkSeamCtl_OWNER.of v = s.getF c F.linkSeamCtl_OWNER ∧
      F.linkSeamCtl_START.of v = 1 ∧ s.flag st F.linkSeamStat_BUSY = true)
    (fun _ v s => (s.writeDefault c v).setF st F.linkSeamStat_OVR 1) ∧
  WriteForm .seamExchange c
    (fun r v s => owns r (s.getF c F.linkSeamCtl_OWNER) = true ∧ F.linkSeamCtl_OWNER.of v = s.getF c F.linkSeamCtl_OWNER ∧
      F.linkSeamCtl_START.of v = 1 ∧ s.flag st F.linkSeamStat_BUSY = false ∧ F.linkSeamCtl_WPORT.of v = 15 ∧
      F.linkSeamCtl_EPORT.of v = 15 ∧ s.getF (rg .sysPwrstat) F.sysPwrstat_STATE ≠ 1)
    (fun _ v s => putLink ((s.writeDefault c v).setF st F.linkSeamStat_BUSY 1) fun l =>
      { l with seamSrc := s.reg (rg .linkSeamSrc) }) ∧
  (∀ (r : Requester) (v : Word) (east : Bool) (k : Fin 6) (s : State), s.takes r c v = true →
    owns r (s.getF c F.linkSeamCtl_OWNER) = true → F.linkSeamCtl_OWNER.of v = s.getF c F.linkSeamCtl_OWNER →
    F.linkSeamCtl_START.of v = 1 → s.flag st F.linkSeamStat_BUSY = false →
    F.linkSeamCtl_WPORT.of v = (if east then 15 else k.val) → F.linkSeamCtl_EPORT.of v = (if east then k.val else 15) →
    s.joined k = true → s.getF (rg .sysPwrstat) F.sysPwrstat_STATE ≠ 1 → s.arr.badPar = [] →
    let w := if east then 7 else 0
    s.wingOn w = true → s.wingClearing w = false →
    let src := s.reg (rg .linkSeamSrc)
    let n := F.linkSeamSrc_NPL.of src
    let first := F.linkSeamSrc_RBASE.of src + F.linkSeamSrc_SLOT.of src * n
    1 ≤ n → n ≤ 32 →
    ∃ planes : List (BitVec 64), planes.length = n ∧
      (∀ j, j < n → ∀ i, i < 64 → (planes.getD j 0).getLsbD i = (s.plane (w + 1) (first + j)).getLsbD
        (if s.twoD then 128 * i + (if east then 127 else 0) else if east then 8128 + i else i)) ∧
      Answers (.seamExchange r v) s (queued (putLink ((s.writeDefault c v).setF st F.linkSeamStat_BUSY 1) fun l =>
        { l with seamSrc := src }) k
        ⟨{ dst := BitVec.ofNat 10 (s.getF (rg .kpPeer k) F.kpPeer_ID), src := s.ownId }, .seam first east planes⟩)) ∧
  EventForm .seamExchangeDone
    (fun s => s.flag st F.linkSeamStat_BUSY = true ∧ s.link.seamNew = none ∧
      ∀ k : Fin 6, s.joined k = true → (∀ f ∈ (s.link.ports[k]).waiting, f.body.cls ≠ 2) ∧
        ∀ b, (s.link.ports[k]).txBody = some b → b.cls ≠ 2)
    (fun s =>
      let w := s.link.seamSrc
      ((s.setF st F.linkSeamStat_BUSY 0).setF st F.linkSeamStat_DONE 1).setReg (rg .linkSeamSrc)
        (setBits w 26 6 ((F.linkSeamSrc_SLOT.of w + 1) % Nat.max 1 (F.linkSeamSrc_RDEPTH.of w)))) ∧
  (∀ (plane : BitVec 12) (east : Bool) (data : BitVec 64) (collide : BitVec 32),
    FrameForm (fun f => .seamFrame f plane east [data] collide) (.seam plane.toNat east [data])
      (fun f h s => s.joined f.port = true ∧ h.dst ≠ s.ownId)
      (fun _ _ s => s.setF st F.linkSeamStat_RXDROP (Nat.min 255 (s.getF st F.linkSeamStat_RXDROP + 1))) ∧
    FrameForm (fun f => .seamFrame f plane true [data] collide) (.seam plane.toNat true [data])
      (fun f h s => s.joined f.port = true ∧ h.dst = s.ownId ∧ s.getF c F.linkSeamCtl_WPORT = f.port.val ∧
        plane.toNat < 4064 ∧ collide.getLsbD 0 = false ∧ s.wingOn 0 = true)
      (fun _ _ s => s.writePlane 0 plane.toNat (unitOnes 0) (data.setWidth 8192)))

/-! ### PCI Express (R437 to R449) -/

namespace Sys2Proof.Claims

/-- The function takes memory requests: Memory Space Enable is 1 (log entry 17), and it is in D0 (R437, R445). -/
abbrev inD0 (s : State) : Prop := (s.cfgWord 1).getLsbD 1 = true ∧ s.flag (rg .pcieLink) F.pcieLink_D3 = false

/-- `n` bytes at offset `off` of BAR2 or BAR4, at sequencer address `a`, in banks that are ON, which no upset has touched
(R440, R441). -/
abbrev barBytes (s : State) (bar : Fin 3) (off n a : Nat) : Prop :=
  0 < n ∧ s.cellar.bad = [] ∧ s.cellar.weak = [] ∧
    ((bar = 1 ∧ off + n ≤ 0x40000 ∧ a = 0x10000000 + off) ∨
      (bar = 2 ∧ off + n ≤ 0x3000000 ∧ a = 0x20000000 + off ∧ ∀ b ∈ s.bankStates a n, b = .on))

/-- The first failed outbound request is captured in PCIE_ERR, and source 651 rises (R443, R445). -/
def outboundShown (s : State) (q : Req) (kind : Nat) (x : State) : Prop :=
  ∃ w, x = ((putPcie s fun p => { p with outErr := true }).setReg (rg .pcieErr) w).setReg (rg .pcieErraddr) (BitVec.ofNat 32 q.addr) ∧
    F.pcieErr_VALID.of w = 1 ∧ F.pcieErr_KIND.of w = kind ∧ F.pcieErr_LATE.of w = s.getF (rg .pcieErr) F.pcieErr_LATE

/-- Configuration space and MSI-X table as after reset; the function in D0. -/
def cfgCleared (s : State) : State :=
  let t := putPcie s fun p => { p with cfg := [], table := [], pba := 0, tlps := [] }
  if s.flag (rg .pcieLink) F.pcieLink_D3 = false then t
  else (t.setF (rg .pcieLink) F.pcieLink_D3 0).setF (rg .pcieLink) F.pcieLink_DCHG 1

/-- The PCI Express request of tag t is `q`, the only one with its tag. -/
abbrev awaitsHost (s : State) (t : Nat) (pre : List Req) (q : Req) (post : List Req) : Prop :=
  s.reqs = pre ++ q :: post ∧ q.tag = t ∧ q.pcie = true ∧ ∀ p ∈ pre ++ post, p.tag ≠ t

end Sys2Proof.Claims

/-- Configuration (R438, R439, R443 to R445, R449): Retry Status until the port is ready; a read answers its word, the identity
from the PCIE registers; a write changes its word alone, with Bus Master Enable, MSI-X control and the D-state; Hot Reset
and the loss of the data link reset configuration space and mask every vector; a change of the link sets STCHG. The model's
choices: the places in configuration words 1, 17 and 36 (log entry 17), every vector masked on reset (log entry 36), and the
readiness operand (log entry 65). -/
def Sys2Proof.Claims.PcieConfiguration : Prop :=
  let link := rg .pcieLink
  (∀ q, EventForm (.pcieConfigRequest q false) (fun s => s.pcie.ready = false ∧ s.ns < 20000000)
    fun s => answers s .retry) ∧
  (∀ (early : Bool) (s : State), s.calm = true → s.pcie.ready = true ∨ early = true ∨ 20000000 ≤ s.ns →
    let t := putPcie s fun p => { p with ready := true }
    (∀ k, Answers (.pcieConfigRequest (.read k) early) s (answers t (.data (s.cfgRead k).toNat))) ∧
    (∀ (k : Fin 1024) (be : BitVec 4) (v : Word),
      ∃ x, Answers (.pcieConfigRequest (.write k be v) early) s (answers x (.data 0)) ∧
        x = { t with regs := x.regs, pcie := { t.pcie with cfg := x.pcie.cfg } } ∧
        (∀ j, j ≠ k.val → x.cfgWord j = s.cfgWord j) ∧
        (k.val = 1 → be.getLsbD 0 = true → x.bme = v.getLsbD 2) ∧
        (k.val = 36 → be.getLsbD 3 = true → x.msixEn = v.getLsbD 31 ∧ x.fmask = v.getLsbD 30) ∧
        (k.val = 17 → be.getLsbD 0 = true →
          (v.toNat % 4 = 0 → x.flag link F.pcieLink_D3 = false) ∧ (v.toNat % 4 = 3 → x.flag link F.pcieLink_D3 = true)) ∧
        (k.val ≠ 17 → x.regs = s.regs))) ∧
  (∀ s : State, s.cfgRead 0 = BitVec.ofNat 32 (Config.vendorId.toNat + 65536 * 0x6541) ∧
    s.cfgRead 2 = BitVec.ofNat 32 (Config.siliconRev.toNat + 256 * 0x118000) ∧ s.cfgRead 11 = s.reg (rg .pcieSubsys)) ∧
  EventForm .hotReset (fun s => ∀ q ∈ s.reqs, q.pcie = false) cfgCleared ∧
  (∀ s : State, (cfgCleared s).bme = false ∧ (cfgCleared s).msixEn = false ∧ ∀ v : Fin 64, (cfgCleared s).msixMasked v = true) ∧
  (∀ (rate : Option (Fin 4)) (n : Fin 3) (up l1 : Bool) (s : State), s.calm = true → (∀ q ∈ s.reqs, q.pcie = false) →
    let speed := match rate with | some g => g.val + 1 | none => 0
    let width := if rate.isSome then 2 ^ n.val else 0
    let on : Bool := up && rate.isSome
    let w := setBits (setBits (setBits (setBits (s.reg link) 0 3 speed) 3 3 width) 6 1 (if on then 1 else 0)) 7 1
      (if l1 && rate.isSome then 1 else 0)
    let t := (s.setReg link w).setF link F.pcieLink_STCHG 1
    Answers (.pcieLinkStateChange rate n up l1) s
      (if w = s.reg link then s else if s.flag link F.pcieLink_UP && !on then cfgCleared t else t))

/-- Inbound requests (R7, R440 to R442, R445): a read of Landing or Cellar answers its bytes, a write stores them; BAR0 takes
single aligned words of registers, and words and doublewords of the MSI-X table and the pending bits; while memory requests are
not taken, outside a BAR and where no register is, Unsupported Request, which AER logs; a write above Max Payload Size is
malformed. The model's choices: the places of AER, Memory Space Enable, and the malformed write (log entry 17). -/
def Sys2Proof.Claims.PcieInboundRequests : Prop :=
  (∀ (bar : Fin 3) (off size : Nat) (s : State), s.calm = true →
    (¬ inD0 s → unsupportedBy (.pcieInboundRead bar off size) s) ∧
    (inD0 s → ∀ a, barBytes s bar off size a →
      Answers (.pcieInboundRead bar off size) s (answers s (.data (numLE (s.memBytes a size))))) ∧
    (inD0 s → bar = 1 → 0x40000 < off + size → unsupportedBy (.pcieInboundRead bar off size) s) ∧
    (inD0 s → bar = 0 → size = 4 → off < 0xD00000 → regAt off = none → unsupportedBy (.pcieInboundRead bar off size) s) ∧
    (∀ v, inD0 s → bar = 0 → size = 4 → off < 0xD00000 → s.regRead .host off = some (s, v) →
      Answers (.pcieInboundRead bar off size) s (answers s (.data v.toNat))) ∧
    (inD0 s → bar = 0 → off < 0xF00000 → size ≠ 4 ∨ 0xD00000 ≤ off → unsupportedBy (.pcieInboundRead bar off size) s) ∧
    (∀ k : Fin 256, inD0 s → bar = 0 → size = 4 → off = 0xF00000 + 4 * k.val →
      Answers (.pcieInboundRead bar off size) s (answers s (.data (sparseGet msixDefault s.pcie.table k).toNat))) ∧
    (∀ k : Fin 128, inD0 s → bar = 0 → size = 8 → off = 0xF00000 + 8 * k.val →
      Answers (.pcieInboundRead bar off size) s (answers s (.data ((sparseGet msixDefault s.pcie.table (2 * k)).toNat +
        2 ^ 32 * (sparseGet msixDefault s.pcie.table (2 * k + 1)).toNat)))) ∧
    (∀ k : Fin 2, inD0 s → bar = 0 → size = 4 → off = 0xF01000 + 4 * k.val →
      Answers (.pcieInboundRead bar off size) s (answers s (.data (s.pcie.pba.toNat / 2 ^ (32 * k.val) % 2 ^ 32)))) ∧
    (inD0 s → bar = 0 → size = 8 → off = 0xF01000 →
      Answers (.pcieInboundRead bar off size) s (answers s (.data s.pcie.pba.toNat)))) ∧
  (∀ (bar : Fin 3) (off : Nat) (l : List Byte) (hit : List (BitVec 16)) (s : State), s.calm = true →
    (¬ inD0 s → unsupportedBy (.pcieInboundWrite bar off l hit) s) ∧
    (inD0 s → s.maxPayload < l.length → ∃ x, errorLogged s 18 x ∧ Answers (.pcieInboundWrite bar off l hit) s x) ∧
    (inD0 s → l.length ≤ s.maxPayload →
      (∀ a, barBytes s bar off l.length a →
        (s.lockout = false → hit = [] → Answers (.pcieInboundWrite bar off l hit) s (s.setMemBytes a l)) ∧
        (s.lockout = true → Answers (.pcieInboundWrite bar off l hit) s s.lockoutDrop)) ∧
      (bar = 0 → l.length = 4 → off < 0xD00000 → regAt off = none → unsupportedBy (.pcieInboundWrite bar off l hit) s) ∧
      (bar = 0 → off < 0xF00000 → l.length ≠ 4 ∨ 0xD00000 ≤ off → unsupportedBy (.pcieInboundWrite bar off l hit) s) ∧
      (∀ x, bar = 0 → l.length = 4 → off < 0xD00000 → s.regHolds .host off = false →
        s.regWrite .host off (BitVec.ofNat 32 (numLE l)) = some x → x.quiet = true →
        Answers (.pcieInboundWrite bar off l hit) s x) ∧
      (∀ k : Fin 256, bar = 0 → l.length = 4 → off = 0xF00000 + 4 * k.val →
        Answers (.pcieInboundWrite bar off l hit) s
          (putPcie s fun p => { p with table := sparseSet msixDefault p.table k (BitVec.ofNat 32 (numLE l)) })) ∧
      (∀ k : Fin 128, bar = 0 → l.length = 8 → off = 0xF00000 + 8 * k.val →
        Answers (.pcieInboundWrite bar off l hit) s (putPcie s fun p => { p with
          table := sparseSet msixDefault (sparseSet msixDefault p.table (2 * k) (BitVec.ofNat 32 (numLE l))) (2 * k + 1)
            (BitVec.ofNat 32 (numLE l / 2 ^ 32)) })) ∧
      (bar = 0 → l.length = 4 ∨ l.length = 8 → off = 0xF01000 → Answers (.pcieInboundWrite bar off l hit) s s)))

/-- Outbound requests end (R254, R255, R443): a completion ends a load with its data; one in error, and a timeout, are captured
and end a DMA chain; a completion too late is counted; AER logs a poisoned one, a timeout and a late one. -/
def Sys2Proof.Claims.PcieOutboundRequestsEnd : Prop :=
  ∀ (tag : BitVec 12) (pre post : List Req) (q : Req) (s : State), s.calm = true →
    let u : State := { s with reqs := pre ++ post }
    (awaitsHost s tag.toNat pre q post →
      (∀ (h : Fin 4) (data : List Byte) (l : PendingLoad), q.who = .load h → (s.seq h).load = some l → l.size = 4 →
        l.fp = false → l.upd = none → l.rep = false →
        Answers (.pcieCompletion tag .ok data) s (u.modSeq h fun x => { x with
          load := none, g := x.g.set l.d (BitVec.ofNat 32 (numLE data)), pc := l.next, atomRep := false
          flg := if l.te then setBits x.flg 10 1 1 else x.flg })) ∧
      (∀ (c : Fin 48) (data : List Byte), q.who = .dma c → q.dead = false →
        s.flag (rg .pcieErr) F.pcieErr_VALID = false →
        (∀ st, st = .unsupported ∨ st = .abort →
          ∃ x, outboundShown u q 0 x ∧ Answers (.pcieCompletion tag st data) s (x.dmaFail c 6)) ∧
        (∃ y x, errorLogged u 12 y ∧ outboundShown y q 0 x ∧ Answers (.pcieCompletion tag .poisoned data) s (x.dmaFail c 6)) ∧
        (∀ d, q.due = some d → d < s.ns →
          ∃ y x, errorLogged (putLink u fun l => { l with lateTags := l.lateTags ++ [(q.tag, c)] }) 14 y ∧
            outboundShown y q 1 x ∧ Answers (.pcieOutboundTimeout tag) s (x.dmaFail c 7)))) ∧
    (∀ (st : CplStatus) (data : List Byte), (∀ q ∈ s.reqs, q.tag ≠ tag.toNat) → (∀ e ∈ s.link.lateTags, e.1 ≠ tag.toNat) →
      ∃ y, errorLogged s 16 y ∧ Answers (.pcieCompletion tag st data) s
        (y.setF (rg .pcieErr) F.pcieErr_LATE (Nat.min 255 (s.getF (rg .pcieErr) F.pcieErr_LATE + 1))))

/-- Inbound requests, and outbound requests that end. -/
def Obligations.PcieRequestsAreServed : Prop :=
  PcieInboundRequests ∧ PcieOutboundRequestsEnd

/-- Doorbells, the boot handshake and attestation for the host (R447, R449, R510): HDB_SET sets bells, TAKE clears GO, GO of
PCIE_ATTCTL queues a quote unless one runs. -/
def Sys2Proof.Claims.HostMailboxes : Prop :=
  WriteForm .hdbSet (rg .pcieHdbSet) (fun _ _ _ => True)
    (fun _ v s => s.setReg (rg .pcieHdb) (s.reg (rg .pcieHdb) ||| (v &&& 0xFF))) ∧
  WriteForm .take (rg .pcieBoot) (fun _ v _ => F.pcieBoot_TAKE.of v = 1) (fun _ _ s => s.setF (rg .pcieBoot) F.pcieBoot_GO 0) ∧
  WriteForm .pcieAttctlGo (rg .pcieAttctl)
    (fun _ v s => F.pcieAttctl_GO.of v = 1 ∧ s.flag (rg .pcieAttctl) F.pcieAttctl_BUSY = false)
    (fun _ v s => { (s.writeDefault (rg .pcieAttctl) v).setF (rg .pcieAttctl) F.pcieAttctl_BUSY 1 with
      assay := { s.assay with sigQ := s.assay.sigQ ++ [.host] } }) ∧
  WriteForm .pcieAttctlGo (rg .pcieAttctl)
    (fun _ v s => F.pcieAttctl_GO.of v = 1 ∧ s.flag (rg .pcieAttctl) F.pcieAttctl_BUSY = true)
    (fun _ v s => s.writeDefault (rg .pcieAttctl) v)

/-- PCI Express configuration and the host mailboxes. -/
def Obligations.PcieConfigurationAndMailboxes : Prop :=
  PcieConfiguration ∧ HostMailboxes

/-! ### Doorbells and the Lodge (R450 to R476, R479) -/

namespace Sys2Proof.Claims

/-- The state with its Lodge replaced. -/
def putLodge (s : State) (f : Lodge → Lodge) : State := { s with lodge := f s.lodge }

/-- Actions in force for cause c (R460, R462): LODGE_ACT[c], without DIST for cause 5. -/
def actionsOf (s : State) (c : Nat) : Nat :=
  let a := s.getF (rg .lodgeAct c) F.lodgeAct_ACT
  if c = 5 then a - (a &&& 2) else a

/-- The fault record of cause c with actions a, as the state holds its fields at acceptance (R465, log entry 48). -/
def recordOf (s : State) (c a : Nat) : FaultRec where
  cause := c
  acts := a
  count := s.count
  bootcnt := s.reg (rg .lodgeBootcnt)
  seqState := ((List.finRange 4).map fun h => 4 ^ h.val * (match (s.seq h).run with
    | .held => 0 | .running => 1 | .waiting => 2 | .halted => 3)).sum
  devid := s.ownId.toNat + if s.idv then 1024 else 0
  temp := (sext 10 (s.getF (rg .lodgeTherm) F.lodgeTherm_TEMP) % 65536).toNat
  user := s.reg (rg .lodgeUser)

/-- A slot is set and not full (R464, R541). -/
abbrev slotOpen (s : State) : Prop :=
  s.getF (rg .lodgeFslot) F.lodgeFslot_BASE ≠ 0 ∧ s.flag (rg .lodgeFslot) F.lodgeFslot_FULL = false

/-- A record of the state is queued, not lost (R461, R464, R541): the queue holds at most 4, and with none before it a slot
must be open. -/
abbrev takesRecord (s : State) : Prop := s.lodge.recQ.length < 4 ∧ (s.lodge.recQ = [] → slotOpen s)

/-- `x` is `t` after cause c was accepted (R460 to R462, R464, R470): CAUSE, ACTED and HOLDF, the safe state with LEN clear, no
pulse and every output inactive, DISTRESS on every UP or JOINED port, FAULT_N, a queued record, for which a flash
transaction is cut, or a lost one, and a warm reset to come, once the record, if there is one, is written. -/
def LodgeActed (t x : State) (c : Nat) : Prop :=
  let a := actionsOf t c
  let st := rg .lodgeStat
  let fresh := a.testBit 0 && !t.flag st F.lodgeStat_SAFE
  x.getF st F.lodgeStat_CAUSE = c ∧ x.flag st F.lodgeStat_ACTED = true ∧ (c = 2 → x.flag st F.lodgeStat_HOLDF = true) ∧
    x.flag st F.lodgeStat_SAFE = (a.testBit 0 || t.flag st F.lodgeStat_SAFE) ∧
    x.flag (rg .mantelCtl) F.mantelCtl_LEN = (t.flag (rg .mantelCtl) F.mantelCtl_LEN && !fresh) ∧
    x.mantel.pulses = (if fresh then [] else t.mantel.pulses) ∧
    x.flag st F.lodgeStat_FAULTN = (a.testBit 2 || t.flag st F.lodgeStat_FAULTN) ∧
    x.lodge.wrst = (if a.testBit 4 = true ∧ ¬ (a.testBit 3 = true ∧ takesRecord t) ∧ t.lodge.wrst = none then some c
      else t.lodge.wrst) ∧
    x.lodge.recQ = (if a.testBit 3 = true ∧ takesRecord t then t.lodge.recQ ++ [recordOf t c a] else t.lodge.recQ) ∧
    x.getF st F.lodgeStat_LOST = (if a.testBit 3 = true ∧ ¬ takesRecord t then
      Nat.min 255 (t.getF st F.lodgeStat_LOST + 1) else t.getF st F.lodgeStat_LOST) ∧
    (∀ k : Fin 6, x.link.ports[k] = if a.testBit 1 && t.linked k then
      { t.link.ports[k] with evtq := t.link.ports[k].evtq ++ [evWord t.ownId.toNat 0 1 c t.count.toNat] } else t.link.ports[k]) ∧
    (∀ k : Fin 16, (fresh = true → x.flag (rg .outCtl k) F.outCtl_LEVEL = false) ∧
      (fresh = false → x.reg (rg .outCtl k) = t.reg (rg .outCtl k))) ∧
    (let cut := a.testBit 3 = true ∧ takesRecord t ∧ t.lodge.recQ = [] ∧ t.flag (rg .asBspiStat) F.asBspiStat_BUSY = true
     (¬ cut → x.reg (rg .asBspiStat) = t.reg (rg .asBspiStat)) ∧
     (cut → x.flag (rg .asBspiStat) F.asBspiStat_BUSY = false ∧ x.flag (rg .asBspiStat) F.asBspiStat_DONE = true ∧
       x.getF (rg .asBspiStat) F.asBspiStat_ERR = 1)) ∧
    (∀ y, regAt y.off = some y → y ≠ st → y ≠ rg .mantelCtl → y.fam ≠ .outCtl → y ≠ rg .asBspiStat → x.reg y = t.reg y) ∧
    x = { t with regs := x.regs, lodge := { t.lodge with recQ := x.lodge.recQ, wrst := x.lodge.wrst }
                 mantel := { t.mantel with pulses := x.mantel.pulses }, link := { t.link with ports := x.link.ports } }

/-- What LodgeActed needs of a state: pulses of outputs that exist, and room for a DISTRESS EVENT at every port. -/
abbrev lodgeRoom (s : State) : Prop :=
  (∀ p ∈ s.mantel.pulses, p.1 < 16) ∧ ∀ k : Fin 6, (s.link.ports[k]).evtq.length < 8

/-- `c` happens: the state becomes `f s` and the Lodge accepts cause n. -/
def CauseForm (c : Instr) (n : Nat) (p : State → Prop) (f : State → State) : Prop :=
  ∀ s : State, s.calm = true → lodgeRoom s → p s → ∃ x, Answers c s x ∧ LodgeActed (f s) x n

/-- The cause whose WRST becomes due with the records `l` gone: the one that is due already, else the first of them that
asks for it (R462). -/
def resetDue (l : List FaultRec) (w : Option Nat) : Option Nat :=
  (w :: l.map fun q => if q.acts.testBit 4 then some q.cause else none).findSome? id

/-- `x` is `t` with the records `l` lost, the last ones queued (R461, R462, R464, R474): they are counted in LOST, and RECBUSY
is 0. -/
def recordsLost (l : List FaultRec) (t x : State) : Prop :=
  let st := rg .lodgeStat
  x = { t with regs := x.regs, lodge := { t.lodge with recQ := [], wrst := resetDue l t.lodge.wrst } } ∧
    x.reg st = ((t.setF st F.lodgeStat_LOST (Nat.min 255 (t.getF st F.lodgeStat_LOST + l.length))).setF st
      F.lodgeStat_RECBUSY 0).reg st ∧
    ∀ y, regAt y.off = some y → y ≠ st → x.reg y = t.reg y

/-- Is the junction temperature word `w` at or above `limit` degrees (R470)? -/
abbrev hot (w : Word) (limit : Nat) : Prop := (4 * limit : Int) ≤ sext 10 (F.lodgeTherm_TEMP.of w)

/-- LODGE_THERM with the temperature t; TWARN where the warning threshold is newly reached. -/
def warmedTo (s : State) (t : BitVec 10) : State :=
  let old := s.reg (rg .lodgeTherm)
  let new := setBits old 0 10 t.toNat
  let warn := F.lodgeTherm_WARN.of old
  let s := s.setReg (rg .lodgeTherm) new
  if (4 * warn : Int) ≤ sext 10 t.toNat ∧ sext 10 (F.lodgeTherm_TEMP.of old) < (4 * warn : Int) then
    s.setF (rg .lodgeStat) F.lodgeStat_TWARN 1 else s

/-- The source is offered to sequencer h at level l and may be claimed (R452, R453). -/
abbrev offered (s : State) (h : Fin 4) (src l : Nat) : Prop :=
  src < 768 ∧ s.flag (rg .dbSrc src) F.dbSrc_SEN = true ∧ s.getF (rg .dbSrc src) F.dbSrc_SEQ = h.val ∧
    s.getF (rg .dbSrc src) F.dbSrc_LEVEL = l ∧ s.asserted src = true ∧ ∀ g, (src, g) ∉ s.service

end Sys2Proof.Claims

/-- CLAIM and COMPLETE (R453 to R455): a sequencer's claim takes the offered source of the highest level, the lowest number
among equals, and puts it in service, whatever DONE of a DMA channel still asserts (R451; that a happening no status bit
records is over with its claim is log entry 23); with none offered, or by another requester, it reads 0; a complete of a
source in service ends it, any other is captured in DB_ERR. -/
def Obligations.SourcesAreClaimedAndCompleted : Prop :=
  (∀ (h : Fin 4) (s : State), s.calm = true →
    (∀ src l, offered s h src l → (∀ src' l', offered s h src' l' → l' < l ∨ (l' = l ∧ src ≤ src')) →
      Answers (.claim (.seq h) h) s { s with
        latched := if 576 ≤ src ∧ src < 624 ∧ s.flag (rg .dmaStat (src - 576)) F.dmaStat_DONE = true then s.latched
          else s.latched.filter (· ≠ src)
        service := s.service ++ [(src, h)]
        answer := some (.data (src + 1024 * l + 2 ^ 31)) }) ∧
    ((∀ src l, ¬ offered s h src l) → Answers (.claim (.seq h) h) s { s with answer := some (.data 0) })) ∧
  (∀ (r : Requester) (h : Fin 4) (s : State), s.calm = true → s.reaches r = true → r ≠ .seq h →
    Answers (.claim r h) s { s with answer := some (.data 0) }) ∧
  (∀ h : Fin 4,
    (∀ pre post, WriteForm (fun r v => .complete r h v) (rg .dbComplete h)
      (fun r v s => r = .seq h ∧ s.service = pre ++ (F.dbComplete_SRC.of v, h) :: post ∧ (F.dbComplete_SRC.of v, h) ∉ pre)
      (fun _ _ s => { s with service := pre ++ post })) ∧
    WriteForm (fun r v => .complete r h v) (rg .dbComplete h)
      (fun r v s => r = .seq h ∧ (F.dbComplete_SRC.of v, h) ∉ s.service ∧ s.flag (rg .dbErr) F.dbErr_VALID = true)
      (fun _ _ s => s.setF (rg .dbErr) F.dbErr_MULTI 1) ∧
    (∀ (r : Requester) (v : Word) (s : State), s.takes r (rg .dbComplete h) v = true → r = .seq h →
      (F.dbComplete_SRC.of v, h) ∉ s.service → s.flag (rg .dbErr) F.dbErr_VALID = false →
      ∃ w, Answers (.complete r h v) s (s.setReg (rg .dbErr) w) ∧ F.dbErr_SRC.of w = F.dbComplete_SRC.of v ∧
        F.dbErr_SEQ.of w = h.val ∧ F.dbErr_VALID.of w = 1))

/-- Lodge causes (R419, R460 to R462, R467, R470, R479): a command's, a DISTRESS EVENT's, forwarded first where it came by a
tree port, HOLDUP_N's, a loss of lock, an over-temperature and an expired watchdog each have the actions of their cause. The
model's choices: in the safe state every output is inactive (log entry 104), and a record's fields are those at acceptance (log
entry 48). -/
def Obligations.LodgeCausesAct : Prop :=
  (∀ (r : Requester) (v : Word), CauseForm (.lodgeCmd r v) 1
    (fun s => s.takes r (rg .lodgeCmd) v = true ∧ (fromSeq r = true ∨ r = .host))
    fun s => s.setF (rg .lodgeAct 1) F.lodgeAct_ACT (F.lodgeCmd_ACT.of v)) ∧
  (∀ (k : Fin 6) (w : BitVec 64), CauseForm (.distress (slotOf k w)) 5
    (fun s => s.linked k = true ∧ kindOf w = 1 ∧ s.treePort k = false ∧ s.flag (rg .linkEvstat) F.linkEvstat_EN = false)
    fun s => s) ∧
  (∀ (k : Fin 6) (w : BitVec 64), CauseForm (.distress (slotOf k w)) 5
    (fun s => s.linked k = true ∧ kindOf w = 1 ∧ s.treePort k = true ∧ roomAtOthers s k ∧
      s.flag (rg .linkEvstat) F.linkEvstat_EN = false)
    fun s => forwarded s k w) ∧
  CauseForm .powerFailing 2 (fun s => s.flag (rg .lodgeStat) F.lodgeStat_HOLDUP = false)
    (fun s => s.setF (rg .lodgeStat) F.lodgeStat_HOLDUP 1) ∧
  EventForm .powerFailing (fun s => s.flag (rg .lodgeStat) F.lodgeStat_HOLDUP = true) (fun s => s) ∧
  CauseForm .hearthPllLost 3 (fun s => s.hlock = true)
    (fun s =>
      let x := rg .sysClkstat
      ({ s with hlock := false }.setF x F.sysClkstat_LOSSCNT (Nat.min 255 (s.getF x F.sysClkstat_LOSSCNT + 1))).setF
        (rg .lodgeStat) F.lodgeStat_CARRY 1) ∧
  (∀ t : BitVec 10, CauseForm (.thermalTrip t) 4
    (fun s => ¬ hot (s.reg (rg .lodgeTherm)) (s.getF (rg .lodgeTherm) F.lodgeTherm_TRIP) ∧
      (4 * s.getF (rg .lodgeTherm) F.lodgeTherm_TRIP : Int) ≤ sext 10 t.toNat)
    fun s => (warmedTo s t).setF (rg .lodgeStat) F.lodgeStat_TTRIP 1) ∧
  (∀ h : Fin 4, CauseForm (.watchdogExpire h) (8 + h.val)
    (fun s => s.flag (rg .wdCfg h) F.wdCfg_EN = true ∧
      s.getF (rg .wdCfg h) F.wdCfg_EXPIRE ≤ s.getF (rg .wdStat h) F.wdStat_C)
    fun s => (s.setF (rg .wdStat h) F.wdStat_EXP 1).setF (rg .wdCfg h) F.wdCfg_EN 0)

/-- What ends or only notes a condition (R463, R464, R467, R468, R470, R474, R479): HOLDUP_N high, lock again, a warning, the
release of the safe state and of FAULT_N, fault records with their SPI transactions, and watchdog kicks and warnings. -/
def Obligations.LodgeRecordsAndReleases : Prop :=
  let st := rg .lodgeStat
  let fs := rg .lodgeFslot
  EventForm .holdupNHigh (fun s => s.flag st F.lodgeStat_HOLDUP = true) (fun s => s.setF st F.lodgeStat_HOLDUP 0) ∧
  EventForm .hearthPllRelock (fun _ => True) (fun s => { s.setF st F.lodgeStat_CARRY 0 with hlock := true }) ∧
  (∀ t : BitVec 10, EventForm (.thermalWarn t)
    (fun s => sext 10 t.toNat < (4 * s.getF (rg .lodgeTherm) F.lodgeTherm_TRIP : Int)) fun s => warmedTo s t) ∧
  WriteForm .release st
    (fun r v s => fromSeq r = true ∧ F.lodgeStat_RELEASE.of v = 1 ∧ F.lodgeStat_FREL.of v = 0 ∧ s.hlock = true ∧
      s.flag st F.lodgeStat_HOLDUP = false ∧
      ¬ hot (s.reg (rg .lodgeTherm)) (s.getF (rg .lodgeTherm) F.lodgeTherm_TRIP))
    (fun _ v s => (s.writeDefault st v).setF st F.lodgeStat_SAFE 0) ∧
  WriteForm .release st
    (fun r v s => fromSeq r = true ∧ F.lodgeStat_RELEASE.of v = 1 ∧ F.lodgeStat_FREL.of v = 0 ∧
      (s.hlock = false ∨ s.flag st F.lodgeStat_HOLDUP = true ∨
        hot (s.reg (rg .lodgeTherm)) (s.getF (rg .lodgeTherm) F.lodgeTherm_TRIP)))
    (fun _ v s => s.writeDefault st v) ∧
  WriteForm .frel st (fun r v _ => fromSeq r = true ∧ F.lodgeStat_RELEASE.of v = 0 ∧ F.lodgeStat_FREL.of v = 1)
    (fun _ v s => (s.writeDefault st v).setF st F.lodgeStat_FAULTN 0) ∧
  (∀ (q : FaultRec) (rest : List FaultRec),
    let body (s : State) (wip : Bool) (susp prog : Nat) : List SpiTx :=
      let cmd (f : Field) : SpiTx := { op := s.getF (rg .lodgeQspi) f }
      let poll (n : Nat) : List SpiTx := List.replicate n { op := 0x05, recv := 1 }
      let a := 4096 * s.getF fs F.lodgeFslot_BASE + 64 * s.getF fs F.lodgeFslot_NEXT
      poll 1 ++ (if wip then cmd F.lodgeQspi_SUSP :: poll (Nat.min 78 (susp + 1)) else []) ++
        [cmd F.lodgeQspi_WREN,
          { cmd F.lodgeQspi_PP with
            addr := (bytesLE (if s.flag (rg .lodgeCtl) F.lodgeCtl_ADDR4 then 4 else 3) a).reverse, data := s.recBytes q }] ++
        poll (prog + 1) ++ (if wip then [cmd F.lodgeQspi_RESM] else [])
    ∀ s : State, s.calm = true → s.lodge.recQ = q :: rest →
      (¬ slotOpen s → ∃ x, Answers .faultRecord s x ∧ recordsLost (q :: rest) s x) ∧
      (slotOpen s → ∃ (wip : Bool) (susp prog : Nat),
        let written : State := { putLodge s fun d => { d with spi := body s wip susp prog, wrst := resetDue [q] d.wrst } with
          free := s.free + 1 }
        (s.getF fs F.lodgeFslot_NEXT < 63 → Answers .faultRecord s
          (((putLodge written fun l => { l with recQ := rest }).setF fs F.lodgeFslot_NEXT
            (s.getF fs F.lodgeFslot_NEXT + 1)).setF st F.lodgeStat_RECBUSY (if rest = [] then 0 else 1))) ∧
        (s.getF fs F.lodgeFslot_NEXT = 63 →
          ∃ x, Answers .faultRecord s x ∧ recordsLost rest (written.setF fs F.lodgeFslot_FULL 1) x))) ∧
  (∀ q : FaultRec,
    (∀ s : State, (s.recBytes q).length = 64 ∧ (s.recBytes q).take 4 = [0x50, 0x46, 0x46, 0x52] ∧
      (s.recBytes q).drop 60 = bytesLE 4 (crc32c ((s.recBytes q).take 60)).toNat)) ∧
  (∀ h : Fin 4,
    let x := rg .wdStat h
    WriteForm (fun r v => .watchdogKick r h v) (rg .wdKick h) (fun r v _ => r = .seq h ∧ F.wdKick_KEY.of v = 0x5A5A)
      (fun _ _ s => putLodge (s.setF x F.wdStat_C 0) fun l => { l with warned := l.warned.set h false }) ∧
    WriteForm (fun r v => .watchdogKick r h v) (rg .wdKick h) (fun r v _ => r ≠ .seq h ∨ F.wdKick_KEY.of v ≠ 0x5A5A)
      (fun _ _ s => s.setF x F.wdStat_BADKICK (Nat.min 255 (s.getF x F.wdStat_BADKICK + 1))) ∧
    EventForm (.watchdogWarn h)
      (fun s => s.flag (rg .wdCfg h) F.wdCfg_EN = true ∧ s.getF (rg .wdCfg h) F.wdCfg_WARN ≠ 0 ∧
        s.getF x F.wdStat_C = s.getF (rg .wdCfg h) F.wdCfg_WARN ∧ s.lodge.warned[h] = false)
      (fun s => (putLodge s fun l => { l with warned := l.warned.set h true }).modSeq h fun q => { q with wdPend := true }))

/-! ### Clocks, power, resets, boot, the Assay and the pins (R480 to R526, R546 to R552) -/

namespace Sys2Proof.Claims

/-- The state with its power state, its Assay replaced. -/
def putPower (s : State) (f : Power → Power) : State := { s with power := f s.power }
def putAssay (s : State) (f : Assay → Assay) : State := { s with assay := f s.assay }

/-- No sequencer has a routine, a lane store or a capture under way. -/
abbrev seqsRest (s : State) : Prop :=
  ∀ h : Fin 4, (s.seq h).routine = none ∧ (s.seq h).jobs = [] ∧ (s.seq h).caps = []

/-- Every sequencer is held with its registers at their reset values and its Study as it was (R125, R493). -/
def seqsReset (s x : State) : Prop :=
  ∀ h : Fin 4, x.seq h = { Seq.reset h with run := .held, study := (s.seq h).study, studyBad := (s.seq h).studyBad }

/-- The presence bits of the heads (R529) and the supply levels of the banks (R552) stand. -/
def pinsFollowed (s x : State) : Prop :=
  x.getF (rg .sensorHpres) F.sensorHpres_PRES = s.getF (rg .sensorHpres) F.sensorHpres_PRES ∧
    ∀ b : Fin 12, x.getF (rg .bankStat b) F.bankStat_VLVL = s.getF (rg .bankStat b) F.bankStat_VLVL

/-- VIO1, the supply of bank 0, is at its valid level (R546, R552). -/
abbrev vio1Good (s : State) : Prop :=
  s.getF (rg .bankStat 0) F.bankStat_VLVL = 1 ∨ s.getF (rg .bankStat 0) F.bankStat_VLVL = 2

/-- What a warm reset leaves (R493): sequencers at reset, no request outstanding, no channel, no inlet or outlet work, every
pin without a holder, no source in service, watchdogs off, no Lodge reset due, of the Assay only remote requests; OTP, the
fault queue, SAFELOCK, what follows the pins, time and the count stay. -/
def warmed (s x : State) : Prop :=
  seqsReset s x ∧ x.reqs = [] ∧ x.dma = Vector.replicate 48 {} ∧ x.inlet = Vector.replicate 8 {} ∧ x.outJobs = [] ∧
    x.chans = Vector.replicate 512 {} ∧ x.service = [] ∧ x.latched = [] ∧ x.replies = [] ∧ x.verQ = [] ∧
    x.assay = { sigQ := s.assay.sigQ.filter fun j => match j with | .remote .. => true | _ => false
                snap := match s.assay.sigQ with | .remote .. :: _ => s.assay.snap | _ => none } ∧
    x.getF (rg .pinsCtl) F.pinsCtl_SAFELOCK = s.getF (rg .pinsCtl) F.pinsCtl_SAFELOCK ∧ pinsFollowed s x ∧
    (∀ i : Fin 384, x.reg (rg .gpOwn i) = (rg .gpOwn i).reset) ∧ (∀ n : Fin 512, x.reg (rg .chCtl n) = (rg .chCtl n).reset) ∧
    (∀ h : Fin 4, x.flag (rg .wdCfg h) F.wdCfg_EN = false) ∧ (∀ k : Fin 128, x.reg (rg .asOtp k) = s.reg (rg .asOtp k)) ∧
    (∀ i : Fin 256, x.mantel.armed[i] = none) ∧ x.flag (rg .mantelCtl) F.mantelCtl_LEN = false ∧
    x.lodge.recQ = s.lodge.recQ ∧ x.lodge.wrst = none ∧ x.ns = s.ns ∧ x.count = s.count

/-- What a warm reset keeps beside (R31, R303, R493): the bytes of Landing and Cellar with their faulty words, the state of every
bank, the planes and the wings' power, and the program memories of the porch. -/
def contentsKept (s x : State) : Prop :=
  x.mem = s.mem ∧ x.cellar.bad = s.cellar.bad ∧ x.cellar.weak = s.cellar.weak ∧ x.cellar.bank = s.cellar.bank ∧
    (∀ b, b < 32 → x.bank b = s.bank b) ∧ (∀ u p, x.plane u p = s.plane u p) ∧ x.reg (rg .sysWpwr) = s.reg (rg .sysWpwr) ∧
    ∀ (e : Fin 64) (i : Fin 256), x.reg (rg .peProg e i) = s.reg (rg .peProg e i)

/-- The boot strap sampled, the boot ROM at its start (R499, R503). -/
def strapped (s : State) (sel : BitVec 3) : State :=
  let x := rg .asBootStat
  putAssay (((s.setF (rg .sysRstcause) F.sysRstcause_BOOTSEL sel.toNat).setF x F.asBootStat_BOOTSEL sel.toNat).setF x
    F.asBootStat_STRAPERR (if 4 ≤ sel.toNat then 1 else 0)) fun a => { a with boot := { stage := .start } }

/-- The boot ROM at a stage, its registers as `f` leaves BOOT_STAT. -/
def bootAt (s : State) (st : BootStage) : State := putAssay s fun a => { a with boot := { a.boot with stage := st } }
def bootF (s : State) (f : Field) (v : Nat) : State := s.setF (rg .asBootStat) f v

/-- An OTP operation ends with `err`. -/
def otpEnds (s : State) (err : Nat) : State :=
  let x := rg .asOtpStat
  ((s.setF x F.asOtpStat_BUSY 0).setF x F.asOtpStat_DONE 1).setF x F.asOtpStat_ERR err

/-- GO of an OTP operation `op`. -/
def OtpStarts (c : Requester → Word → Instr) (op : Nat) : Prop :=
  WriteForm c (rg .asOtpCtl)
    (fun _ v s => F.asOtpCtl_OP.of v = op ∧ F.asOtpCtl_GO.of v = 1 ∧ s.flag (rg .asOtpStat) F.asOtpStat_BUSY = false)
    (fun _ v s => putAssay ((s.writeDefault (rg .asOtpCtl) v).setF (rg .asOtpStat) F.asOtpStat_BUSY 1) fun a =>
      { a with otp := some (op, F.asOtpCtl_VALUE.of v, s.reg (rg .asOtpData)) }) ∧
  WriteForm c (rg .asOtpCtl)
    (fun _ v s => F.asOtpCtl_OP.of v = op ∧ F.asOtpCtl_GO.of v = 1 ∧ s.flag (rg .asOtpStat) F.asOtpStat_BUSY = true)
    (fun _ v s => s.writeDefault (rg .asOtpCtl) v)

/-- A transaction of the flash port ends with `err`. -/
def flashEnds (s : State) (err : Nat) : State :=
  let x := rg .asBspiStat
  ((s.setF x F.asBspiStat_BUSY 0).setF x F.asBspiStat_DONE 1).setF x F.asBspiStat_ERR err

/-- Pin i gets a holder; its porch drive is at level 0, undriven. -/
def heldBy (s : State) (i : Fin 384) (w : Word) : State :=
  { s with gp := { out := s.gp.out &&& ~~~(1#384 <<< i.val), dir := s.gp.dir &&& ~~~(1#384 <<< i.val)
                   side := s.gp.side &&& ~~~(1#384 <<< i.val) } }.setReg (rg .gpOwn i) w

end Sys2Proof.Claims

/-- IDLE, DEEP, spread and wing power (R480, R482 to R488): IDLE is entered when its conditions hold; DEEP holds the
sequencers, disarms, turns ON banks and every wing OFF, returns the Annex regions to UNCONF and invalidates the control stores; a
wake from it is a warm reset; a wing of the writer turns OFF with its planes lost, or ON to be cleared; another's is refused. The
model's choice: WCAUSE tells of WHDB whatever other cause holds (log entry 64). -/
def Obligations.PowerStatesChange : Prop :=
  let pc := rg .sysPwrctl
  let ps := rg .sysPwrstat
  EventForm .sscApply (fun _ => True)
    (fun s => (putPower s fun p => { p with ssc := s.reg (rg .sysSsc) }).setF (rg .sysClkstat) F.sysClkstat_SSCACT
      (if s.flag (rg .sysSsc) F.sysSsc_EN ∧ s.getF (rg .sysSsc) F.sysSsc_DEPTH ≠ 0 then 1 else 0)) ∧
  WriteForm .idleRequest pc
    (fun r v s => fromSeq r = true ∧ F.sysPwrctl_REQ.of v = 1 ∧ s.getF ps F.sysPwrstat_STATE = 0)
    (fun _ v s => (s.writeDefault pc v).setF ps F.sysPwrstat_PENDING 1) ∧
  WriteForm .idleRequest pc
    (fun r v s => fromSeq r = true ∧ F.sysPwrctl_REQ.of v = 0 ∧ s.getF ps F.sysPwrstat_STATE = 1)
    (fun _ v s => ((s.writeDefault pc v).setF ps F.sysPwrstat_PENDING 0).setF ps F.sysPwrstat_STATE 0) ∧
  CoreForm .idleEnter
    (fun s => s.flag ps F.sysPwrstat_PENDING = true ∧ seqsRest s ∧ (∀ h : Fin 4, (s.seq h).susp = []) ∧
      (∀ w, w < 8 → s.wingClearing w = false) ∧ (∀ w : Fin 8, (s.inl w).writer = []) ∧ s.outJobs = [] ∧
      s.flag (rg .linkSeamStat) F.linkSeamStat_BUSY = false)
    (fun s => (s.setF ps F.sysPwrstat_PENDING 0).setF ps F.sysPwrstat_STATE 1) ∧
  (∀ (r : Requester) (v : Word) (s : State), s.takes r pc v = true → fromSeq r = true → F.sysPwrctl_REQ.of v = 2 →
    seqsRest s → s.annex.wins = [] → ∃ x, Answers (.deepEnter r v) s x ∧
      x.getF ps F.sysPwrstat_STATE = 2 ∧ x.flag ps F.sysPwrstat_PENDING = false ∧
      (∀ h : Fin 4, (x.seq h).run = .held ∧ (x.seq h).csDigest = none ∧ (x.seq h).study = (s.seq h).study) ∧
      (∀ i : Fin 256, x.mantel.armed[i] = none) ∧ x.flag (rg .mantelCtl) F.mantelCtl_LEN = false ∧
      (∀ b : Fin 32, s.cellar.bank[b] = .on → x.cellar.bank[b] = .off) ∧
      (∀ b : Fin 32, s.cellar.bank[b] = .retain → x.cellar.bank[b] = .retain) ∧
      (∀ u p, u < 10 → p < 4096 → x.plane u p = 0) ∧ x.reg (rg .sysWpwr) = s.reg (rg .sysWpwr) ∧
      (∀ i : Fin 32, x.regionState i = 0) ∧ x.ns = s.ns ∧ x.count = s.count) ∧
  (∀ s : State, s.calm = true → s.getF ps F.sysPwrstat_STATE = 2 → seqsRest s → s.flag pc F.sysPwrctl_WHDB = true →
    s.reg (rg .pcieHdb) ≠ 0 →
    ∃ x, Answers .deepWake s x ∧ warmed s x ∧ x.getF ps F.sysPwrstat_STATE = 0 ∧ x.getF ps F.sysPwrstat_WCAUSE = 1 ∧
      ∃ w, x.power.warm = some w ∧ w.deep = true) ∧
  (∀ (h : Fin 4) (w : Fin 8) (v : Word) (s : State), s.takes (.seq h) (rg .sysWpwr) v = true → seqsRest s →
    (∀ u : Fin 8, u ≠ w → v.getLsbD u = s.wingOn u) → v.getLsbD w ≠ s.wingOn w →
    (s.wingOwner w = h.val → s.frameNames w = false →
      (s.wingOn w = false → Answers (.wingPowerWrite (.seq h) v) s
        ((s.setReg (rg .sysWpwr) (setBits (s.reg (rg .sysWpwr)) w 1 1)).setReg (rg .sysWpwr)
          (setBits (setBits (s.reg (rg .sysWpwr)) w 1 1) (8 + w.val) 1 1))) ∧
      (s.wingOn w = true → ∃ x, Answers (.wingPowerWrite (.seq h) v) s x ∧ x.wingOn w = false ∧ x.wingClearing w = false ∧
        (∀ p, p < 4096 → x.plane (w.val + 1) p = 0) ∧ x.seqs = s.seqs ∧ x.mem = s.mem)) ∧
    (s.wingOwner w ≠ h.val → s.flag ps F.sysPwrstat_WREF = false →
      Answers (.wingPowerWrite (.seq h) v) s ((s.setF ps F.sysPwrstat_WREF 1).setF ps F.sysPwrstat_WREFW w)))

/-- Resets (R125, R490 to R493, R498, R499, R546): POR_N low leaves every register but OTP and what follows the pins at its
reset value, Study but for a loss of VDDM, and nothing running; its rise, with VIO1 at its level, starts H0; WRST_N and a Lodge
cause's WRST are warm resets, which keep memory, banks, planes and porch programs; the release records its cause, samples the
strap and starts H0. The model's choices: whether Study outlasts a power-on reset (log entry 9), what follows the pins (log entry
14), and that a remote ATTEST outlasts a warm reset (log entry 108). -/
def Obligations.ResetsAndTheirRelease : Prop :=
  (∀ s : State, ∃ (t : State) (vddm : Bool), exec .porNLow s = .next t ∧ t.hlock = false ∧ t.power.por = true ∧
    t.pending = s.pending ∧ pinsFollowed s t ∧ (∀ k : Fin 128, t.reg (rg .asOtp k) = s.reg (rg .asOtp k)) ∧
    (∀ y, regAt y.off = some y → y.fam ≠ .asOtp → y.fam ≠ .bankStat → y.fam ≠ .sensorHpres → t.reg y = y.reset) ∧
    (∀ h : Fin 4, t.seq h = { Seq.reset h with
      run := .held
      study := if vddm then (Seq.reset h).study else (s.seq h).study
      studyBad := if vddm then (Seq.reset h).studyBad else (s.seq h).studyBad }) ∧
    t.mem = [] ∧ t.reqs = [] ∧ t.count = 0) ∧
  (∀ (sel : BitVec 3) (s : State), s.power.por = true → s.quiet = true →
    (vio1Good s → Answers (.coldPowerUp sel) s
      ((strapped { s with hlock := true, power := {} } sel).modSeq 0 fun q => { q with run := .running })) ∧
    (¬ vio1Good s → Answers (.coldPowerUp sel) s s)) ∧
  (∀ s : State, s.calm = true → s.getF (rg .sysPwrstat) F.sysPwrstat_STATE ≠ 2 → seqsRest s →
    (∃ x, Answers (.warmReset true) s x ∧ warmed s x ∧ contentsKept s x ∧ ∃ w, x.power.warm = some w ∧ w.pin = true) ∧
    (∀ c, s.lodge.wrst = some c →
      ∃ x, Answers (.warmReset false) s x ∧ warmed s x ∧ contentsKept s x ∧ ∃ w, x.power.warm = some w ∧ w.lodge = some c)) ∧
  (∀ (sel : BitVec 3) (w : Warm), EventForm (.resetRelease sel)
    (fun s => s.power.warm = some w ∧ s.hlock = true ∧ (∀ b, b < 32 → s.bankWaking b = false) ∧
      (∀ k, k < 8 → s.wingClearing k = false))
    fun s =>
      let x := rg .sysRstcause
      let kind := if w.pin then 1 else if w.lodge.isSome then 2 else 3
      (putPower (strapped ((s.setF x F.sysRstcause_KIND kind).setF x F.sysRstcause_LCAUSE
        (if kind = 2 then w.lodge.getD 0 else 0)) sel) fun p => { p with warm := none }).modSeq 0 fun q => { q with run := .running })

/-- Boot push, the release of sequencers and OTP (R500, R505, R509, R511, R512, R514): a push under the lockout is counted;
only H0 releases held sequencers, to their entries (each bit by itself: log entry 112); ADVANCE, REVOKE and PROGRAM start and
end with their codes, setting bits; whatever the end, no bit of the 128 words is cleared and the rollback count does not fall. -/
def Sys2Proof.Claims.BootPushAndOtp : Prop :=
  WriteForm .bootPush (rg .asBootPush) (fun _ _ s => s.lockout = false) (fun _ v s => s.writeDefault (rg .asBootPush) v) ∧
  WriteForm .bootPush (rg .asBootPush) (fun _ _ s => s.lockout = true)
    (fun _ _ s => s.setF (rg .asBootStat) F.asBootStat_WDROP (Nat.min 511 (s.getF (rg .asBootStat) F.asBootStat_WDROP + 1))) ∧
  (∀ (v : Word) (s : State), s.takes (.seq 0) (rg .sysSeqrel) v = true →
    Answers (.sysSeqrel (.seq 0) v) s { s with
      seqs := Vector.ofFn fun h : Fin 4 =>
        if h ≠ 0 ∧ v.getLsbD h = true ∧ (s.seq h).run = .held then
          { s.seq h with run := .running, pc := s.reg (rg .sysSeqEntry (h.val - 1)) }
        else s.seq h }) ∧
  WriteForm .sysSeqrel (rg .sysSeqrel) (fun r _ _ => r ≠ .seq 0) (fun _ _ s => s) ∧
  OtpStarts .advance 1 ∧ OtpStarts .revoke 2 ∧ OtpStarts .program 3 ∧
  (∀ (ok : Bool) (op v : Nat) (d : Word) (s : State), s.calm = true → s.coreOn = true → s.assay.otp = some (op, v, d) →
    let t := putAssay s fun a => { a with otp := none }
    (op = 1 → 64 < v → Answers (.otpDone ok) s (otpEnds t 5)) ∧
    (op = 1 → v ≤ 64 → s.getF (rg .asBootInfo) F.asBootInfo_SVN < v → Answers (.otpDone ok) s (otpEnds t 1)) ∧
    (op = 1 → v ≤ 64 → v ≤ s.getF (rg .asBootInfo) F.asBootInfo_SVN → s.rollback < v →
      Answers (.otpDone ok) s (otpEnds ((t.setReg (rg .asOtp 64) (s.reg (rg .asOtp 64) ||| BitVec.ofNat 32 (2 ^ v - 1))).setReg
        (rg .asOtp 65) (s.reg (rg .asOtp 65) ||| BitVec.ofNat 32 ((2 ^ v - 1) / 2 ^ 32))) 0)) ∧
    (op = 2 → v ≤ 3 → v = s.getF (rg .asBootInfo) F.asBootInfo_KEYSLOT → Answers (.otpDone ok) s (otpEnds t 2)) ∧
    (op = 2 → v ≤ 3 → v ≠ s.getF (rg .asBootInfo) F.asBootInfo_KEYSLOT →
      (∃ j, j < 4 ∧ j ≠ v ∧ s.otpFlag j = true ∧ s.otpFlag (4 + j) = false) →
      Answers (.otpDone ok) s (otpEnds (t.setReg (rg .asOtp 66) (s.reg (rg .asOtp 66) ||| BitVec.ofNat 32 (2 ^ (4 + v)))) 0)) ∧
    (op = 3 → s.otpFlag 12 = true → Answers (.otpDone ok) s (otpEnds t 3)) ∧
    (op = 3 → s.otpFlag 12 = false → v < 128 → v ≠ 66 → ok = true →
      Answers (.otpDone ok) s (otpEnds (t.setReg (rg .asOtp v) (s.reg (rg .asOtp v) ||| d)) 0))) ∧
  (∀ (ok : Bool) (op v : Nat) (d : Word) (s : State), s.calm = true → s.coreOn = true → s.assay.otp = some (op, v, d) → v < 128 →
    ∃ t, exec (.otpDone ok) s = .next t ∧ (∀ k : Fin 128, s.otp k &&& t.otp k = s.otp k) ∧ s.rollback ≤ t.rollback)

/-- Steps of the boot ROM (R446, R499, R503 to R506, R508; that a step is made at each tick on which no command waits is log
entry 43): the strap selects the source; a flash boot begins the lockout; a push is taken with its address; an image at an
address that is no multiple of 8 ends the boot with 0x08; a failed flash boot falls back to the host push under strap 3, any
other failure asserts FAULT_N and enters recovery; hand-over leaves H0 at ENTRY with G0 to G2, measurements 0 to 4 locked and
the lockout over. -/
def Sys2Proof.Claims.BootRomSteps : Prop :=
  (∀ s : State, s.assay.boot.stage = .start →
    (s.getF (rg .asBootStat) F.asBootStat_BOOTSEL = 1 →
      s.bootStep = bootAt (bootF (bootF s F.asBootStat_SOURCE 1) F.asBootStat_PHASE 2) .push) ∧
    (s.getF (rg .asBootStat) F.asBootStat_BOOTSEL ≠ 1 → s.getF (rg .asBootStat) F.asBootStat_BOOTSEL ≠ 2 →
      s.bootStep = bootAt (bootF (bootF (bootF s F.asBootStat_SOURCE 0) F.asBootStat_PHASE 1) F.asBootStat_LOCKOUT 1)
        (.read false 0))) ∧
  (∀ s : State, s.assay.boot.stage = .recovery →
    (s.flag (rg .pcieBoot) F.pcieBoot_GO = false → s.bootStep = s) ∧
    (s.flag (rg .pcieBoot) F.pcieBoot_GO = true →
      s.bootStep = putAssay (bootF (bootF (s.setF (rg .pcieBoot) F.pcieBoot_GO 0) F.asBootStat_SOURCE 1)
        F.asBootStat_LOCKOUT 1) fun a =>
          { a with boot := { a.boot with img := (s.reg (rg .pcieBootaddr)).toNat, stage := .check } })) ∧
  (∀ s : State, s.assay.boot.stage = .check → s.verQ = [] → s.assay.boot.img % 8 ≠ 0 →
    let t := bootF (bootF (bootF (bootF s F.asBootStat_PHASE 4) F.asBootStat_ERR 8) F.asBootStat_FAIL 1) F.asBootStat_LOCKOUT 0
    let back := s.getF (rg .asBootStat) F.asBootStat_BOOTSEL = 3 ∧ s.getF (rg .asBootStat) F.asBootStat_SOURCE = 0
    (back → s.bootStep =
      bootAt (bootF (bootF (bootF t F.asBootStat_RETRY 1) F.asBootStat_SOURCE 1) F.asBootStat_PHASE 2) .push) ∧
    (¬back → s.bootStep =
      bootAt (bootF { t.setF (rg .lodgeAct 1) F.lodgeAct_ACT 4 with lodgeQ := s.lodgeQ ++ [1] } F.asBootStat_PHASE 0xA)
        .recovery)) ∧
  (∀ s : State, s.assay.boot.stage = .measure 12 false → s.flag (rg .asExtctl) F.asExtctl_BUSY = false →
    let b := s.assay.boot
    let x := s.bootStep
    let q := x.seq 0
    q.pc = BitVec.ofNat 32 (field b.hdr 0x14 4) ∧ q.g[0] = x.reg (rg .asBootStat) ∧ q.g[1] = BitVec.ofNat 32 b.img ∧
      q.g[2] = BitVec.ofNat 32 b.heads ∧ (∀ i : Fin 16, 2 < i.val → q.g[i] = (Seq.reset 0).g[i]) ∧
      q.flg = 0 ∧ q.vbr = (Seq.reset 0).vbr ∧ q.study = (s.seq 0).study ∧ q.csDigest = (s.seq 0).csDigest ∧
      x.flag (rg .asBootStat) F.asBootStat_LOCKOUT = false ∧ x.getF (rg .asBootStat) F.asBootStat_PHASE = 9 ∧
      (∀ i, i < 5 → (x.getF (rg .asExtctl) F.asExtctl_MLOCK).testBit i = true) ∧ x.assay.boot.stage = .off ∧
      x.mem = s.mem ∧ x.lodgeQ = s.lodgeQ)

/-- The boot ROM, boot push, the release of sequencers, and OTP. -/
def Obligations.BootAndOtp : Prop :=
  BootRomSteps ∧ BootPushAndOtp

/-- Measurements, attestation and the flash port (R510, R515 to R521): an extension hashes the old value with the data, a
locked one is refused; a quote is queued, served in turn and written where its request says, and a bad request ends with
its code; a flash transaction runs until its end, with its data in the buffer. The model's choices: it is the one its registers
describe at GO, and a request is read at the end of its quote (log entry 113); an extension is refused where the lock stood before
its write (log entry 37); flash data not listed reads 0 (log entry 82). -/
def Obligations.MeasurementsQuotesAndFlash : Prop :=
  (∀ (r : Requester) (v : Word) (s : State), s.takes r (rg .asExtctl) v = true → fromSeq r = true →
    F.asExtctl_GO.of v = 1 → s.flag (rg .asExtctl) F.asExtctl_BUSY = false →
    let d := ((List.range 16).map fun k => (s.reg (rg .asExtd k)).toNat * 2 ^ (32 * k)).sum
    let i := F.asExtctl_IDX.of v
    Answers (.extend r v) s (putAssay ((s.writeDefault (rg .asExtctl) v).setF (rg .asExtctl) F.asExtctl_BUSY 1) fun a =>
      { a with sigQ := a.sigQ ++ [.extend i d ((s.getF (rg .asExtctl) F.asExtctl_MLOCK).testBit i)] })) ∧
  (∀ (i : Fin 8) d rest, CoreForm .extensionEnd (fun s => s.assay.sigQ = .extend i d true :: rest) fun s =>
    ((putAssay s fun a => { a with sigQ := rest }).setF (rg .asExtctl) F.asExtctl_BUSY 0).setF (rg .asExtctl)
      F.asExtctl_REFUSED 1) ∧
  (∀ (i : Fin 8) d rest (s : State), s.calm = true → s.coreOn = true → s.assay.sigQ = .extend i d false :: rest →
    ∃ x, Answers .extensionEnd s x ∧ x.meas i = Config.sha3 (bytesLE 64 (s.meas i).toNat ++ bytesLE 64 d) ∧
      x.flag (rg .asExtctl) F.asExtctl_BUSY = false ∧ x.flag (rg .asExtctl) F.asExtctl_DONE = true ∧
      (∀ y, regAt y.off = some y → y ≠ rg .asExtctl → (∀ k, y ≠ rg .asMeas i k) → x.reg y = s.reg y) ∧
      x = { s with regs := x.regs, assay := { s.assay with sigQ := rest } }) ∧
  WriteForm .attCtlGo (rg .asAttCtl)
    (fun r v s => fromSeq r = true ∧ F.asAttCtl_GO.of v = 1 ∧ s.flag (rg .asAttCtl) F.asAttCtl_BUSY = false ∧
      F.asAttCtl_REMOTE.of v = 0)
    (fun _ v s => putAssay ((s.writeDefault (rg .asAttCtl) v).setF (rg .asAttCtl) F.asAttCtl_BUSY 1) fun a =>
      { a with sigQ := a.sigQ ++ [.own] }) ∧
  (∀ (rest : List SigJob) (s : State), s.calm = true → s.coreOn = true → s.assay.sigQ = .own :: rest →
    let a := (s.reg (rg .asAttReq)).toNat
    let t := putAssay s fun x => { x with sigQ := rest, snap := none }
    (a % 8 ≠ 0 ∨ regionOfRange a 64 ≠ some .landing → Answers .quoteDone s (t.attEnd 1)) ∧
    (∀ b, a % 8 = 0 → s.attRead a = (s, .ok b) → s.otpFlag 11 = false → Answers .quoteDone s (t.attEnd 4)) ∧
    (∀ b n snap, a % 8 = 0 → s.attRead a = (s, .ok b) → s.otpFlag 11 = true → n = quoteLen b →
      (∀ k ∈ s.bankStates (field b 8 4) n, k = .on) → s.cellar.bad = [] → s.cellar.weak = [] → s.assay.snap = some snap →
      let body := s.quoteBody b snap.1 snap.2
      let seed := BitVec.ofNat 256 (s.otpNum 76 8)
      let q := body ++ bytesLE 4627 (Config.mldsaSign s.free seed (Config.sha3 body)).toNat ++
        (if field b 7 1 % 2 = 1 then bytesLE 2592 (Config.idPublicKey seed).toNat else [])
      Answers .quoteDone s ((({ t with free := s.free + 1 } : State).setMemBytes (field b 8 4) q).attEnd 0))) ∧
  WriteForm .bspiTransaction (rg .asBspiCmd)
    (fun r v s => fromSeq r = true ∧ F.asBspiCmd_GO.of v = 1 ∧ s.flag (rg .asBspiStat) F.asBspiStat_BUSY = false)
    (fun _ v s =>
      let t := s.writeDefault (rg .asBspiCmd) v
      putAssay (t.setF (rg .asBspiStat) F.asBspiStat_BUSY 1) fun a =>
        { a with bspi := (t.reg (rg .asBspiCmd), s.reg (rg .asBspiAddr), s.reg (rg .asBspiBuf)) }) ∧
  (∀ (data : List Byte) (s : State), s.calm = true → s.coreOn = true → s.flag (rg .asBspiStat) F.asBspiStat_BUSY = true →
    let c := s.assay.bspi.1
    let n := F.asBspiCmd_LEN.of c
    let a := s.assay.bspi.2.2.toNat
    let k := match F.asBspiCmd_ADDRB.of c with | 0 => 0 | 1 => 3 | _ => 4
    let tx : SpiTx := {
      op := F.asBspiCmd_OP.of c, addr := (bytesLE k s.assay.bspi.2.1.toNat).reverse
      dummy := F.asBspiCmd_DUMMY.of c, quad := F.asBspiCmd_QUAD.of c = 1 }
    let on (t : State) (x : SpiTx) : State := putLodge t fun l => { l with spi := [x] }
    (s.flag (rg .lodgeStat) F.lodgeStat_RECBUSY = true → Answers (.bspiDone data) s (flashEnds s 1)) ∧
    (s.flag (rg .lodgeStat) F.lodgeStat_RECBUSY = false → n ≠ 0 → (a % 8 ≠ 0 ∨ inRam a n = false) →
      Answers (.bspiDone data) s (flashEnds s 2)) ∧
    (s.flag (rg .lodgeStat) F.lodgeStat_RECBUSY = false → n ≠ 0 → a % 8 = 0 → inRam a n = true →
      (∀ b ∈ s.bankStates a n, b = .on) → s.cellar.bad = [] → s.cellar.weak = [] →
      (F.asBspiCmd_WRITE.of c = 0 → Answers (.bspiDone data) s
        (flashEnds ((on s { tx with recv := n }).setMemBytes a ((List.range n).map fun i => (data[i]?).getD 0)) 0)) ∧
      (F.asBspiCmd_WRITE.of c = 1 → Answers (.bspiDone data) s
        (flashEnds (on s { tx with data := s.memBytes a n }) 0))))

/-- General pins (R546 to R552): a direct agent claims a free pin and releases its own; another's is refused; a holder sets its
fields, and SAFE follows SAFELOCK; a supply's change is noted, and the loss of VIO1 is a power-on reset. -/
def Obligations.PinsAreHeldAndSet : Prop :=
  (∀ i : Fin 384,
    let o := rg .gpOwn i
    WriteForm (fun r v => .pinClaim r i v) o
      (fun r v s => reqOwner r = some (F.gpOwn_AGENT.of v) ∧ s.getF o F.gpOwn_HOLDER = 0)
      (fun _ v s => heldBy s i (BitVec.ofNat 32 (F.gpOwn_AGENT.of v + 8))) ∧
    WriteForm (fun r v => .pinClaim r i v) o
      (fun r v s => owns r (s.getF o F.gpOwn_AGENT) = true ∧ s.getF o F.gpOwn_HOLDER = 1 ∧ F.gpOwn_AGENT.of v = 0)
      (fun _ _ s => heldBy s i 0) ∧
    WriteForm (fun r v => .pinClaim r i v) o
      (fun r v s => 2 ≤ s.getF o F.gpOwn_HOLDER ∧ reqOwner r = some (F.gpOwn_AGENT.of v))
      (fun r _ s => s.pinRefuse i (reqCode r) 0) ∧
    WriteForm (fun r v => .pinCtlWrite r i v) (rg .gpCtl i)
      (fun r _ s => fromSeq r = true ∧ owns r (s.getF o F.gpOwn_AGENT) = true ∧ s.getF o F.gpOwn_HOLDER = 1 ∧
        s.flag (rg .pinsCtl) F.pinsCtl_SAFELOCK = false)
      (fun _ v s => s.setReg (rg .gpCtl i) ((s.reg (rg .gpCtl i) &&& ~~~(0x77F#32)) ||| (v &&& 0x77F#32))) ∧
    WriteForm (fun r v => .pinCtlWrite r i v) (rg .gpCtl i)
      (fun r v s => (s.getF o F.gpOwn_HOLDER = 3 ∨ reqOwner r = none) ∧ bits v 0 5 ≠ bits (s.reg (rg .gpCtl i)) 0 5 ∧
        s.flag (rg .pinsCtl) F.pinsCtl_SAFELOCK = true)
      (fun r _ s => (s.setReg (rg .gpCtl i) (s.reg (rg .gpCtl i))).pinRefuse i (reqCode r) 1)) ∧
  (∀ (b : Fin 12) (l : Fin 4) (s : State), s.calm = true →
    let x := rg .bankStat b
    let t := if s.getF x F.bankStat_VLVL = l.val then s else (s.setF x F.bankStat_VLVL l).setF x F.bankStat_CHG 1
    (vio1Good t → Answers (.bankSupplyChange b l) s t) ∧
    (¬ vio1Good t → ∃ y, exec (.bankSupplyChange b l) s = .next y ∧ y.power.por = true ∧ y.hlock = false))

/-! ### The queue, repetition, reset and MSI-X (R118, R140, R444, R457; log entries 1 and 36) -/

/-- A step takes the command at the front of the queue and runs it on the rest (log entry 1: the queue and the idle tick are
the model's); on an empty queue one tick passes, and with POR_N low nothing; every command answers a next state. -/
def Obligations.StepTakesTheFrontCommand : Prop :=
  (∀ (c : Instr) (rest : List Instr) (s : State), s.pending = c :: rest → step s = exec c { s with pending := rest }) ∧
  (∀ s : State, s.pending = [] → step s = .next s.idle) ∧
  (∀ s : State, s.pending = [] → s.power.por = true → step s = .next s) ∧
  (∀ (c : Instr) (s : State), ∃ t, exec c s = .next t)

/-- The state after reset (R31, R118, R121, R122, R144, R198, R211, R240, R243): every register of a sequencer at its value, H0
running and the others held; PE registers and planes cleared; every bank ON; every memory-mapped register at its reset value;
nothing in memory, outstanding or waiting. The model's choices: the moment of reset (log entry 5), a blank OTP (log entry 7), and
the registers that tell of pins and supplies (log entry 14). -/
def Sys2Proof.Claims.FieldsAtReset : Prop :=
  let s := State.reset
  (∀ (h : Fin 4) (i : Fin 16), (s.seq h).g[i] = (if i = 15 then 0x00040000#32 else 0) ∧ (s.seq h).f[i] = 0) ∧
  (∀ (h : Fin 4) (k : Fin 8), ptrBase (s.seq h).p[k] = 0 ∧ ptrStride (s.seq h).p[k] = 1) ∧
  (∀ h : Fin 4, (s.seq h).rc = 0 ∧ (s.seq h).flg = 0 ∧ (s.seq h).fpctl = 0 ∧ (s.seq h).wm = (if h = 0 then 0xFF#32 else 0) ∧
    (s.seq h).lfp = 0xFDA ∧ (s.seq h).epc = 0 ∧ (s.seq h).mtf = 0x3C000 ∧ (s.seq h).vbr = 0xF0000000 ∧ (s.seq h).esr = 0 ∧
    (s.seq h).ear = 0 ∧ (s.seq h).ev = 0 ∧ (s.seq h).run = (if h = 0 then .running else .held) ∧ (s.seq h).hcause = 0 ∧
    (s.seq h).atomx = 0 ∧ (s.seq h).csDigest = none ∧ (s.seq h).cs = 0 ∧ (s.seq h).wbuf = [] ∧ (s.seq h).evq = []) ∧
  (s.seq 0).pc = 0xF0000000 ∧
  (∀ u, u < 10 → (s.pe u).c = 0 ∧ (s.pe u).f = 0 ∧ (s.pe u).x = unitOnes u ∧ (s.pe u).t = 0 ∧ (s.pe u).n = 0 ∧
    ∀ p, p < 4096 → s.plane u p = 0) ∧
  (∀ b : Fin 32, s.cellar.bank[b] = .on) ∧
  (∀ x : Reg, regAt x.off = some x → s.reg x = x.reset) ∧ (∀ fam : Fam, regAt (rg fam).off = some (rg fam)) ∧
  s.mem = [] ∧ Memory.wf s.mem = true ∧ s.reqs = [] ∧ s.pending = []

/-- MSI-X follows the sources right after reset (R444, R457; that every vector's mask is then 1 is log entry 36). -/
def Sys2Proof.Claims.MsixFollowsAtReset : Prop := MsixFollows State.reset

/-- The state after reset. -/
def Obligations.StateAtReset : Prop :=
  FieldsAtReset ∧ MsixFollowsAtReset

namespace Sys2Proof.Claims

/-- Vector v has a message to send in `s`: MSI-X is enabled, the vector is not masked, its forwarded sources are 1, and either
they have risen since last seen or a rise is pending (R444). -/
abbrev messageDue (s : State) (v : Fin 64) : Prop :=
  s.msixEn = true ∧ s.msixMasked v = false ∧ s.forwarded.getLsbD v = true ∧
    (s.pcie.last.getLsbD v = false ∨ s.pcie.pba.getLsbD v = true)

/-- `x` is `s` with every message that is due queued at the port, in the order of the vectors, and a bit pending where a masked
vector's sources have risen, or a rise that was pending still waits (R444). -/
def MessagesSent (s x : State) : Prop :=
  x.pcie.tlps = s.pcie.tlps ++
    ((List.finRange 64).filter fun v => decide (messageDue s v)).map (fun v =>
      .message v (s.msixWord (4 * v + 1) ++ s.msixWord (4 * v)) (s.msixWord (4 * v + 2))) ∧
  (∀ v : Fin 64, x.pcie.pba.getLsbD v = true ↔
    (s.msixMasked v = true ∧ s.forwarded.getLsbD v = true ∧ s.pcie.last.getLsbD v = false) ∨
      (s.pcie.pba.getLsbD v = true ∧ (s.msixMasked v = true ∨ s.msixEn = false))) ∧
  x.pcie.last = s.forwarded ∧
  x = { s with pcie := { s.pcie with tlps := x.pcie.tlps, pba := x.pcie.pba, last := x.pcie.last } }

/-- What a STEP sets the count to (R370). -/
def stepTarget (s : State) : BitVec 64 := s.reg (rg .mantelStephi) ++ s.reg (rg .mantelSteplo)

end Sys2Proof.Claims

/-- MSI-X follows the sources in every state that a step reaches from such a state (R444, R457): what every command ends with
sends a message for each enabled, unmasked vector whose forwarded sources have risen, or whose pending rise an unmasking meets
while they are 1; no rise goes unseen, and an enabled vector stays pending only while it is masked. -/
def Obligations.MsixFollowsEveryStep : Prop :=
  (∀ s : State, MessagesSent s s.sync) ∧ ∀ s t : State, MsixFollows s → step s = .next t → MsixFollows t

/-- Memory keeps its canonical form over every command and every tick (R234, R243): addresses strictly rising, and no byte
listed that reads as an unlisted one does. -/
def Obligations.MemoryStaysCanonical : Prop :=
  ∀ s t : State, Memory.wf s.mem = true → step s = .next t → Memory.wf t.mem = true

/-- The count over every command and every tick (R366, R369, R370, R467): no command moves it, but for a power-on reset; a tick
adds 1, or 2 or nothing where a follower slews, or 40 on the Lodge's carry, or sets it to STEPHI:STEPLO where a step is due.
So without a step, a reset or a wrap it never falls. -/
def Obligations.CountMovesByTimeAndSteps : Prop :=
  ∀ s t : State, step s = .next t →
    let reset : Prop := t.power.por = true ∧ t.count = 0
    (s.pending ≠ [] → t.count = s.count ∨ reset) ∧
    (s.pending = [] → s.power.por = true → t.count = s.count) ∧
    (s.pending = [] → s.power.por = false →
      (s.hlock = false → t.count = s.count + 40) ∧
      (s.hlock = true → s.mantel.stepDue = true → t.count = stepTarget s) ∧
      (s.hlock = true → s.mantel.stepDue = false → s.getF (rg .mantelCtl) F.mantelCtl_ROLE ≠ 2 → t.count = s.count + 1) ∧
      (s.hlock = true → s.mantel.stepDue = false →
        t.count = s.count ∨ t.count = s.count + 1 ∨ t.count = s.count + 2)) ∧
    (s.mantel.stepDue = false → s.count.toNat + 40 < 2 ^ 64 → ¬ reset → s.count.toNat ≤ t.count.toNat)
end

