-- ==== Sys2Proof/Laws/Bits.lean ====
section
/-! SUPPORT. Laws of bit fields and of the flags that a scalar result writes. -/

namespace Sys2Proof.Machine

@[simp] theorem b2n_true : b2n true = 1 := rfl
@[simp] theorem b2n_false : b2n false = 0 := rfl

/-- Writing one bit leaves the others. -/
theorem bit_setBits_other (w : Word) (k j v : Nat) (hj : j < 32) (h : j ≠ k) : bit (setBits w k 1 v) j = bit w j := by
  have h1 : (((2 ^ 1 - 1) <<< k : Nat)).testBit j = false := by
    rw [Nat.testBit_shiftLeft]
    by_cases hk : k ≤ j
    · have : (2 ^ 1 - 1 : Nat).testBit (j - k) = false :=
        Nat.testBit_lt_two_pow (Nat.lt_of_lt_of_le (by decide) (Nat.pow_le_pow_right (by decide) (show 1 ≤ j - k by omega)))
      rw [this, Bool.and_false]
    · rw [decide_eq_false (by omega), Bool.false_and]
  have h2 : (((v % 2 ^ 1) <<< k : Nat)).testBit j = false := by
    rw [Nat.testBit_shiftLeft]
    by_cases hk : k ≤ j
    · have : (v % 2 ^ 1).testBit (j - k) = false :=
        Nat.testBit_lt_two_pow (Nat.lt_of_lt_of_le (Nat.mod_lt _ (by decide)) (Nat.pow_le_pow_right (by decide) (by omega)))
      rw [this, Bool.and_false]
    · rw [decide_eq_false (by omega), Bool.false_and]
  simp only [bit, setBits, BitVec.getLsbD_or, BitVec.getLsbD_and, BitVec.getLsbD_not, BitVec.getLsbD_ofNat, hj, h1, h2]
  simp

/-- The arithmetic flags leave the other bits of FLG. -/
theorem AluRes.bit_flg (x : AluRes) (w : Word) (j : Nat) (hj : 4 ≤ j) (hk : j < 32) : bit (x.flg w) j = bit w j := by
  unfold AluRes.flg
  simp only
  repeat' split
  all_goals simp [bit_setBits_other, flgZ, flgN, flgC, flgV, hk, show j ≠ 0 by omega, show j ≠ 1 by omega, show j ≠ 2 by omega,
    show j ≠ 3 by omega]

end Sys2Proof.Machine
end

