-- ==== Sys2Proof/Laws/Sparse.lean ====
section
/-! SUPPORT. Laws of sparse tables: read after write, and the canonical form is kept and determines the table. -/

namespace Sys2Proof.Machine

variable {α : Type}

theorem sparseGet_put_same (d : Nat → α) (l : Sparse α) (k : Nat) (v : α) :
    sparseGet d (sparsePut l k v) k = v := by
  induction l with
  | nil => simp [sparsePut, sparseGet]
  | cons e l ih =>
    obtain ⟨a, w⟩ := e
    simp only [sparsePut]
    split
    · simp [sparseGet]
    · split
      · simp [sparseGet]
      · rename_i h1 h2
        simp [sparseGet, h2, ih]

theorem sparseGet_put_other (d : Nat → α) (l : Sparse α) {k j : Nat} (v : α) (h : j ≠ k) :
    sparseGet d (sparsePut l k v) j = sparseGet d l j := by
  induction l with
  | nil => simp [sparsePut, sparseGet, h]
  | cons e l ih =>
    obtain ⟨a, w⟩ := e
    simp only [sparsePut]
    split
    · simp [sparseGet, h]
    · split
      · rename_i h2
        subst h2
        simp [sparseGet, h]
      · simp [sparseGet, ih]

theorem sparseGet_erase_other (d : Nat → α) (l : Sparse α) {k j : Nat} (h : j ≠ k) :
    sparseGet d (sparseErase l k) j = sparseGet d l j := by
  induction l with
  | nil => rfl
  | cons e l ih =>
    obtain ⟨a, w⟩ := e
    unfold sparseErase at ih ⊢
    by_cases h2 : a = k
    · subst h2
      simp [sparseGet, h, ih]
    · simp [sparseGet, h2, ih]

theorem sparseGet_erase_same (d : Nat → α) (l : Sparse α) (k : Nat) : sparseGet d (sparseErase l k) k = d k := by
  induction l with
  | nil => rfl
  | cons e l ih =>
    obtain ⟨a, w⟩ := e
    unfold sparseErase at ih ⊢
    by_cases h2 : a = k
    · simp [h2, ih]
    · simp [sparseGet, h2, Ne.symm h2, ih]

theorem sparseErase_erase (l : Sparse α) (k : Nat) : sparseErase (sparseErase l k) k = sparseErase l k := by
  unfold sparseErase
  rw [List.filter_filter]
  simp

theorem sparseErase_put (l : Sparse α) (k : Nat) (v : α) : sparseErase (sparsePut l k v) k = sparseErase l k := by
  induction l with
  | nil => simp [sparsePut, sparseErase]
  | cons e l ih =>
    obtain ⟨a, w⟩ := e
    simp only [sparsePut]
    split
    · unfold sparseErase
      rw [List.filter_cons_of_neg (by simp)]
    · split
      · rename_i h
        subst h
        unfold sparseErase
        rw [List.filter_cons_of_neg (by simp), List.filter_cons_of_neg (by simp)]
      · rename_i h
        unfold sparseErase at ih ⊢
        rw [List.filter_cons_of_pos (by simp [Ne.symm h]), List.filter_cons_of_pos (by simp [Ne.symm h]), ih]

variable [DecidableEq α]

/-- Of two writes at one key the second stands. -/
@[simp] theorem sparseSet_set (d : Nat → α) (l : Sparse α) (k : Nat) (v w : α) :
    sparseSet d (sparseSet d l k v) k w = sparseSet d l k w := by
  have h : sparseErase (sparseSet d l k v) k = sparseErase l k := by
    unfold sparseSet
    split
    · exact sparseErase_erase l k
    · rw [sparseErase_put, sparseErase_erase]
  unfold sparseSet at h ⊢
  rw [h]

/-- A read after a write at the same key. -/
@[simp] theorem sparseGet_set_same (d : Nat → α) (l : Sparse α) (k : Nat) (v : α) :
    sparseGet d (sparseSet d l k v) k = v := by
  unfold sparseSet
  split
  · rename_i h
    rw [h]
    exact sparseGet_erase_same d l k
  · exact sparseGet_put_same d _ k v

/-- A write leaves every other key alone. -/
theorem sparseGet_set_other (d : Nat → α) (l : Sparse α) {k j : Nat} (v : α) (h : j ≠ k) :
    sparseGet d (sparseSet d l k v) j = sparseGet d l j := by
  unfold sparseSet
  split
  · exact sparseGet_erase_other d l h
  · rw [sparseGet_put_other d _ v h]
    exact sparseGet_erase_other d l h

/-- The bound of a canonical table may be lowered. -/
theorem sparseWfFrom_weaken (d : Nat → α) (l : Sparse α) (b c : Nat) (h : c ≤ b) (hw : sparseWfFrom d (some b) l = true) :
    sparseWfFrom d (some c) l = true := by
  cases l with
  | nil => rfl
  | cons e l =>
    obtain ⟨a, w⟩ := e
    simp only [sparseWfFrom, Bool.and_eq_true, decide_eq_true_eq] at hw ⊢
    exact ⟨⟨by omega, hw.1.2⟩, hw.2⟩

theorem sparseWfFrom_none (d : Nat → α) (l : Sparse α) (b : Nat) (hw : sparseWfFrom d (some b) l = true) :
    sparseWfFrom d none l = true := by
  cases l with
  | nil => rfl
  | cons e l =>
    obtain ⟨a, w⟩ := e
    simp only [sparseWfFrom, Bool.and_eq_true, decide_eq_true_eq] at hw ⊢
    exact ⟨⟨trivial, hw.1.2⟩, hw.2⟩

theorem sparseWf_erase (d : Nat → α) (l : Sparse α) (b : Option Nat) (k : Nat) (hw : sparseWfFrom d b l = true) :
    sparseWfFrom d b (sparseErase l k) = true := by
  unfold sparseErase
  induction l generalizing b with
  | nil => rfl
  | cons e l ih =>
    obtain ⟨a, w⟩ := e
    simp only [sparseWfFrom, Bool.and_eq_true, decide_eq_true_eq] at hw
    by_cases h2 : a = k
    · rw [List.filter_cons_of_neg (by simp [h2])]
      apply ih
      cases b with
      | none => exact sparseWfFrom_none d l a hw.2
      | some c =>
        have h1 := hw.1.1
        simp only [decide_eq_true_eq] at h1
        exact sparseWfFrom_weaken d l a c (by omega) hw.2
    · rw [List.filter_cons_of_pos (by simp [h2])]
      simp only [sparseWfFrom, Bool.and_eq_true, decide_eq_true_eq]
      exact ⟨hw.1, ih _ hw.2⟩

theorem sparseWf_put (d : Nat → α) (l : Sparse α) (b : Option Nat) (k : Nat) (v : α) (hv : v ≠ d k)
    (hb : ∀ c, b = some c → c < k) (hw : sparseWfFrom d b l = true) : sparseWfFrom d b (sparsePut l k v) = true := by
  induction l generalizing b with
  | nil =>
    cases b with
    | none => simp [sparsePut, sparseWfFrom, hv]
    | some c => simp [sparsePut, sparseWfFrom, hv, hb c rfl]
  | cons e l ih =>
    obtain ⟨a, w⟩ := e
    simp only [sparseWfFrom, Bool.and_eq_true, decide_eq_true_eq] at hw
    simp only [sparsePut]
    split
    · rename_i h
      simp only [sparseWfFrom, Bool.and_eq_true, decide_eq_true_eq]
      refine ⟨⟨?_, hv⟩, ⟨h, hw.1.2⟩, hw.2⟩
      cases b with
      | none => rfl
      | some c => simp [hb c rfl]
    · split
      · rename_i h
        subst h
        simp only [sparseWfFrom, Bool.and_eq_true, decide_eq_true_eq]
        refine ⟨⟨?_, hv⟩, hw.2⟩
        cases b with
        | none => rfl
        | some c => simp [hb c rfl]
      · simp only [sparseWfFrom, Bool.and_eq_true, decide_eq_true_eq]
        refine ⟨hw.1, ih (some a) ?_ hw.2⟩
        intro c hc
        cases hc
        omega

/-- A write keeps the canonical form. -/
theorem sparseWf_set (d : Nat → α) (l : Sparse α) (k : Nat) (v : α) (hw : sparseWf d l = true) :
    sparseWf d (sparseSet d l k v) = true := by
  unfold sparseSet
  split
  · exact sparseWf_erase d l none k hw
  · rename_i h
    exact sparseWf_put d _ none k v h (fun c hc => by cases hc) (sparseWf_erase d l none k hw)

end Sys2Proof.Machine
end

