-- ==== Sys2Proof/Laws/State.lean ====
section
/-! SUPPORT. What each named update of the state leaves as it was: one lemma per field per update; and what it changes. -/

namespace Sys2Proof.Machine

/-! ### setReg -/

@[simp] theorem State.setReg_pending (s : State) (x : Reg) (w : Word) : (s.setReg x w).pending = s.pending := rfl
@[simp] theorem State.setReg_free (s : State) (x : Reg) (w : Word) : (s.setReg x w).free = s.free := rfl
@[simp] theorem State.setReg_ns (s : State) (x : Reg) (w : Word) : (s.setReg x w).ns = s.ns := rfl
@[simp] theorem State.setReg_count (s : State) (x : Reg) (w : Word) : (s.setReg x w).count = s.count := rfl
@[simp] theorem State.setReg_mem (s : State) (x : Reg) (w : Word) : (s.setReg x w).mem = s.mem := rfl
@[simp] theorem State.setReg_seqs (s : State) (x : Reg) (w : Word) : (s.setReg x w).seqs = s.seqs := rfl
@[simp] theorem State.setReg_arr (s : State) (x : Reg) (w : Word) : (s.setReg x w).arr = s.arr := rfl
@[simp] theorem State.setReg_cellar (s : State) (x : Reg) (w : Word) : (s.setReg x w).cellar = s.cellar := rfl
@[simp] theorem State.setReg_dma (s : State) (x : Reg) (w : Word) : (s.setReg x w).dma = s.dma := rfl
@[simp] theorem State.setReg_reqs (s : State) (x : Reg) (w : Word) : (s.setReg x w).reqs = s.reqs := rfl
@[simp] theorem State.setReg_inlet (s : State) (x : Reg) (w : Word) : (s.setReg x w).inlet = s.inlet := rfl
@[simp] theorem State.setReg_outJobs (s : State) (x : Reg) (w : Word) : (s.setReg x w).outJobs = s.outJobs := rfl
@[simp] theorem State.setReg_chans (s : State) (x : Reg) (w : Word) : (s.setReg x w).chans = s.chans := rfl
@[simp] theorem State.setReg_gp (s : State) (x : Reg) (w : Word) : (s.setReg x w).gp = s.gp := rfl
@[simp] theorem State.setReg_annex (s : State) (x : Reg) (w : Word) : (s.setReg x w).annex = s.annex := rfl
@[simp] theorem State.setReg_mantel (s : State) (x : Reg) (w : Word) : (s.setReg x w).mantel = s.mantel := rfl
@[simp] theorem State.setReg_link (s : State) (x : Reg) (w : Word) : (s.setReg x w).link = s.link := rfl
@[simp] theorem State.setReg_pcie (s : State) (x : Reg) (w : Word) : (s.setReg x w).pcie = s.pcie := rfl
@[simp] theorem State.setReg_lodge (s : State) (x : Reg) (w : Word) : (s.setReg x w).lodge = s.lodge := rfl
@[simp] theorem State.setReg_power (s : State) (x : Reg) (w : Word) : (s.setReg x w).power = s.power := rfl
@[simp] theorem State.setReg_assay (s : State) (x : Reg) (w : Word) : (s.setReg x w).assay = s.assay := rfl
@[simp] theorem State.setReg_answer (s : State) (x : Reg) (w : Word) : (s.setReg x w).answer = s.answer := rfl
@[simp] theorem State.setReg_verQ (s : State) (x : Reg) (w : Word) : (s.setReg x w).verQ = s.verQ := rfl
@[simp] theorem State.setReg_replies (s : State) (x : Reg) (w : Word) : (s.setReg x w).replies = s.replies := rfl
@[simp] theorem State.setReg_latched (s : State) (x : Reg) (w : Word) : (s.setReg x w).latched = s.latched := rfl
@[simp] theorem State.setReg_fwd (s : State) (x : Reg) (w : Word) : (s.setReg x w).fwd = s.fwd := rfl
@[simp] theorem State.setReg_service (s : State) (x : Reg) (w : Word) : (s.setReg x w).service = s.service := rfl
@[simp] theorem State.setReg_hlock (s : State) (x : Reg) (w : Word) : (s.setReg x w).hlock = s.hlock := rfl
@[simp] theorem State.setReg_lodgeQ (s : State) (x : Reg) (w : Word) : (s.setReg x w).lodgeQ = s.lodgeQ := rfl

/-! ### setF -/

@[simp] theorem State.setF_pending (s : State) (x : Reg) (f : Field) (v : Nat) : (s.setF x f v).pending = s.pending := rfl
@[simp] theorem State.setF_free (s : State) (x : Reg) (f : Field) (v : Nat) : (s.setF x f v).free = s.free := rfl
@[simp] theorem State.setF_ns (s : State) (x : Reg) (f : Field) (v : Nat) : (s.setF x f v).ns = s.ns := rfl
@[simp] theorem State.setF_count (s : State) (x : Reg) (f : Field) (v : Nat) : (s.setF x f v).count = s.count := rfl
@[simp] theorem State.setF_mem (s : State) (x : Reg) (f : Field) (v : Nat) : (s.setF x f v).mem = s.mem := rfl
@[simp] theorem State.setF_seqs (s : State) (x : Reg) (f : Field) (v : Nat) : (s.setF x f v).seqs = s.seqs := rfl
@[simp] theorem State.setF_arr (s : State) (x : Reg) (f : Field) (v : Nat) : (s.setF x f v).arr = s.arr := rfl
@[simp] theorem State.setF_cellar (s : State) (x : Reg) (f : Field) (v : Nat) : (s.setF x f v).cellar = s.cellar := rfl
@[simp] theorem State.setF_dma (s : State) (x : Reg) (f : Field) (v : Nat) : (s.setF x f v).dma = s.dma := rfl
@[simp] theorem State.setF_reqs (s : State) (x : Reg) (f : Field) (v : Nat) : (s.setF x f v).reqs = s.reqs := rfl
@[simp] theorem State.setF_inlet (s : State) (x : Reg) (f : Field) (v : Nat) : (s.setF x f v).inlet = s.inlet := rfl
@[simp] theorem State.setF_outJobs (s : State) (x : Reg) (f : Field) (v : Nat) : (s.setF x f v).outJobs = s.outJobs := rfl
@[simp] theorem State.setF_chans (s : State) (x : Reg) (f : Field) (v : Nat) : (s.setF x f v).chans = s.chans := rfl
@[simp] theorem State.setF_gp (s : State) (x : Reg) (f : Field) (v : Nat) : (s.setF x f v).gp = s.gp := rfl
@[simp] theorem State.setF_annex (s : State) (x : Reg) (f : Field) (v : Nat) : (s.setF x f v).annex = s.annex := rfl
@[simp] theorem State.setF_mantel (s : State) (x : Reg) (f : Field) (v : Nat) : (s.setF x f v).mantel = s.mantel := rfl
@[simp] theorem State.setF_link (s : State) (x : Reg) (f : Field) (v : Nat) : (s.setF x f v).link = s.link := rfl
@[simp] theorem State.setF_pcie (s : State) (x : Reg) (f : Field) (v : Nat) : (s.setF x f v).pcie = s.pcie := rfl
@[simp] theorem State.setF_lodge (s : State) (x : Reg) (f : Field) (v : Nat) : (s.setF x f v).lodge = s.lodge := rfl
@[simp] theorem State.setF_power (s : State) (x : Reg) (f : Field) (v : Nat) : (s.setF x f v).power = s.power := rfl
@[simp] theorem State.setF_assay (s : State) (x : Reg) (f : Field) (v : Nat) : (s.setF x f v).assay = s.assay := rfl
@[simp] theorem State.setF_answer (s : State) (x : Reg) (f : Field) (v : Nat) : (s.setF x f v).answer = s.answer := rfl
@[simp] theorem State.setF_verQ (s : State) (x : Reg) (f : Field) (v : Nat) : (s.setF x f v).verQ = s.verQ := rfl
@[simp] theorem State.setF_replies (s : State) (x : Reg) (f : Field) (v : Nat) : (s.setF x f v).replies = s.replies := rfl
@[simp] theorem State.setF_latched (s : State) (x : Reg) (f : Field) (v : Nat) : (s.setF x f v).latched = s.latched := rfl
@[simp] theorem State.setF_fwd (s : State) (x : Reg) (f : Field) (v : Nat) : (s.setF x f v).fwd = s.fwd := rfl
@[simp] theorem State.setF_service (s : State) (x : Reg) (f : Field) (v : Nat) : (s.setF x f v).service = s.service := rfl
@[simp] theorem State.setF_hlock (s : State) (x : Reg) (f : Field) (v : Nat) : (s.setF x f v).hlock = s.hlock := rfl
@[simp] theorem State.setF_lodgeQ (s : State) (x : Reg) (f : Field) (v : Nat) : (s.setF x f v).lodgeQ = s.lodgeQ := rfl

/-! ### modSeq -/

@[simp] theorem State.modSeq_pending (s : State) (h : Fin 4) (f : Seq → Seq) : (s.modSeq h f).pending = s.pending := rfl
@[simp] theorem State.modSeq_free (s : State) (h : Fin 4) (f : Seq → Seq) : (s.modSeq h f).free = s.free := rfl
@[simp] theorem State.modSeq_ns (s : State) (h : Fin 4) (f : Seq → Seq) : (s.modSeq h f).ns = s.ns := rfl
@[simp] theorem State.modSeq_count (s : State) (h : Fin 4) (f : Seq → Seq) : (s.modSeq h f).count = s.count := rfl
@[simp] theorem State.modSeq_regs (s : State) (h : Fin 4) (f : Seq → Seq) : (s.modSeq h f).regs = s.regs := rfl
@[simp] theorem State.modSeq_mem (s : State) (h : Fin 4) (f : Seq → Seq) : (s.modSeq h f).mem = s.mem := rfl
@[simp] theorem State.modSeq_arr (s : State) (h : Fin 4) (f : Seq → Seq) : (s.modSeq h f).arr = s.arr := rfl
@[simp] theorem State.modSeq_cellar (s : State) (h : Fin 4) (f : Seq → Seq) : (s.modSeq h f).cellar = s.cellar := rfl
@[simp] theorem State.modSeq_dma (s : State) (h : Fin 4) (f : Seq → Seq) : (s.modSeq h f).dma = s.dma := rfl
@[simp] theorem State.modSeq_reqs (s : State) (h : Fin 4) (f : Seq → Seq) : (s.modSeq h f).reqs = s.reqs := rfl
@[simp] theorem State.modSeq_inlet (s : State) (h : Fin 4) (f : Seq → Seq) : (s.modSeq h f).inlet = s.inlet := rfl
@[simp] theorem State.modSeq_outJobs (s : State) (h : Fin 4) (f : Seq → Seq) : (s.modSeq h f).outJobs = s.outJobs := rfl
@[simp] theorem State.modSeq_chans (s : State) (h : Fin 4) (f : Seq → Seq) : (s.modSeq h f).chans = s.chans := rfl
@[simp] theorem State.modSeq_gp (s : State) (h : Fin 4) (f : Seq → Seq) : (s.modSeq h f).gp = s.gp := rfl
@[simp] theorem State.modSeq_annex (s : State) (h : Fin 4) (f : Seq → Seq) : (s.modSeq h f).annex = s.annex := rfl
@[simp] theorem State.modSeq_mantel (s : State) (h : Fin 4) (f : Seq → Seq) : (s.modSeq h f).mantel = s.mantel := rfl
@[simp] theorem State.modSeq_link (s : State) (h : Fin 4) (f : Seq → Seq) : (s.modSeq h f).link = s.link := rfl
@[simp] theorem State.modSeq_pcie (s : State) (h : Fin 4) (f : Seq → Seq) : (s.modSeq h f).pcie = s.pcie := rfl
@[simp] theorem State.modSeq_lodge (s : State) (h : Fin 4) (f : Seq → Seq) : (s.modSeq h f).lodge = s.lodge := rfl
@[simp] theorem State.modSeq_power (s : State) (h : Fin 4) (f : Seq → Seq) : (s.modSeq h f).power = s.power := rfl
@[simp] theorem State.modSeq_assay (s : State) (h : Fin 4) (f : Seq → Seq) : (s.modSeq h f).assay = s.assay := rfl
@[simp] theorem State.modSeq_answer (s : State) (h : Fin 4) (f : Seq → Seq) : (s.modSeq h f).answer = s.answer := rfl
@[simp] theorem State.modSeq_verQ (s : State) (h : Fin 4) (f : Seq → Seq) : (s.modSeq h f).verQ = s.verQ := rfl
@[simp] theorem State.modSeq_replies (s : State) (h : Fin 4) (f : Seq → Seq) : (s.modSeq h f).replies = s.replies := rfl
@[simp] theorem State.modSeq_latched (s : State) (h : Fin 4) (f : Seq → Seq) : (s.modSeq h f).latched = s.latched := rfl
@[simp] theorem State.modSeq_fwd (s : State) (h : Fin 4) (f : Seq → Seq) : (s.modSeq h f).fwd = s.fwd := rfl
@[simp] theorem State.modSeq_service (s : State) (h : Fin 4) (f : Seq → Seq) : (s.modSeq h f).service = s.service := rfl
@[simp] theorem State.modSeq_hlock (s : State) (h : Fin 4) (f : Seq → Seq) : (s.modSeq h f).hlock = s.hlock := rfl
@[simp] theorem State.modSeq_lodgeQ (s : State) (h : Fin 4) (f : Seq → Seq) : (s.modSeq h f).lodgeQ = s.lodgeQ := rfl

/-! ### modDma -/

@[simp] theorem State.modDma_pending (s : State) (c : Fin 48) (f : DmaCh → DmaCh) : (s.modDma c f).pending = s.pending := rfl
@[simp] theorem State.modDma_free (s : State) (c : Fin 48) (f : DmaCh → DmaCh) : (s.modDma c f).free = s.free := rfl
@[simp] theorem State.modDma_ns (s : State) (c : Fin 48) (f : DmaCh → DmaCh) : (s.modDma c f).ns = s.ns := rfl
@[simp] theorem State.modDma_count (s : State) (c : Fin 48) (f : DmaCh → DmaCh) : (s.modDma c f).count = s.count := rfl
@[simp] theorem State.modDma_regs (s : State) (c : Fin 48) (f : DmaCh → DmaCh) : (s.modDma c f).regs = s.regs := rfl
@[simp] theorem State.modDma_mem (s : State) (c : Fin 48) (f : DmaCh → DmaCh) : (s.modDma c f).mem = s.mem := rfl
@[simp] theorem State.modDma_seqs (s : State) (c : Fin 48) (f : DmaCh → DmaCh) : (s.modDma c f).seqs = s.seqs := rfl
@[simp] theorem State.modDma_arr (s : State) (c : Fin 48) (f : DmaCh → DmaCh) : (s.modDma c f).arr = s.arr := rfl
@[simp] theorem State.modDma_cellar (s : State) (c : Fin 48) (f : DmaCh → DmaCh) : (s.modDma c f).cellar = s.cellar := rfl
@[simp] theorem State.modDma_reqs (s : State) (c : Fin 48) (f : DmaCh → DmaCh) : (s.modDma c f).reqs = s.reqs := rfl
@[simp] theorem State.modDma_inlet (s : State) (c : Fin 48) (f : DmaCh → DmaCh) : (s.modDma c f).inlet = s.inlet := rfl
@[simp] theorem State.modDma_outJobs (s : State) (c : Fin 48) (f : DmaCh → DmaCh) : (s.modDma c f).outJobs = s.outJobs := rfl
@[simp] theorem State.modDma_chans (s : State) (c : Fin 48) (f : DmaCh → DmaCh) : (s.modDma c f).chans = s.chans := rfl
@[simp] theorem State.modDma_gp (s : State) (c : Fin 48) (f : DmaCh → DmaCh) : (s.modDma c f).gp = s.gp := rfl
@[simp] theorem State.modDma_annex (s : State) (c : Fin 48) (f : DmaCh → DmaCh) : (s.modDma c f).annex = s.annex := rfl
@[simp] theorem State.modDma_mantel (s : State) (c : Fin 48) (f : DmaCh → DmaCh) : (s.modDma c f).mantel = s.mantel := rfl
@[simp] theorem State.modDma_link (s : State) (c : Fin 48) (f : DmaCh → DmaCh) : (s.modDma c f).link = s.link := rfl
@[simp] theorem State.modDma_pcie (s : State) (c : Fin 48) (f : DmaCh → DmaCh) : (s.modDma c f).pcie = s.pcie := rfl
@[simp] theorem State.modDma_lodge (s : State) (c : Fin 48) (f : DmaCh → DmaCh) : (s.modDma c f).lodge = s.lodge := rfl
@[simp] theorem State.modDma_power (s : State) (c : Fin 48) (f : DmaCh → DmaCh) : (s.modDma c f).power = s.power := rfl
@[simp] theorem State.modDma_assay (s : State) (c : Fin 48) (f : DmaCh → DmaCh) : (s.modDma c f).assay = s.assay := rfl
@[simp] theorem State.modDma_answer (s : State) (c : Fin 48) (f : DmaCh → DmaCh) : (s.modDma c f).answer = s.answer := rfl
@[simp] theorem State.modDma_verQ (s : State) (c : Fin 48) (f : DmaCh → DmaCh) : (s.modDma c f).verQ = s.verQ := rfl
@[simp] theorem State.modDma_replies (s : State) (c : Fin 48) (f : DmaCh → DmaCh) : (s.modDma c f).replies = s.replies := rfl
@[simp] theorem State.modDma_latched (s : State) (c : Fin 48) (f : DmaCh → DmaCh) : (s.modDma c f).latched = s.latched := rfl
@[simp] theorem State.modDma_fwd (s : State) (c : Fin 48) (f : DmaCh → DmaCh) : (s.modDma c f).fwd = s.fwd := rfl
@[simp] theorem State.modDma_service (s : State) (c : Fin 48) (f : DmaCh → DmaCh) : (s.modDma c f).service = s.service := rfl
@[simp] theorem State.modDma_hlock (s : State) (c : Fin 48) (f : DmaCh → DmaCh) : (s.modDma c f).hlock = s.hlock := rfl
@[simp] theorem State.modDma_lodgeQ (s : State) (c : Fin 48) (f : DmaCh → DmaCh) : (s.modDma c f).lodgeQ = s.lodgeQ := rfl

/-! ### modPort -/

@[simp] theorem State.modPort_pending (s : State) (k : Fin 6) (f : LinkPort → LinkPort) : (s.modPort k f).pending = s.pending := rfl
@[simp] theorem State.modPort_free (s : State) (k : Fin 6) (f : LinkPort → LinkPort) : (s.modPort k f).free = s.free := rfl
@[simp] theorem State.modPort_ns (s : State) (k : Fin 6) (f : LinkPort → LinkPort) : (s.modPort k f).ns = s.ns := rfl
@[simp] theorem State.modPort_count (s : State) (k : Fin 6) (f : LinkPort → LinkPort) : (s.modPort k f).count = s.count := rfl
@[simp] theorem State.modPort_regs (s : State) (k : Fin 6) (f : LinkPort → LinkPort) : (s.modPort k f).regs = s.regs := rfl
@[simp] theorem State.modPort_mem (s : State) (k : Fin 6) (f : LinkPort → LinkPort) : (s.modPort k f).mem = s.mem := rfl
@[simp] theorem State.modPort_seqs (s : State) (k : Fin 6) (f : LinkPort → LinkPort) : (s.modPort k f).seqs = s.seqs := rfl
@[simp] theorem State.modPort_arr (s : State) (k : Fin 6) (f : LinkPort → LinkPort) : (s.modPort k f).arr = s.arr := rfl
@[simp] theorem State.modPort_cellar (s : State) (k : Fin 6) (f : LinkPort → LinkPort) : (s.modPort k f).cellar = s.cellar := rfl
@[simp] theorem State.modPort_dma (s : State) (k : Fin 6) (f : LinkPort → LinkPort) : (s.modPort k f).dma = s.dma := rfl
@[simp] theorem State.modPort_reqs (s : State) (k : Fin 6) (f : LinkPort → LinkPort) : (s.modPort k f).reqs = s.reqs := rfl
@[simp] theorem State.modPort_inlet (s : State) (k : Fin 6) (f : LinkPort → LinkPort) : (s.modPort k f).inlet = s.inlet := rfl
@[simp] theorem State.modPort_outJobs (s : State) (k : Fin 6) (f : LinkPort → LinkPort) : (s.modPort k f).outJobs = s.outJobs := rfl
@[simp] theorem State.modPort_chans (s : State) (k : Fin 6) (f : LinkPort → LinkPort) : (s.modPort k f).chans = s.chans := rfl
@[simp] theorem State.modPort_gp (s : State) (k : Fin 6) (f : LinkPort → LinkPort) : (s.modPort k f).gp = s.gp := rfl
@[simp] theorem State.modPort_annex (s : State) (k : Fin 6) (f : LinkPort → LinkPort) : (s.modPort k f).annex = s.annex := rfl
@[simp] theorem State.modPort_mantel (s : State) (k : Fin 6) (f : LinkPort → LinkPort) : (s.modPort k f).mantel = s.mantel := rfl
@[simp] theorem State.modPort_pcie (s : State) (k : Fin 6) (f : LinkPort → LinkPort) : (s.modPort k f).pcie = s.pcie := rfl
@[simp] theorem State.modPort_lodge (s : State) (k : Fin 6) (f : LinkPort → LinkPort) : (s.modPort k f).lodge = s.lodge := rfl
@[simp] theorem State.modPort_power (s : State) (k : Fin 6) (f : LinkPort → LinkPort) : (s.modPort k f).power = s.power := rfl
@[simp] theorem State.modPort_assay (s : State) (k : Fin 6) (f : LinkPort → LinkPort) : (s.modPort k f).assay = s.assay := rfl
@[simp] theorem State.modPort_answer (s : State) (k : Fin 6) (f : LinkPort → LinkPort) : (s.modPort k f).answer = s.answer := rfl
@[simp] theorem State.modPort_verQ (s : State) (k : Fin 6) (f : LinkPort → LinkPort) : (s.modPort k f).verQ = s.verQ := rfl
@[simp] theorem State.modPort_replies (s : State) (k : Fin 6) (f : LinkPort → LinkPort) : (s.modPort k f).replies = s.replies := rfl
@[simp] theorem State.modPort_latched (s : State) (k : Fin 6) (f : LinkPort → LinkPort) : (s.modPort k f).latched = s.latched := rfl
@[simp] theorem State.modPort_fwd (s : State) (k : Fin 6) (f : LinkPort → LinkPort) : (s.modPort k f).fwd = s.fwd := rfl
@[simp] theorem State.modPort_service (s : State) (k : Fin 6) (f : LinkPort → LinkPort) : (s.modPort k f).service = s.service := rfl
@[simp] theorem State.modPort_hlock (s : State) (k : Fin 6) (f : LinkPort → LinkPort) : (s.modPort k f).hlock = s.hlock := rfl
@[simp] theorem State.modPort_lodgeQ (s : State) (k : Fin 6) (f : LinkPort → LinkPort) : (s.modPort k f).lodgeQ = s.lodgeQ := rfl

/-! ### modLink -/

@[simp] theorem State.modLink_pending (s : State) (f : Link → Link) : (s.modLink f).pending = s.pending := rfl
@[simp] theorem State.modLink_free (s : State) (f : Link → Link) : (s.modLink f).free = s.free := rfl
@[simp] theorem State.modLink_ns (s : State) (f : Link → Link) : (s.modLink f).ns = s.ns := rfl
@[simp] theorem State.modLink_count (s : State) (f : Link → Link) : (s.modLink f).count = s.count := rfl
@[simp] theorem State.modLink_regs (s : State) (f : Link → Link) : (s.modLink f).regs = s.regs := rfl
@[simp] theorem State.modLink_mem (s : State) (f : Link → Link) : (s.modLink f).mem = s.mem := rfl
@[simp] theorem State.modLink_seqs (s : State) (f : Link → Link) : (s.modLink f).seqs = s.seqs := rfl
@[simp] theorem State.modLink_arr (s : State) (f : Link → Link) : (s.modLink f).arr = s.arr := rfl
@[simp] theorem State.modLink_cellar (s : State) (f : Link → Link) : (s.modLink f).cellar = s.cellar := rfl
@[simp] theorem State.modLink_dma (s : State) (f : Link → Link) : (s.modLink f).dma = s.dma := rfl
@[simp] theorem State.modLink_reqs (s : State) (f : Link → Link) : (s.modLink f).reqs = s.reqs := rfl
@[simp] theorem State.modLink_inlet (s : State) (f : Link → Link) : (s.modLink f).inlet = s.inlet := rfl
@[simp] theorem State.modLink_outJobs (s : State) (f : Link → Link) : (s.modLink f).outJobs = s.outJobs := rfl
@[simp] theorem State.modLink_chans (s : State) (f : Link → Link) : (s.modLink f).chans = s.chans := rfl
@[simp] theorem State.modLink_gp (s : State) (f : Link → Link) : (s.modLink f).gp = s.gp := rfl
@[simp] theorem State.modLink_annex (s : State) (f : Link → Link) : (s.modLink f).annex = s.annex := rfl
@[simp] theorem State.modLink_mantel (s : State) (f : Link → Link) : (s.modLink f).mantel = s.mantel := rfl
@[simp] theorem State.modLink_pcie (s : State) (f : Link → Link) : (s.modLink f).pcie = s.pcie := rfl
@[simp] theorem State.modLink_lodge (s : State) (f : Link → Link) : (s.modLink f).lodge = s.lodge := rfl
@[simp] theorem State.modLink_power (s : State) (f : Link → Link) : (s.modLink f).power = s.power := rfl
@[simp] theorem State.modLink_assay (s : State) (f : Link → Link) : (s.modLink f).assay = s.assay := rfl
@[simp] theorem State.modLink_answer (s : State) (f : Link → Link) : (s.modLink f).answer = s.answer := rfl
@[simp] theorem State.modLink_verQ (s : State) (f : Link → Link) : (s.modLink f).verQ = s.verQ := rfl
@[simp] theorem State.modLink_replies (s : State) (f : Link → Link) : (s.modLink f).replies = s.replies := rfl
@[simp] theorem State.modLink_latched (s : State) (f : Link → Link) : (s.modLink f).latched = s.latched := rfl
@[simp] theorem State.modLink_fwd (s : State) (f : Link → Link) : (s.modLink f).fwd = s.fwd := rfl
@[simp] theorem State.modLink_service (s : State) (f : Link → Link) : (s.modLink f).service = s.service := rfl
@[simp] theorem State.modLink_hlock (s : State) (f : Link → Link) : (s.modLink f).hlock = s.hlock := rfl
@[simp] theorem State.modLink_lodgeQ (s : State) (f : Link → Link) : (s.modLink f).lodgeQ = s.lodgeQ := rfl

/-! ### modAssay -/

@[simp] theorem State.modAssay_pending (s : State) (f : Assay → Assay) : (s.modAssay f).pending = s.pending := rfl
@[simp] theorem State.modAssay_free (s : State) (f : Assay → Assay) : (s.modAssay f).free = s.free := rfl
@[simp] theorem State.modAssay_ns (s : State) (f : Assay → Assay) : (s.modAssay f).ns = s.ns := rfl
@[simp] theorem State.modAssay_count (s : State) (f : Assay → Assay) : (s.modAssay f).count = s.count := rfl
@[simp] theorem State.modAssay_regs (s : State) (f : Assay → Assay) : (s.modAssay f).regs = s.regs := rfl
@[simp] theorem State.modAssay_mem (s : State) (f : Assay → Assay) : (s.modAssay f).mem = s.mem := rfl
@[simp] theorem State.modAssay_seqs (s : State) (f : Assay → Assay) : (s.modAssay f).seqs = s.seqs := rfl
@[simp] theorem State.modAssay_arr (s : State) (f : Assay → Assay) : (s.modAssay f).arr = s.arr := rfl
@[simp] theorem State.modAssay_cellar (s : State) (f : Assay → Assay) : (s.modAssay f).cellar = s.cellar := rfl
@[simp] theorem State.modAssay_dma (s : State) (f : Assay → Assay) : (s.modAssay f).dma = s.dma := rfl
@[simp] theorem State.modAssay_reqs (s : State) (f : Assay → Assay) : (s.modAssay f).reqs = s.reqs := rfl
@[simp] theorem State.modAssay_inlet (s : State) (f : Assay → Assay) : (s.modAssay f).inlet = s.inlet := rfl
@[simp] theorem State.modAssay_outJobs (s : State) (f : Assay → Assay) : (s.modAssay f).outJobs = s.outJobs := rfl
@[simp] theorem State.modAssay_chans (s : State) (f : Assay → Assay) : (s.modAssay f).chans = s.chans := rfl
@[simp] theorem State.modAssay_gp (s : State) (f : Assay → Assay) : (s.modAssay f).gp = s.gp := rfl
@[simp] theorem State.modAssay_annex (s : State) (f : Assay → Assay) : (s.modAssay f).annex = s.annex := rfl
@[simp] theorem State.modAssay_mantel (s : State) (f : Assay → Assay) : (s.modAssay f).mantel = s.mantel := rfl
@[simp] theorem State.modAssay_link (s : State) (f : Assay → Assay) : (s.modAssay f).link = s.link := rfl
@[simp] theorem State.modAssay_pcie (s : State) (f : Assay → Assay) : (s.modAssay f).pcie = s.pcie := rfl
@[simp] theorem State.modAssay_lodge (s : State) (f : Assay → Assay) : (s.modAssay f).lodge = s.lodge := rfl
@[simp] theorem State.modAssay_power (s : State) (f : Assay → Assay) : (s.modAssay f).power = s.power := rfl
@[simp] theorem State.modAssay_answer (s : State) (f : Assay → Assay) : (s.modAssay f).answer = s.answer := rfl
@[simp] theorem State.modAssay_verQ (s : State) (f : Assay → Assay) : (s.modAssay f).verQ = s.verQ := rfl
@[simp] theorem State.modAssay_replies (s : State) (f : Assay → Assay) : (s.modAssay f).replies = s.replies := rfl
@[simp] theorem State.modAssay_latched (s : State) (f : Assay → Assay) : (s.modAssay f).latched = s.latched := rfl
@[simp] theorem State.modAssay_fwd (s : State) (f : Assay → Assay) : (s.modAssay f).fwd = s.fwd := rfl
@[simp] theorem State.modAssay_service (s : State) (f : Assay → Assay) : (s.modAssay f).service = s.service := rfl
@[simp] theorem State.modAssay_hlock (s : State) (f : Assay → Assay) : (s.modAssay f).hlock = s.hlock := rfl
@[simp] theorem State.modAssay_lodgeQ (s : State) (f : Assay → Assay) : (s.modAssay f).lodgeQ = s.lodgeQ := rfl

/-! ### modPcie -/

@[simp] theorem State.modPcie_pending (s : State) (f : Pcie → Pcie) : (s.modPcie f).pending = s.pending := rfl
@[simp] theorem State.modPcie_free (s : State) (f : Pcie → Pcie) : (s.modPcie f).free = s.free := rfl
@[simp] theorem State.modPcie_ns (s : State) (f : Pcie → Pcie) : (s.modPcie f).ns = s.ns := rfl
@[simp] theorem State.modPcie_count (s : State) (f : Pcie → Pcie) : (s.modPcie f).count = s.count := rfl
@[simp] theorem State.modPcie_regs (s : State) (f : Pcie → Pcie) : (s.modPcie f).regs = s.regs := rfl
@[simp] theorem State.modPcie_mem (s : State) (f : Pcie → Pcie) : (s.modPcie f).mem = s.mem := rfl
@[simp] theorem State.modPcie_seqs (s : State) (f : Pcie → Pcie) : (s.modPcie f).seqs = s.seqs := rfl
@[simp] theorem State.modPcie_arr (s : State) (f : Pcie → Pcie) : (s.modPcie f).arr = s.arr := rfl
@[simp] theorem State.modPcie_cellar (s : State) (f : Pcie → Pcie) : (s.modPcie f).cellar = s.cellar := rfl
@[simp] theorem State.modPcie_dma (s : State) (f : Pcie → Pcie) : (s.modPcie f).dma = s.dma := rfl
@[simp] theorem State.modPcie_reqs (s : State) (f : Pcie → Pcie) : (s.modPcie f).reqs = s.reqs := rfl
@[simp] theorem State.modPcie_inlet (s : State) (f : Pcie → Pcie) : (s.modPcie f).inlet = s.inlet := rfl
@[simp] theorem State.modPcie_outJobs (s : State) (f : Pcie → Pcie) : (s.modPcie f).outJobs = s.outJobs := rfl
@[simp] theorem State.modPcie_chans (s : State) (f : Pcie → Pcie) : (s.modPcie f).chans = s.chans := rfl
@[simp] theorem State.modPcie_gp (s : State) (f : Pcie → Pcie) : (s.modPcie f).gp = s.gp := rfl
@[simp] theorem State.modPcie_annex (s : State) (f : Pcie → Pcie) : (s.modPcie f).annex = s.annex := rfl
@[simp] theorem State.modPcie_mantel (s : State) (f : Pcie → Pcie) : (s.modPcie f).mantel = s.mantel := rfl
@[simp] theorem State.modPcie_link (s : State) (f : Pcie → Pcie) : (s.modPcie f).link = s.link := rfl
@[simp] theorem State.modPcie_lodge (s : State) (f : Pcie → Pcie) : (s.modPcie f).lodge = s.lodge := rfl
@[simp] theorem State.modPcie_power (s : State) (f : Pcie → Pcie) : (s.modPcie f).power = s.power := rfl
@[simp] theorem State.modPcie_assay (s : State) (f : Pcie → Pcie) : (s.modPcie f).assay = s.assay := rfl
@[simp] theorem State.modPcie_answer (s : State) (f : Pcie → Pcie) : (s.modPcie f).answer = s.answer := rfl
@[simp] theorem State.modPcie_verQ (s : State) (f : Pcie → Pcie) : (s.modPcie f).verQ = s.verQ := rfl
@[simp] theorem State.modPcie_replies (s : State) (f : Pcie → Pcie) : (s.modPcie f).replies = s.replies := rfl
@[simp] theorem State.modPcie_latched (s : State) (f : Pcie → Pcie) : (s.modPcie f).latched = s.latched := rfl
@[simp] theorem State.modPcie_fwd (s : State) (f : Pcie → Pcie) : (s.modPcie f).fwd = s.fwd := rfl
@[simp] theorem State.modPcie_service (s : State) (f : Pcie → Pcie) : (s.modPcie f).service = s.service := rfl
@[simp] theorem State.modPcie_hlock (s : State) (f : Pcie → Pcie) : (s.modPcie f).hlock = s.hlock := rfl
@[simp] theorem State.modPcie_lodgeQ (s : State) (f : Pcie → Pcie) : (s.modPcie f).lodgeQ = s.lodgeQ := rfl

/-! ### modChan -/

@[simp] theorem State.modChan_pending (s : State) (n : Fin 512) (f : PorchCh → PorchCh) : (s.modChan n f).pending = s.pending := rfl
@[simp] theorem State.modChan_free (s : State) (n : Fin 512) (f : PorchCh → PorchCh) : (s.modChan n f).free = s.free := rfl
@[simp] theorem State.modChan_ns (s : State) (n : Fin 512) (f : PorchCh → PorchCh) : (s.modChan n f).ns = s.ns := rfl
@[simp] theorem State.modChan_count (s : State) (n : Fin 512) (f : PorchCh → PorchCh) : (s.modChan n f).count = s.count := rfl
@[simp] theorem State.modChan_regs (s : State) (n : Fin 512) (f : PorchCh → PorchCh) : (s.modChan n f).regs = s.regs := rfl
@[simp] theorem State.modChan_mem (s : State) (n : Fin 512) (f : PorchCh → PorchCh) : (s.modChan n f).mem = s.mem := rfl
@[simp] theorem State.modChan_seqs (s : State) (n : Fin 512) (f : PorchCh → PorchCh) : (s.modChan n f).seqs = s.seqs := rfl
@[simp] theorem State.modChan_arr (s : State) (n : Fin 512) (f : PorchCh → PorchCh) : (s.modChan n f).arr = s.arr := rfl
@[simp] theorem State.modChan_cellar (s : State) (n : Fin 512) (f : PorchCh → PorchCh) : (s.modChan n f).cellar = s.cellar := rfl
@[simp] theorem State.modChan_dma (s : State) (n : Fin 512) (f : PorchCh → PorchCh) : (s.modChan n f).dma = s.dma := rfl
@[simp] theorem State.modChan_reqs (s : State) (n : Fin 512) (f : PorchCh → PorchCh) : (s.modChan n f).reqs = s.reqs := rfl
@[simp] theorem State.modChan_inlet (s : State) (n : Fin 512) (f : PorchCh → PorchCh) : (s.modChan n f).inlet = s.inlet := rfl
@[simp] theorem State.modChan_outJobs (s : State) (n : Fin 512) (f : PorchCh → PorchCh) : (s.modChan n f).outJobs = s.outJobs := rfl
@[simp] theorem State.modChan_gp (s : State) (n : Fin 512) (f : PorchCh → PorchCh) : (s.modChan n f).gp = s.gp := rfl
@[simp] theorem State.modChan_annex (s : State) (n : Fin 512) (f : PorchCh → PorchCh) : (s.modChan n f).annex = s.annex := rfl
@[simp] theorem State.modChan_mantel (s : State) (n : Fin 512) (f : PorchCh → PorchCh) : (s.modChan n f).mantel = s.mantel := rfl
@[simp] theorem State.modChan_link (s : State) (n : Fin 512) (f : PorchCh → PorchCh) : (s.modChan n f).link = s.link := rfl
@[simp] theorem State.modChan_pcie (s : State) (n : Fin 512) (f : PorchCh → PorchCh) : (s.modChan n f).pcie = s.pcie := rfl
@[simp] theorem State.modChan_lodge (s : State) (n : Fin 512) (f : PorchCh → PorchCh) : (s.modChan n f).lodge = s.lodge := rfl
@[simp] theorem State.modChan_power (s : State) (n : Fin 512) (f : PorchCh → PorchCh) : (s.modChan n f).power = s.power := rfl
@[simp] theorem State.modChan_assay (s : State) (n : Fin 512) (f : PorchCh → PorchCh) : (s.modChan n f).assay = s.assay := rfl
@[simp] theorem State.modChan_answer (s : State) (n : Fin 512) (f : PorchCh → PorchCh) : (s.modChan n f).answer = s.answer := rfl
@[simp] theorem State.modChan_verQ (s : State) (n : Fin 512) (f : PorchCh → PorchCh) : (s.modChan n f).verQ = s.verQ := rfl
@[simp] theorem State.modChan_replies (s : State) (n : Fin 512) (f : PorchCh → PorchCh) : (s.modChan n f).replies = s.replies := rfl
@[simp] theorem State.modChan_latched (s : State) (n : Fin 512) (f : PorchCh → PorchCh) : (s.modChan n f).latched = s.latched := rfl
@[simp] theorem State.modChan_fwd (s : State) (n : Fin 512) (f : PorchCh → PorchCh) : (s.modChan n f).fwd = s.fwd := rfl
@[simp] theorem State.modChan_service (s : State) (n : Fin 512) (f : PorchCh → PorchCh) : (s.modChan n f).service = s.service := rfl
@[simp] theorem State.modChan_hlock (s : State) (n : Fin 512) (f : PorchCh → PorchCh) : (s.modChan n f).hlock = s.hlock := rfl
@[simp] theorem State.modChan_lodgeQ (s : State) (n : Fin 512) (f : PorchCh → PorchCh) : (s.modChan n f).lodgeQ = s.lodgeQ := rfl

/-! ### modInl -/

@[simp] theorem State.modInl_pending (s : State) (w : Fin 8) (f : Inlet → Inlet) : (s.modInl w f).pending = s.pending := rfl
@[simp] theorem State.modInl_free (s : State) (w : Fin 8) (f : Inlet → Inlet) : (s.modInl w f).free = s.free := rfl
@[simp] theorem State.modInl_ns (s : State) (w : Fin 8) (f : Inlet → Inlet) : (s.modInl w f).ns = s.ns := rfl
@[simp] theorem State.modInl_count (s : State) (w : Fin 8) (f : Inlet → Inlet) : (s.modInl w f).count = s.count := rfl
@[simp] theorem State.modInl_regs (s : State) (w : Fin 8) (f : Inlet → Inlet) : (s.modInl w f).regs = s.regs := rfl
@[simp] theorem State.modInl_mem (s : State) (w : Fin 8) (f : Inlet → Inlet) : (s.modInl w f).mem = s.mem := rfl
@[simp] theorem State.modInl_seqs (s : State) (w : Fin 8) (f : Inlet → Inlet) : (s.modInl w f).seqs = s.seqs := rfl
@[simp] theorem State.modInl_arr (s : State) (w : Fin 8) (f : Inlet → Inlet) : (s.modInl w f).arr = s.arr := rfl
@[simp] theorem State.modInl_cellar (s : State) (w : Fin 8) (f : Inlet → Inlet) : (s.modInl w f).cellar = s.cellar := rfl
@[simp] theorem State.modInl_dma (s : State) (w : Fin 8) (f : Inlet → Inlet) : (s.modInl w f).dma = s.dma := rfl
@[simp] theorem State.modInl_reqs (s : State) (w : Fin 8) (f : Inlet → Inlet) : (s.modInl w f).reqs = s.reqs := rfl
@[simp] theorem State.modInl_outJobs (s : State) (w : Fin 8) (f : Inlet → Inlet) : (s.modInl w f).outJobs = s.outJobs := rfl
@[simp] theorem State.modInl_chans (s : State) (w : Fin 8) (f : Inlet → Inlet) : (s.modInl w f).chans = s.chans := rfl
@[simp] theorem State.modInl_gp (s : State) (w : Fin 8) (f : Inlet → Inlet) : (s.modInl w f).gp = s.gp := rfl
@[simp] theorem State.modInl_annex (s : State) (w : Fin 8) (f : Inlet → Inlet) : (s.modInl w f).annex = s.annex := rfl
@[simp] theorem State.modInl_mantel (s : State) (w : Fin 8) (f : Inlet → Inlet) : (s.modInl w f).mantel = s.mantel := rfl
@[simp] theorem State.modInl_link (s : State) (w : Fin 8) (f : Inlet → Inlet) : (s.modInl w f).link = s.link := rfl
@[simp] theorem State.modInl_pcie (s : State) (w : Fin 8) (f : Inlet → Inlet) : (s.modInl w f).pcie = s.pcie := rfl
@[simp] theorem State.modInl_lodge (s : State) (w : Fin 8) (f : Inlet → Inlet) : (s.modInl w f).lodge = s.lodge := rfl
@[simp] theorem State.modInl_power (s : State) (w : Fin 8) (f : Inlet → Inlet) : (s.modInl w f).power = s.power := rfl
@[simp] theorem State.modInl_assay (s : State) (w : Fin 8) (f : Inlet → Inlet) : (s.modInl w f).assay = s.assay := rfl
@[simp] theorem State.modInl_answer (s : State) (w : Fin 8) (f : Inlet → Inlet) : (s.modInl w f).answer = s.answer := rfl
@[simp] theorem State.modInl_verQ (s : State) (w : Fin 8) (f : Inlet → Inlet) : (s.modInl w f).verQ = s.verQ := rfl
@[simp] theorem State.modInl_replies (s : State) (w : Fin 8) (f : Inlet → Inlet) : (s.modInl w f).replies = s.replies := rfl
@[simp] theorem State.modInl_latched (s : State) (w : Fin 8) (f : Inlet → Inlet) : (s.modInl w f).latched = s.latched := rfl
@[simp] theorem State.modInl_fwd (s : State) (w : Fin 8) (f : Inlet → Inlet) : (s.modInl w f).fwd = s.fwd := rfl
@[simp] theorem State.modInl_service (s : State) (w : Fin 8) (f : Inlet → Inlet) : (s.modInl w f).service = s.service := rfl
@[simp] theorem State.modInl_hlock (s : State) (w : Fin 8) (f : Inlet → Inlet) : (s.modInl w f).hlock = s.hlock := rfl
@[simp] theorem State.modInl_lodgeQ (s : State) (w : Fin 8) (f : Inlet → Inlet) : (s.modInl w f).lodgeQ = s.lodgeQ := rfl

/-! ### modAnnex -/

@[simp] theorem State.modAnnex_pending (s : State) (f : Annex → Annex) : (s.modAnnex f).pending = s.pending := rfl
@[simp] theorem State.modAnnex_free (s : State) (f : Annex → Annex) : (s.modAnnex f).free = s.free := rfl
@[simp] theorem State.modAnnex_ns (s : State) (f : Annex → Annex) : (s.modAnnex f).ns = s.ns := rfl
@[simp] theorem State.modAnnex_count (s : State) (f : Annex → Annex) : (s.modAnnex f).count = s.count := rfl
@[simp] theorem State.modAnnex_regs (s : State) (f : Annex → Annex) : (s.modAnnex f).regs = s.regs := rfl
@[simp] theorem State.modAnnex_mem (s : State) (f : Annex → Annex) : (s.modAnnex f).mem = s.mem := rfl
@[simp] theorem State.modAnnex_seqs (s : State) (f : Annex → Annex) : (s.modAnnex f).seqs = s.seqs := rfl
@[simp] theorem State.modAnnex_arr (s : State) (f : Annex → Annex) : (s.modAnnex f).arr = s.arr := rfl
@[simp] theorem State.modAnnex_cellar (s : State) (f : Annex → Annex) : (s.modAnnex f).cellar = s.cellar := rfl
@[simp] theorem State.modAnnex_dma (s : State) (f : Annex → Annex) : (s.modAnnex f).dma = s.dma := rfl
@[simp] theorem State.modAnnex_reqs (s : State) (f : Annex → Annex) : (s.modAnnex f).reqs = s.reqs := rfl
@[simp] theorem State.modAnnex_inlet (s : State) (f : Annex → Annex) : (s.modAnnex f).inlet = s.inlet := rfl
@[simp] theorem State.modAnnex_outJobs (s : State) (f : Annex → Annex) : (s.modAnnex f).outJobs = s.outJobs := rfl
@[simp] theorem State.modAnnex_chans (s : State) (f : Annex → Annex) : (s.modAnnex f).chans = s.chans := rfl
@[simp] theorem State.modAnnex_gp (s : State) (f : Annex → Annex) : (s.modAnnex f).gp = s.gp := rfl
@[simp] theorem State.modAnnex_mantel (s : State) (f : Annex → Annex) : (s.modAnnex f).mantel = s.mantel := rfl
@[simp] theorem State.modAnnex_link (s : State) (f : Annex → Annex) : (s.modAnnex f).link = s.link := rfl
@[simp] theorem State.modAnnex_pcie (s : State) (f : Annex → Annex) : (s.modAnnex f).pcie = s.pcie := rfl
@[simp] theorem State.modAnnex_lodge (s : State) (f : Annex → Annex) : (s.modAnnex f).lodge = s.lodge := rfl
@[simp] theorem State.modAnnex_power (s : State) (f : Annex → Annex) : (s.modAnnex f).power = s.power := rfl
@[simp] theorem State.modAnnex_assay (s : State) (f : Annex → Annex) : (s.modAnnex f).assay = s.assay := rfl
@[simp] theorem State.modAnnex_answer (s : State) (f : Annex → Annex) : (s.modAnnex f).answer = s.answer := rfl
@[simp] theorem State.modAnnex_verQ (s : State) (f : Annex → Annex) : (s.modAnnex f).verQ = s.verQ := rfl
@[simp] theorem State.modAnnex_replies (s : State) (f : Annex → Annex) : (s.modAnnex f).replies = s.replies := rfl
@[simp] theorem State.modAnnex_latched (s : State) (f : Annex → Annex) : (s.modAnnex f).latched = s.latched := rfl
@[simp] theorem State.modAnnex_fwd (s : State) (f : Annex → Annex) : (s.modAnnex f).fwd = s.fwd := rfl
@[simp] theorem State.modAnnex_service (s : State) (f : Annex → Annex) : (s.modAnnex f).service = s.service := rfl
@[simp] theorem State.modAnnex_hlock (s : State) (f : Annex → Annex) : (s.modAnnex f).hlock = s.hlock := rfl
@[simp] theorem State.modAnnex_lodgeQ (s : State) (f : Annex → Annex) : (s.modAnnex f).lodgeQ = s.lodgeQ := rfl

/-! ### modPower -/

@[simp] theorem State.modPower_pending (s : State) (f : Power → Power) : (s.modPower f).pending = s.pending := rfl
@[simp] theorem State.modPower_free (s : State) (f : Power → Power) : (s.modPower f).free = s.free := rfl
@[simp] theorem State.modPower_ns (s : State) (f : Power → Power) : (s.modPower f).ns = s.ns := rfl
@[simp] theorem State.modPower_count (s : State) (f : Power → Power) : (s.modPower f).count = s.count := rfl
@[simp] theorem State.modPower_regs (s : State) (f : Power → Power) : (s.modPower f).regs = s.regs := rfl
@[simp] theorem State.modPower_mem (s : State) (f : Power → Power) : (s.modPower f).mem = s.mem := rfl
@[simp] theorem State.modPower_seqs (s : State) (f : Power → Power) : (s.modPower f).seqs = s.seqs := rfl
@[simp] theorem State.modPower_arr (s : State) (f : Power → Power) : (s.modPower f).arr = s.arr := rfl
@[simp] theorem State.modPower_cellar (s : State) (f : Power → Power) : (s.modPower f).cellar = s.cellar := rfl
@[simp] theorem State.modPower_dma (s : State) (f : Power → Power) : (s.modPower f).dma = s.dma := rfl
@[simp] theorem State.modPower_reqs (s : State) (f : Power → Power) : (s.modPower f).reqs = s.reqs := rfl
@[simp] theorem State.modPower_inlet (s : State) (f : Power → Power) : (s.modPower f).inlet = s.inlet := rfl
@[simp] theorem State.modPower_outJobs (s : State) (f : Power → Power) : (s.modPower f).outJobs = s.outJobs := rfl
@[simp] theorem State.modPower_chans (s : State) (f : Power → Power) : (s.modPower f).chans = s.chans := rfl
@[simp] theorem State.modPower_gp (s : State) (f : Power → Power) : (s.modPower f).gp = s.gp := rfl
@[simp] theorem State.modPower_annex (s : State) (f : Power → Power) : (s.modPower f).annex = s.annex := rfl
@[simp] theorem State.modPower_mantel (s : State) (f : Power → Power) : (s.modPower f).mantel = s.mantel := rfl
@[simp] theorem State.modPower_link (s : State) (f : Power → Power) : (s.modPower f).link = s.link := rfl
@[simp] theorem State.modPower_pcie (s : State) (f : Power → Power) : (s.modPower f).pcie = s.pcie := rfl
@[simp] theorem State.modPower_lodge (s : State) (f : Power → Power) : (s.modPower f).lodge = s.lodge := rfl
@[simp] theorem State.modPower_assay (s : State) (f : Power → Power) : (s.modPower f).assay = s.assay := rfl
@[simp] theorem State.modPower_answer (s : State) (f : Power → Power) : (s.modPower f).answer = s.answer := rfl
@[simp] theorem State.modPower_verQ (s : State) (f : Power → Power) : (s.modPower f).verQ = s.verQ := rfl
@[simp] theorem State.modPower_replies (s : State) (f : Power → Power) : (s.modPower f).replies = s.replies := rfl
@[simp] theorem State.modPower_latched (s : State) (f : Power → Power) : (s.modPower f).latched = s.latched := rfl
@[simp] theorem State.modPower_fwd (s : State) (f : Power → Power) : (s.modPower f).fwd = s.fwd := rfl
@[simp] theorem State.modPower_service (s : State) (f : Power → Power) : (s.modPower f).service = s.service := rfl
@[simp] theorem State.modPower_hlock (s : State) (f : Power → Power) : (s.modPower f).hlock = s.hlock := rfl
@[simp] theorem State.modPower_lodgeQ (s : State) (f : Power → Power) : (s.modPower f).lodgeQ = s.lodgeQ := rfl

/-! ### setMemByte -/

@[simp] theorem State.setMemByte_pending (s : State) (a : Nat) (b : Byte) : (s.setMemByte a b).pending = s.pending := rfl
@[simp] theorem State.setMemByte_free (s : State) (a : Nat) (b : Byte) : (s.setMemByte a b).free = s.free := rfl
@[simp] theorem State.setMemByte_ns (s : State) (a : Nat) (b : Byte) : (s.setMemByte a b).ns = s.ns := rfl
@[simp] theorem State.setMemByte_count (s : State) (a : Nat) (b : Byte) : (s.setMemByte a b).count = s.count := rfl
@[simp] theorem State.setMemByte_regs (s : State) (a : Nat) (b : Byte) : (s.setMemByte a b).regs = s.regs := rfl
@[simp] theorem State.setMemByte_seqs (s : State) (a : Nat) (b : Byte) : (s.setMemByte a b).seqs = s.seqs := rfl
@[simp] theorem State.setMemByte_arr (s : State) (a : Nat) (b : Byte) : (s.setMemByte a b).arr = s.arr := rfl
@[simp] theorem State.setMemByte_cellar (s : State) (a : Nat) (b : Byte) : (s.setMemByte a b).cellar = s.cellar := rfl
@[simp] theorem State.setMemByte_dma (s : State) (a : Nat) (b : Byte) : (s.setMemByte a b).dma = s.dma := rfl
@[simp] theorem State.setMemByte_reqs (s : State) (a : Nat) (b : Byte) : (s.setMemByte a b).reqs = s.reqs := rfl
@[simp] theorem State.setMemByte_inlet (s : State) (a : Nat) (b : Byte) : (s.setMemByte a b).inlet = s.inlet := rfl
@[simp] theorem State.setMemByte_outJobs (s : State) (a : Nat) (b : Byte) : (s.setMemByte a b).outJobs = s.outJobs := rfl
@[simp] theorem State.setMemByte_chans (s : State) (a : Nat) (b : Byte) : (s.setMemByte a b).chans = s.chans := rfl
@[simp] theorem State.setMemByte_gp (s : State) (a : Nat) (b : Byte) : (s.setMemByte a b).gp = s.gp := rfl
@[simp] theorem State.setMemByte_annex (s : State) (a : Nat) (b : Byte) : (s.setMemByte a b).annex = s.annex := rfl
@[simp] theorem State.setMemByte_mantel (s : State) (a : Nat) (b : Byte) : (s.setMemByte a b).mantel = s.mantel := rfl
@[simp] theorem State.setMemByte_link (s : State) (a : Nat) (b : Byte) : (s.setMemByte a b).link = s.link := rfl
@[simp] theorem State.setMemByte_pcie (s : State) (a : Nat) (b : Byte) : (s.setMemByte a b).pcie = s.pcie := rfl
@[simp] theorem State.setMemByte_lodge (s : State) (a : Nat) (b : Byte) : (s.setMemByte a b).lodge = s.lodge := rfl
@[simp] theorem State.setMemByte_power (s : State) (a : Nat) (b : Byte) : (s.setMemByte a b).power = s.power := rfl
@[simp] theorem State.setMemByte_assay (s : State) (a : Nat) (b : Byte) : (s.setMemByte a b).assay = s.assay := rfl
@[simp] theorem State.setMemByte_answer (s : State) (a : Nat) (b : Byte) : (s.setMemByte a b).answer = s.answer := rfl
@[simp] theorem State.setMemByte_verQ (s : State) (a : Nat) (b : Byte) : (s.setMemByte a b).verQ = s.verQ := rfl
@[simp] theorem State.setMemByte_replies (s : State) (a : Nat) (b : Byte) : (s.setMemByte a b).replies = s.replies := rfl
@[simp] theorem State.setMemByte_latched (s : State) (a : Nat) (b : Byte) : (s.setMemByte a b).latched = s.latched := rfl
@[simp] theorem State.setMemByte_fwd (s : State) (a : Nat) (b : Byte) : (s.setMemByte a b).fwd = s.fwd := rfl
@[simp] theorem State.setMemByte_service (s : State) (a : Nat) (b : Byte) : (s.setMemByte a b).service = s.service := rfl
@[simp] theorem State.setMemByte_hlock (s : State) (a : Nat) (b : Byte) : (s.setMemByte a b).hlock = s.hlock := rfl
@[simp] theorem State.setMemByte_lodgeQ (s : State) (a : Nat) (b : Byte) : (s.setMemByte a b).lodgeQ = s.lodgeQ := rfl

/-! ### setMemBytes -/

theorem State.setMemBytes_frame (s : State) (a : Nat) (l : List Byte) :
    s.setMemBytes a l = { s with mem := (s.setMemBytes a l).mem } := by
  induction l generalizing s a with
  | nil => rfl
  | cons b bs ih =>
    have h := ih (s.setMemByte a b) (a + 1)
    rw [State.setMemBytes, h]
    rfl

@[simp] theorem State.setMemBytes_pending (s : State) (a : Nat) (l : List Byte) : (s.setMemBytes a l).pending = s.pending := by
  rw [State.setMemBytes_frame]
@[simp] theorem State.setMemBytes_free (s : State) (a : Nat) (l : List Byte) : (s.setMemBytes a l).free = s.free := by
  rw [State.setMemBytes_frame]
@[simp] theorem State.setMemBytes_ns (s : State) (a : Nat) (l : List Byte) : (s.setMemBytes a l).ns = s.ns := by
  rw [State.setMemBytes_frame]
@[simp] theorem State.setMemBytes_count (s : State) (a : Nat) (l : List Byte) : (s.setMemBytes a l).count = s.count := by
  rw [State.setMemBytes_frame]
@[simp] theorem State.setMemBytes_regs (s : State) (a : Nat) (l : List Byte) : (s.setMemBytes a l).regs = s.regs := by
  rw [State.setMemBytes_frame]
@[simp] theorem State.setMemBytes_seqs (s : State) (a : Nat) (l : List Byte) : (s.setMemBytes a l).seqs = s.seqs := by
  rw [State.setMemBytes_frame]
@[simp] theorem State.setMemBytes_arr (s : State) (a : Nat) (l : List Byte) : (s.setMemBytes a l).arr = s.arr := by
  rw [State.setMemBytes_frame]
@[simp] theorem State.setMemBytes_cellar (s : State) (a : Nat) (l : List Byte) : (s.setMemBytes a l).cellar = s.cellar := by
  rw [State.setMemBytes_frame]
@[simp] theorem State.setMemBytes_dma (s : State) (a : Nat) (l : List Byte) : (s.setMemBytes a l).dma = s.dma := by
  rw [State.setMemBytes_frame]
@[simp] theorem State.setMemBytes_reqs (s : State) (a : Nat) (l : List Byte) : (s.setMemBytes a l).reqs = s.reqs := by
  rw [State.setMemBytes_frame]
@[simp] theorem State.setMemBytes_inlet (s : State) (a : Nat) (l : List Byte) : (s.setMemBytes a l).inlet = s.inlet := by
  rw [State.setMemBytes_frame]
@[simp] theorem State.setMemBytes_outJobs (s : State) (a : Nat) (l : List Byte) : (s.setMemBytes a l).outJobs = s.outJobs := by
  rw [State.setMemBytes_frame]
@[simp] theorem State.setMemBytes_chans (s : State) (a : Nat) (l : List Byte) : (s.setMemBytes a l).chans = s.chans := by
  rw [State.setMemBytes_frame]
@[simp] theorem State.setMemBytes_gp (s : State) (a : Nat) (l : List Byte) : (s.setMemBytes a l).gp = s.gp := by
  rw [State.setMemBytes_frame]
@[simp] theorem State.setMemBytes_annex (s : State) (a : Nat) (l : List Byte) : (s.setMemBytes a l).annex = s.annex := by
  rw [State.setMemBytes_frame]
@[simp] theorem State.setMemBytes_mantel (s : State) (a : Nat) (l : List Byte) : (s.setMemBytes a l).mantel = s.mantel := by
  rw [State.setMemBytes_frame]
@[simp] theorem State.setMemBytes_link (s : State) (a : Nat) (l : List Byte) : (s.setMemBytes a l).link = s.link := by
  rw [State.setMemBytes_frame]
@[simp] theorem State.setMemBytes_pcie (s : State) (a : Nat) (l : List Byte) : (s.setMemBytes a l).pcie = s.pcie := by
  rw [State.setMemBytes_frame]
@[simp] theorem State.setMemBytes_lodge (s : State) (a : Nat) (l : List Byte) : (s.setMemBytes a l).lodge = s.lodge := by
  rw [State.setMemBytes_frame]
@[simp] theorem State.setMemBytes_power (s : State) (a : Nat) (l : List Byte) : (s.setMemBytes a l).power = s.power := by
  rw [State.setMemBytes_frame]
@[simp] theorem State.setMemBytes_assay (s : State) (a : Nat) (l : List Byte) : (s.setMemBytes a l).assay = s.assay := by
  rw [State.setMemBytes_frame]
@[simp] theorem State.setMemBytes_answer (s : State) (a : Nat) (l : List Byte) : (s.setMemBytes a l).answer = s.answer := by
  rw [State.setMemBytes_frame]
@[simp] theorem State.setMemBytes_verQ (s : State) (a : Nat) (l : List Byte) : (s.setMemBytes a l).verQ = s.verQ := by
  rw [State.setMemBytes_frame]
@[simp] theorem State.setMemBytes_replies (s : State) (a : Nat) (l : List Byte) : (s.setMemBytes a l).replies = s.replies := by
  rw [State.setMemBytes_frame]
@[simp] theorem State.setMemBytes_latched (s : State) (a : Nat) (l : List Byte) : (s.setMemBytes a l).latched = s.latched := by
  rw [State.setMemBytes_frame]
@[simp] theorem State.setMemBytes_fwd (s : State) (a : Nat) (l : List Byte) : (s.setMemBytes a l).fwd = s.fwd := by
  rw [State.setMemBytes_frame]
@[simp] theorem State.setMemBytes_service (s : State) (a : Nat) (l : List Byte) : (s.setMemBytes a l).service = s.service := by
  rw [State.setMemBytes_frame]
@[simp] theorem State.setMemBytes_hlock (s : State) (a : Nat) (l : List Byte) : (s.setMemBytes a l).hlock = s.hlock := by
  rw [State.setMemBytes_frame]
@[simp] theorem State.setMemBytes_lodgeQ (s : State) (a : Nat) (l : List Byte) : (s.setMemBytes a l).lodgeQ = s.lodgeQ := by
  rw [State.setMemBytes_frame]

/-! ### What an update changes -/

@[simp] theorem State.reg_setReg_same (s : State) (x : Reg) (w : Word) : (s.setReg x w).reg x = w :=
  sparseGet_set_same _ _ _ _

/-- A register at another offset keeps its word. -/
theorem State.reg_setReg_other (s : State) (x y : Reg) (w : Word) (h : y.off ≠ x.off) : (s.setReg x w).reg y = s.reg y :=
  sparseGet_set_other _ _ _ h

theorem State.reg_setF_same (s : State) (x : Reg) (f : Field) (v : Nat) :
    (s.setF x f v).reg x = setBits (s.reg x) f.lo f.width v := s.reg_setReg_same x _

theorem State.reg_setF_other (s : State) (x y : Reg) (f : Field) (v : Nat) (h : y.off ≠ x.off) :
    (s.setF x f v).reg y = s.reg y := s.reg_setReg_other x y _ h

@[simp] theorem State.seq_modSeq_same (s : State) (h : Fin 4) (f : Seq → Seq) : (s.modSeq h f).seq h = f (s.seq h) := by
  simp [State.seq, State.modSeq]

theorem State.seq_modSeq_other (s : State) (h k : Fin 4) (f : Seq → Seq) (hk : k ≠ h) : (s.modSeq h f).seq k = s.seq k := by
  have : h.val ≠ k.val := fun e => hk (Fin.ext e.symm)
  simp [State.seq, State.modSeq, this]

/-- Two changes of one sequencer are one. -/
theorem State.modSeq_modSeq (s : State) (h : Fin 4) (f g : Seq → Seq) :
    (s.modSeq h f).modSeq h g = s.modSeq h fun q => g (f q) := by
  simp [State.modSeq]

/-- A change of one sequencer depends only on that sequencer. -/
theorem State.modSeq_congr (s : State) (h : Fin 4) (f g : Seq → Seq) (e : f (s.seq h) = g (s.seq h)) :
    s.modSeq h f = s.modSeq h g := by
  simp only [State.modSeq]
  have : f s.seqs[h] = g s.seqs[h] := e
  rw [this]

/-- A change of a sequencer that leaves it as it is changes nothing. -/
theorem State.modSeq_id (s : State) (h : Fin 4) (f : Seq → Seq) (e : f (s.seq h) = s.seq h) : s.modSeq h f = s := by
  have : s.seqs.set h (f s.seqs[h]) = s.seqs := by
    rw [show f s.seqs[h] = s.seqs[h] from e]
    exact Vector.set_getElem_self _
  simp only [State.modSeq]
  rw [this]

/-- Of a sequencer only its write buffer and a handler word to be read are part of what a quiet device waits for. -/
@[simp] theorem State.modSeq_quiet (s : State) (h : Fin 4) (f : Seq → Seq) (hv : (f (s.seq h)).vec = (s.seq h).vec)
    (hw : (f (s.seq h)).wbuf = (s.seq h).wbuf) : (s.modSeq h f).quiet = s.quiet := by
  have hs : ∀ k, ((s.modSeq h f).seq k).vec = (s.seq k).vec ∧ ((s.modSeq h f).seq k).wbuf = (s.seq k).wbuf := by
    intro k
    by_cases e : k = h
    · subst e
      exact ⟨by rw [State.seq_modSeq_same, hv], by rw [State.seq_modSeq_same, hw]⟩
    · rw [State.seq_modSeq_other _ _ _ _ e]
      exact ⟨rfl, rfl⟩
  have hu : ∀ k e, (s.modSeq h f).unsent k e = s.unsent k e := fun _ _ => rfl
  unfold State.quiet
  simp only [hs, hu]
  rfl

/-- Words written one after the other to one register. -/
theorem State.reg_ext_off (s : State) (x y : Reg) (h : y.off = x.off) : s.reg y = s.reg x := by
  simp [State.reg, h]

end Sys2Proof.Machine
end

