-- ==== Sys2Proof/Laws/Chimney.lean ====
section
/-! SUPPORT. Laws of Chimney captures and lane stores: a capture's count, OR flag and words; a store stage keeps registers and
sequencers. -/

namespace Sys2Proof.Machine

/-! ### Captures (R46, R47) -/

/-- A count of 2^k bits is at most 2^k. -/
theorem popCount_le (k v : Nat) : popCount k v ≤ 2 ^ k := by
  induction k generalizing v with
  | zero => simp only [popCount]; omega
  | succ k ih =>
    simp only [popCount]
    split
    · exact Nat.zero_le _
    · have := ih (v % 2 ^ (2 ^ k)); have := ih (v / 2 ^ (2 ^ k)); rw [Nat.pow_succ]; omega

/-- An odd number has a bit set. -/
theorem popCount_pos (k v : Nat) (h : v % 2 = 1) : 0 < popCount k v := by
  induction k generalizing v with
  | zero => simp only [popCount]; omega
  | succ k ih =>
    simp only [popCount]
    split
    · omega
    · have h2 : v % 2 ^ (2 ^ k) % 2 = 1 := by
        rw [Nat.mod_mod_of_dvd _ (dvd_pow_self 2 (Nat.two_pow_pos k).ne')]; exact h
      have := ih _ h2; omega

/-- OR of a CNT word is 1 where the count is not 0 (R47). -/
theorem cntWord_or (k : Nat) (h : 0 < k) (hk : k ≤ 8192) : bits (cntWord k) 17 1 = 1 := by
  have e : (cntWord k).toNat = k + 2 ^ 17 + 2 ^ 31 := by
    simp only [cntWord, BitVec.toNat_ofNat, if_neg h.ne']; omega
  simp only [bits, e]; omega

/-- The total of a capture of H0 stands in ARRAY_CHIM0_CNT. -/
theorem putCapture_cnt (t : State) (c : Capture) : (t.putCapture 0 c).reg (rg .chimCnt 0) = cntWord c.total.1 :=
  (State.reg_setReg_other _ _ _ _ (by decide +kernel)).trans (State.reg_setReg_same _ _ _)

theorem flag_cntWord (t : State) (k : Nat) (e : t.reg (rg .chimCnt 0) = cntWord k) (h : 0 < k) (hk : k ≤ 8192) :
    t.flag (rg .chimCnt 0) F.chimCnt_OR = true := by
  have := cntWord_or k h hk
  rw [← e] at this
  exact decide_eq_true this

/-- A capture of one wing with a nonzero count leaves OR = 1. -/
theorem capture_or (t : State) (k : Nat) (i : Option Nat) (hc : (t.seq 0).caps = [⟨1, [(0, k, i)]⟩]) (h : 0 < k)
    (hk : k ≤ 8192) : (t.completeCapture 0).flag (rg .chimCnt 0) F.chimCnt_OR = true := by
  refine flag_cntWord _ k ?_ h hk
  unfold State.completeCapture
  rw [hc]
  exact (putCapture_cnt _ _).trans (congrArg cntWord (Nat.zero_add k))

/-- Bit 0 of a stored plane is PE 0's. -/
theorem planeOfBits_first (b : Bool) (l : List Bool) (h : b = true) : (planeOfBits (b :: l)).toNat % 2 = 1 := by
  subst h
  simp only [planeOfBits, List.foldr_cons, b2n, BitVec.toNat_ofNat]
  rw [Nat.mod_mod_of_dvd _ (dvd_pow_self 2 (by decide))]
  simp

/-! ### Store stages (R95, R96) -/

/-- A store stage leaves registers, sequencers and PE registers. -/
abbrev KeepsRegs (s t : State) : Prop := t.regs = s.regs ∧ t.seqs = s.seqs ∧ t.arr.pe = s.arr.pe

theorem keeps_trans {a b c : State} (h : KeepsRegs a b) (k : KeepsRegs b c) : KeepsRegs a c :=
  ⟨k.1.trans h.1, k.2.1.trans h.2.1, k.2.2.trans h.2.2⟩

theorem keeps_writePlane (s : State) (u p : Nat) (x v : Plane) : KeepsRegs s (s.writePlane u p x v) := by
  simp only [State.writePlane, State.fixPar]
  split <;> exact ⟨rfl, rfl, rfl⟩

theorem keeps_foldl {α} (l : List α) (f : State → α → State) (h : ∀ s a, KeepsRegs s (f s a)) (s : State) : KeepsRegs s (l.foldl f s) := by
  induction l generalizing s with
  | nil => exact ⟨rfl, rfl, rfl⟩
  | cons a l ih => exact keeps_trans (h s a) (ih _)

theorem keeps_storeUnit (jb : LaneJob) (u : Nat) (s : State) : KeepsRegs s (s.storeUnit jb u) :=
  keeps_trans (keeps_foldl _ _ (fun _ _ => keeps_writePlane ..) s) (keeps_foldl _ _ (fun _ _ => keeps_writePlane ..) _)

theorem keeps_forUnits (jb : LaneJob) (s : State) : KeepsRegs s (s.forUnits jb.mask fun u s => s.storeUnit jb u) :=
  keeps_foldl _ _ (fun _ _ => keeps_storeUnit ..) s

end Sys2Proof.Machine
end

