-- ==== Sys2Proof/Laws/Settle.lean ====
section
/-! SUPPORT. What the end of a command does: on a quiet state only MSI-X follows the sources and a quote takes its
snapshot. -/

namespace Sys2Proof.Machine

/-- The state with other MSI-X bookkeeping. -/
def State.withMsix (s : State) (pba last : BitVec 64) (tlps : List Tlp) : State :=
  { s with pcie := { s.pcie with pba := pba, last := last, tlps := tlps } }

theorem State.msixVector_frame (s : State) (now : BitVec 64) (v : Nat) :
    ∃ pba tlps, s.msixVector now v = s.withMsix pba s.pcie.last tlps := by
  unfold State.msixVector
  simp only
  repeat' split
  all_goals first
    | exact ⟨s.pcie.pba, s.pcie.tlps, rfl⟩
    | exact ⟨_, s.pcie.tlps, rfl⟩
    | exact ⟨_, _, rfl⟩

theorem State.msixLoop_frame (now : BitVec 64) (l : List Nat) (s : State) :
    ∃ pba tlps, l.foldl (fun a i => State.msixVector now i a) s = s.withMsix pba s.pcie.last tlps := by
  induction l generalizing s with
  | nil => exact ⟨s.pcie.pba, s.pcie.tlps, rfl⟩
  | cons i l ih =>
    obtain ⟨p, m, h⟩ := s.msixVector_frame now i
    obtain ⟨p', m', h'⟩ := ih (State.msixVector now i s)
    exact ⟨p', m', by rw [List.foldl_cons, h', h]; rfl⟩

/-- MSI-X changes only its pending bits, the TLPs to send and the sources as last seen. -/
theorem State.msixSync_frame (s : State) (now : BitVec 64) : ∃ pba last tlps, s.msixSync now = s.withMsix pba last tlps := by
  unfold State.msixSync
  split
  · exact ⟨s.pcie.pba, s.pcie.last, s.pcie.tlps, rfl⟩
  · obtain ⟨p, m, h⟩ := State.msixLoop_frame now (List.range 64) s
    exact ⟨p, now, m, by unfold forN; rw [h]; rfl⟩

/-- MSI-X leaves the quote's snapshot alone. -/
theorem State.sync_snap (s : State) : s.sync.assay.snap = s.assay.snap := by
  unfold State.sync
  obtain ⟨_, _, _, h⟩ := s.msixSync_frame s.forwarded
  rw [h]
  rfl

/-- A verification engine whose first job is no load that waits to begin starts nothing. -/
theorem State.verBegin_idle (s : State) (h : s.loadWaits = false) : s.verBegin = s := by
  unfold State.verBegin
  unfold State.loadWaits at h
  split <;> simp_all

/-- With no handler word to read and no buffered write that has just left the device the write buffers stay as they are. -/
theorem State.bufferSettle_quiet (s : State) (h : ((List.finRange 4).all fun h => (s.seq h).vec.isNone && match (s.seq h).wbuf with
    | e :: _ => !e.sent || s.unsent h e
    | [] => true) = true) : s.bufferSettle = s := by
  have one : ∀ k : Fin 4, (let t := if (s.seq k).wbuf.any (·.sent) then s.freeSent k else s
      if (t.seq k).vec.isSome && t.coreOn then t.vectorStep k else t) = s := by
    intro k
    have hk := List.all_eq_true.mp h k (List.mem_finRange k)
    simp only [Bool.and_eq_true] at hk
    obtain ⟨hv, hw⟩ := hk
    have hf : s.freeSent k = s := by
      unfold State.freeSent
      apply State.modSeq_id
      generalize s.seq k = q at hw
      obtain e | ⟨e, l, e'⟩ : q.wbuf = [] ∨ ∃ e l, q.wbuf = e :: l := by cases q.wbuf <;> simp
      · cases q; simp_all
      · rw [e'] at hw
        have : (e.sent && !s.unsent k e) = false := by cases h1 : e.sent <;> simp_all
        have h2 : (q.wbuf.dropWhile fun e => e.sent && !s.unsent k e) = q.wbuf := by
          rw [e', List.dropWhile_cons_of_neg (by simp [this])]
        rw [h2]
    have hn : (s.seq k).vec.isSome = false := by cases h1 : (s.seq k).vec <;> simp_all
    simp [hf, hn]
  have main : ∀ l : List (Fin 4), l.foldl (fun s h =>
      let s := if (s.seq h).wbuf.any (·.sent) then s.freeSent h else s
      if (s.seq h).vec.isSome && s.coreOn then s.vectorStep h else s) s = s := by
    intro l
    induction l with
    | nil => rfl
    | cons k l ih => rw [List.foldl_cons, one k]; exact ih
  exact main _

/-- A quiet state settles with nothing delivered. -/
theorem State.settle_quiet (s : State) (h : s.quiet = true) : s.after s.settle := by
  simp only [State.quiet, Bool.and_eq_true, Bool.not_eq_true'] at h
  obtain ⟨⟨⟨⟨⟨⟨⟨h0, h7⟩, h8⟩, h1⟩, h2⟩, h3⟩, h4⟩, h5⟩ := h
  have hb := s.bufferSettle_quiet h0
  have hq : ∃ a, s.quoteStart = { s with assay := { s.assay with snap := a } } := by
    unfold State.quoteStart
    split
    · exact ⟨s.assay.snap, rfl⟩
    · exact ⟨s.assay.snap, rfl⟩
    · split
      · exact ⟨s.assay.snap, rfl⟩
      · exact ⟨_, rfl⟩
  obtain ⟨a, ha⟩ := hq
  have hatt : ({ s with assay := { s.assay with snap := a } } : State).attIssue =
      { s with assay := { s.assay with snap := a } } := by
    unfold State.attIssue
    simp only
    split
    · rename_i q hq
      rw [hq] at h4
      simp [h4]
    · rfl
  have hman : ({ s with assay := { s.assay with snap := a } } : State).manageIssue =
      { s with assay := { s.assay with snap := a } } := by
    unfold State.manageIssue
    simp only
    rw [if_neg]
    intro hc
    simp only [Bool.and_eq_true, Bool.not_eq_true'] at hc
    have h6 : s.flag (rg .linkMgCtl) F.linkMgCtl_BUSY = true := hc.1
    rw [h6] at h5
    simp [hc.2] at h5
  have hl : ({ s with assay := { s.assay with snap := a } } : State).lodgeSettle =
      { s with assay := { s.assay with snap := a } } := by
    unfold State.lodgeSettle
    rw [if_pos h3]
  unfold State.after State.settle
  have hv : (if s.verQ.isEmpty then s else s.verBegin) = s := by
    split
    · rfl
    · exact s.verBegin_idle h8
  simp only [hb, h1, h2, h7, if_true, hv, ha, hatt, hman, hl]
  rw [State.sync_snap]

/-- A happening on a powered device whose effect is quiet. -/
theorem State.event_after (s : State) (f : State → State) (hp : s.power.por = false) (hq : (f s).quiet = true) :
    (f s).after (s.event f) := by
  unfold State.event
  rw [hp]
  exact State.settle_quiet _ hq

theorem State.tclkEvent_after (s : State) (f : State → State) (hp : s.power.por = false) (hl : s.hlock = true)
    (hq : (f s).quiet = true) : (f s).after (s.tclkEvent f) := by
  unfold State.tclkEvent
  rw [hp, hl]
  exact State.settle_quiet _ hq

theorem State.coreEvent_after (s : State) (f : State → State) (hp : s.power.por = false) (hc : s.coreOn = true)
    (hq : (f s).quiet = true) : (f s).after (s.coreEvent f) := by
  unfold State.coreEvent
  rw [hp, hc]
  exact State.settle_quiet _ hq

/-- A register write that its block takes. -/
theorem State.access_after (s : State) (r : Requester) (x : Reg) (v : Word) (hp : s.power.por = false) (hr : s.reaches r = true)
    (hx : regAt x.off = some x) (hh : s.annexHolds r x = false) (hq : (s.regPut r x v).quiet = true) :
    (s.regPut r x v).after (s.access r x.off v) := by
  unfold State.access State.regHolds State.regWrite
  simp only [hp, hr, hx, hh, Bool.not_true, Bool.false_eq_true, if_false, Option.map_some, Option.getD_some]
  exact State.settle_quiet _ hq

/-- A register read. -/
theorem State.accessRead_after (s : State) (r : Requester) (x : Reg) (hp : s.power.por = false) (hr : s.reaches r = true)
    (hx : regAt x.off = some x) (hq : ((s.regGet r x).1.answered (.data (s.regGet r x).2.toNat)).quiet = true) :
    ((s.regGet r x).1.answered (.data (s.regGet r x).2.toNat)).after (s.accessRead r x.off) := by
  unfold State.accessRead State.regRead
  simp only [hp, hr, hx, Bool.not_true, Bool.false_eq_true, if_false, Option.map_some]
  exact State.settle_quiet _ hq

end Sys2Proof.Machine
end

