-- ==== Sys2Proof/Laws/Issue.lean ====
section
/-! SUPPORT. Issue of a sequencer instruction: what it does once the sequencer can issue, and which prefixes pass. -/

namespace Sys2Proof.Machine

/-- A routine that does not stand part-way has nothing to run. -/
theorem State.runRoutineTo_none (s : State) (h : Fin 4) (stop : Option Nat) (hr : (s.seq h).routine = none) :
    s.runRoutineTo h stop = s := by
  have hs : s.routineStep h = (s, false) := by
    unfold State.routineStep
    rw [hr]
  have hk : ∀ k, s.runRoutine h k = s := by
    intro k
    cases k with
    | zero => rfl
    | succ k => simp [State.runRoutine, hs]
  exact hk _

theorem State.issues_iff (s : State) (h : Fin 4) (n : Nat) : s.issues h n = true ↔
    s.quiet = true ∧ (s.seq h).routine = none ∧ s.ready h = true ∧ s.fetch h (s.seq h).pc n = .ok ∧
      (byteInRam (s.seq h).pc.toNat = false ∨ s.cellar.weak = []) := by
  simp [State.issues, and_assoc]

/-- A fetch that meets no error leaves the state as it is. -/
theorem State.fetchErr_clean (s : State) (h : Fin 4) (a : Word) (n : Nat)
    (hc : byteInRam a.toNat = false ∨ s.cellar.weak = []) : s.fetchErr h a n .ok = s := by
  rcases hc with hc | hc <;> simp [State.fetchErr, State.eccCount, hc]

/-- The prefixes that `plainIssue` admits. -/
theorem plainIssue_cases (iss : Issue) (narrow : Bool) (h : plainIssue iss narrow = true) :
    iss.resv = false ∧ iss.opc = .defined ∧ (iss.prefixes = [] ∨ iss.prefixes = [.atom] ∨
      (narrow = true ∧ (iss.prefixes = [.narrow] ∨ iss.prefixes = [.narrow, .atom] ∨ iss.prefixes = [.atom, .narrow]))) := by
  simp only [plainIssue, Bool.and_eq_true, Bool.or_eq_true, decide_eq_true_eq, Bool.not_eq_true'] at h
  obtain ⟨⟨h1, h0⟩, h2⟩ := h
  refine ⟨h1, h0, ?_⟩
  rcases h2 with (h2 | h2) | ⟨h2, (h3 | h3) | h3⟩
  · exact Or.inl h2
  · exact Or.inr (Or.inl h2)
  · exact Or.inr (Or.inr ⟨h2, Or.inl h3⟩)
  · exact Or.inr (Or.inr ⟨h2, Or.inr (Or.inl h3)⟩)
  · exact Or.inr (Or.inr ⟨h2, Or.inr (Or.inr h3)⟩)

theorem plainIssue_hasRep (iss : Issue) (narrow : Bool) (h : plainIssue iss narrow = true) : hasRep iss = false := by
  obtain ⟨_, _, h⟩ := plainIssue_cases iss narrow h
  rcases h with h | h | ⟨_, h | h | h⟩ <;> simp [hasRep, h]

theorem plainIssue_hasRepa (iss : Issue) (narrow : Bool) (h : plainIssue iss narrow = true) : hasRepa iss = false := by
  obtain ⟨_, _, h⟩ := plainIssue_cases iss narrow h
  rcases h with h | h | ⟨_, h | h | h⟩ <;> simp [hasRepa, h]

theorem plainIssue_wmMask (iss : Issue) (narrow : Bool) (h : plainIssue iss narrow = true) : wmMask iss = none := by
  obtain ⟨_, _, h⟩ := plainIssue_cases iss narrow h
  rcases h with h | h | ⟨_, h | h | h⟩ <;> simp [wmMask, h]

theorem plainIssue_len (iss : Issue) (narrow : Bool) (sh : Shape) (h : plainIssue iss narrow = true) :
    instrLen iss sh = iss.prefixes.length + sh.len := by
  obtain ⟨_, ho, h⟩ := plainIssue_cases iss narrow h
  rcases h with h | h | ⟨_, h | h | h⟩ <;> simp [instrLen, opcLen, ho, h, prefixLen]

/-- A plain issue whose operands pass the checks raises no #UD (R155). -/
theorem plainIssue_udDetail (iss : Issue) (sh : Shape) (h : plainIssue iss sh.narrowOk = true) (hl : sh.len ≤ 14)
    (h1 : sh.badSpecial = false) (h2 : sh.resv = false) (h3 : sh.badRange = false) : udDetail iss sh = none := by
  have hr := plainIssue_hasRep iss _ h
  have ha := plainIssue_hasRepa iss _ h
  have hw := plainIssue_wmMask iss _ h
  have hn := plainIssue_len iss _ sh h
  obtain ⟨hv, ho, h⟩ := plainIssue_cases iss _ h
  rcases h with h | h | ⟨hx, h | h | h⟩ <;>
    simp [udDetail, hr, ha, hw, hv, ho, hn, h, h1, h2, h3, prefixReserved, dupPrefix, prefixKind, hasNarrow] <;>
    simp_all <;> omega

/-- Issue of a plain instruction: its effect once, then its end. -/
theorem State.issue_plain (s : State) (iss : Issue) (narrow : Bool) (sh : Shape) (body : State → Body)
    (hp : plainIssue iss narrow = true) (hu : udDetail iss sh = none) (hl : sh.len ≤ 14)
    (hi : s.issues iss.h (iss.prefixes.length + sh.len) = true) :
    s.issue iss sh body =
      (body (s.modSeq iss.h fun q => { q with atomRep := false })).finish iss.h (s.flgBit iss.h flgTE)
        ((s.seq iss.h).pc + BitVec.ofNat 32 (iss.prefixes.length + sh.len)) := by
  obtain ⟨_, hr, hy, hf, hc⟩ := (s.issues_iff _ _).1 hi
  have hn := plainIssue_len iss _ sh hp
  have hlen : iss.prefixes.length ≤ 2 := by
    obtain ⟨_, _, h⟩ := plainIssue_cases iss _ hp
    rcases h with h | h | ⟨_, h | h | h⟩ <;> simp [h]
  have hm : Nat.min (iss.prefixes.length + sh.len) 16 = iss.prefixes.length + sh.len := by
    show min _ _ = _
    omega
  unfold State.issue State.issueAt
  simp only [State.runRoutineTo_none _ _ _ hr, hy, hn, hm, hf, State.fetchErr_clean _ _ _ _ hc, hu, plainIssue_hasRep iss _ hp, Bool.not_true,
    Bool.false_eq_true, if_false, Bool.false_and]

end Sys2Proof.Machine
end

