-- ==== Sys2Proof/Laws/Memory.lean ====
section
/-! SUPPORT. Landing and Cellar memory: two addresses never share a cell, a read after a write, and the canonical form is
kept by every memory operation. -/

namespace Sys2Proof.Machine

theorem State.ilvWidth_cases (s : State) : s.ilvWidth = 32 ∨ s.ilvWidth = 16 ∨ s.ilvWidth = 8 ∨ s.ilvWidth = 4 := by
  have h : s.getF (rg .cellarCfg) F.cellarCfg_ILV < 4 := Nat.mod_lt _ (by decide)
  unfold State.ilvWidth
  generalize s.getF (rg .cellarCfg) F.cellarCfg_ILV = n at h
  match n, h with
  | 0, _ => simp
  | 1, _ => simp
  | 2, _ => simp
  | 3, _ => simp

/-- A Cellar offset is determined by its bank and its place in it, and the place lies within the bank (R233). -/
theorem bankOf_inj (w o p : Nat) (hw : w = 32 ∨ w = 16 ∨ w = 8 ∨ w = 4) (h : bankOf w o = bankOf w p) : o = p := by
  simp only [bankOf, bankBytes, Prod.mk.injEq] at h
  obtain ⟨h1, h2⟩ := h
  rcases hw with rfl | rfl | rfl | rfl <;> omega

theorem bankOf_lt (w o : Nat) (hw : w = 32 ∨ w = 16 ∨ w = 8 ∨ w = 4) : (bankOf w o).2 < bankBytes := by
  simp only [bankOf, bankBytes]
  rcases hw with rfl | rfl | rfl | rfl <;> omega

/-- Two addresses never share a cell. -/
theorem State.cell_inj (s : State) (a b : Nat) (h : s.cell a = s.cell b) : a = b := by
  have hw := s.ilvWidth_cases
  have la := bankOf_lt s.ilvWidth (a - 0x20000000) hw
  have lb := bankOf_lt s.ilvWidth (b - 0x20000000) hw
  have inj := bankOf_inj s.ilvWidth (a - 0x20000000) (b - 0x20000000) hw
  simp only [State.cell, bankBytes] at h la lb
  by_cases ha : a < 0x20000000 <;> by_cases hb : b < 0x20000000 <;> simp only [ha, hb, if_true, if_false] at h
  · exact h
  · omega
  · omega
  · have h1 : (bankOf s.ilvWidth (a - 0x20000000)).1 = (bankOf s.ilvWidth (b - 0x20000000)).1 := by omega
    have h2 : (bankOf s.ilvWidth (a - 0x20000000)).2 = (bankOf s.ilvWidth (b - 0x20000000)).2 := by omega
    have := inj (Prod.ext h1 h2)
    omega

theorem State.cell_setMemByte (s : State) (a : Nat) (b : Byte) (c : Nat) : (s.setMemByte a b).cell c = s.cell c := rfl

@[simp] theorem State.memByte_setMemByte_same (s : State) (a : Nat) (b : Byte) : (s.setMemByte a b).memByte a = b :=
  sparseGet_set_same _ _ _ _

theorem State.memByte_setMemByte_other (s : State) (a c : Nat) (b : Byte) (h : c ≠ a) :
    (s.setMemByte a b).memByte c = s.memByte c :=
  sparseGet_set_other _ _ _ fun e => h (s.cell_inj c a e)

/-- Bytes outside those written read as before. -/
theorem State.memByte_setMemBytes_other (s : State) (a c : Nat) (l : List Byte) (h : c < a ∨ a + l.length ≤ c) :
    (s.setMemBytes a l).memByte c = s.memByte c := by
  induction l generalizing s a with
  | nil => rfl
  | cons b bs ih =>
    simp only [List.length_cons] at h
    rw [State.setMemBytes, ih (s.setMemByte a b) (a + 1) (by omega), State.memByte_setMemByte_other _ _ _ _ (by omega)]

/-- Bytes written read as written. -/
theorem State.memByte_setMemBytes_in (s : State) (a i : Nat) (l : List Byte) (h : i < l.length) :
    (s.setMemBytes a l).memByte (a + i) = l[i] := by
  induction l generalizing s a i with
  | nil => simp at h
  | cons b bs ih =>
    rw [State.setMemBytes]
    cases i with
    | zero => rw [Nat.add_zero, State.memByte_setMemBytes_other _ _ _ _ (by omega)]; simp
    | succ i =>
      have := ih (s.setMemByte a b) (a + 1) i (by simpa using h)
      rw [show a + (i + 1) = a + 1 + i by omega, this]
      simp

/-- One byte written keeps the canonical form. -/
theorem State.wf_setMemByte (s : State) (a : Nat) (b : Byte) (h : Memory.wf s.mem = true) :
    Memory.wf (s.setMemByte a b).mem = true := sparseWf_set _ _ _ _ h

/-- Bytes written keep the canonical form. -/
theorem State.wf_setMemBytes (s : State) (a : Nat) (l : List Byte) (h : Memory.wf s.mem = true) :
    Memory.wf (s.setMemBytes a l).mem = true := by
  induction l generalizing s a with
  | nil => exact h
  | cons b bs ih => exact ih _ _ (s.wf_setMemByte a b h)

theorem State.wf_setMemNum (s : State) (a n v : Nat) (h : Memory.wf s.mem = true) :
    Memory.wf (s.setMemNum a n v).mem = true := s.wf_setMemBytes a _ h

@[simp] theorem State.eccCaptureAt_mem (s : State) (req x : Nat) : (s.eccCaptureAt req x).mem = s.mem := by
  unfold State.eccCaptureAt
  simp only [State.capture]
  split <;> split <;> rfl

@[simp] theorem State.eccCaptureWords_mem (s : State) (req : Nat) (ws : List (Nat × Nat)) :
    (s.eccCaptureWords req ws).mem = s.mem := by
  have main : ∀ (l : List (Nat × Nat)) (s : State), (l.foldl (fun s p => s.eccCaptureAt req p.2) s).mem = s.mem := by
    intro l
    induction l with
    | nil => intro s; rfl
    | cons p l ih => intro s; rw [List.foldl_cons, ih, State.eccCaptureAt_mem]
  exact main _ s

@[simp] theorem State.eccCapture_mem (s : State) (req a n : Nat) : (s.eccCapture req a n).mem = s.mem := by
  unfold State.eccCapture
  split
  · rfl
  · exact State.eccCaptureWords_mem _ _ _

@[simp] theorem State.eccCountWords_mem (s : State) (ws : List (Nat × Nat)) : (s.eccCountWords ws).mem = s.mem := by
  unfold State.eccCountWords
  split <;> rfl

@[simp] theorem State.eccCount_mem (s : State) (a n : Nat) : (s.eccCount a n).mem = s.mem := by
  unfold State.eccCount
  split
  · rfl
  · exact State.eccCountWords_mem _ _

@[simp] theorem State.eccClean_mem (s : State) (a n : Nat) : (s.eccClean a n).mem = s.mem := by
  unfold State.eccClean
  split <;> rfl

/-- A write through the error-checking path keeps the canonical form. -/
theorem State.wf_ramWrite (s : State) (req a : Nat) (l : List Byte) (h : Memory.wf s.mem = true) :
    Memory.wf (s.ramWrite req a l).1.mem = true := by
  have one : ∀ (s : State) (a : Nat) (l : List Byte), Memory.wf s.mem = true → Memory.wf (s.ramAccess req a l).1.mem = true := by
    intro s a l h
    unfold State.ramAccess
    simp only
    by_cases hm : s.eccMergeBad a l.length = true
    · simpa [hm] using h
    · by_cases hw : s.cellar.weak.isEmpty = true <;> simp only [hm, hw, Bool.false_eq_true, if_true, if_false] <;>
        exact State.wf_setMemBytes _ _ _ (by simpa using h)
  have main : ∀ (ps : List (Nat × List Byte)) (t : State × Bool), Memory.wf t.1.mem = true →
      Memory.wf (ps.foldl (fun t p => ((t.1.ramAccess req p.1 p.2).1, t.2 && (t.1.ramAccess req p.1 p.2).2)) t).1.mem = true := by
    intro ps
    induction ps with
    | nil => intro t ht; exact ht
    | cons p ps ih => intro t ht; exact ih _ (one _ _ _ ht)
  unfold State.ramWrite
  split
  · exact State.wf_setMemBytes _ _ _ h
  · exact main _ _ h

/-- One access that reads changes no byte. -/
@[simp] theorem State.readAccess_mem (s : State) (req a n : Nat) : (s.readAccess req a n).1.mem = s.mem := by
  unfold State.readAccess
  split <;> simp

/-- A read changes no byte. -/
@[simp] theorem State.ramRead_mem (s : State) (req a n : Nat) : (s.ramRead req a n).1.mem = s.mem := by
  have main : ∀ (l : List (Nat × Nat)) (t : State × Bool), (l.foldl (fun t p =>
      ((t.1.readAccess req p.1 p.2).1, t.2 && (t.1.readAccess req p.1 p.2).2)) t).1.mem = t.1.mem := by
    intro l
    induction l with
    | nil => intro t; rfl
    | cons p l ih => intro t; rw [List.foldl_cons, ih, State.readAccess_mem]
  unfold State.ramRead
  split
  · rfl
  · exact main _ _

/-- Zero-filling a bank keeps the canonical form. -/
theorem sparseWf_filter {α : Type} [DecidableEq α] (d : Nat → α) (p : Nat × α → Bool) (l : Sparse α) (h : sparseWf d l = true) :
    sparseWf d (l.filter p) = true := by
  have main : ∀ (l : Sparse α) (b : Option Nat), sparseWfFrom d b l = true → sparseWfFrom d b (l.filter p) = true := by
    intro l
    induction l with
    | nil => intro b _; rfl
    | cons e l ih =>
      intro b hw
      obtain ⟨a, w⟩ := e
      simp only [sparseWfFrom, Bool.and_eq_true, decide_eq_true_eq] at hw
      by_cases hp : p (a, w) = true
      · rw [List.filter_cons_of_pos hp]
        simp only [sparseWfFrom, Bool.and_eq_true, decide_eq_true_eq]
        exact ⟨hw.1, ih _ hw.2⟩
      · rw [List.filter_cons_of_neg hp]
        apply ih
        cases b with
        | none => exact sparseWfFrom_none d l a hw.2
        | some c =>
          have h1 := hw.1.1
          simp only [decide_eq_true_eq] at h1
          exact sparseWfFrom_weaken d l a c (by omega) hw.2
  exact main l none h

theorem State.wf_zeroBank (s : State) (b : Nat) (h : Memory.wf s.mem = true) : Memory.wf (s.zeroBank b).mem = true :=
  sparseWf_filter _ _ _ h

/-- Reset memory lists nothing. -/
theorem wf_reset : Memory.wf State.reset.mem = true := rfl

end Sys2Proof.Machine
end

