-- ==== Sys2Proof/WellFormed.lean ====
section
/-! DEFINITION. Which commands the hardware can be given: bounds on the operands that their types do not give. The
meaning of a command is total all the same. -/

namespace Sys2Proof

/-- A reserved prefix carries one of the reserved prefix bytes (R146). -/
def Prefix.wf : Prefix → Bool
  | .reserved b => b = 0xB0#8 || (decide (0xB5 ≤ b.toNat) && decide (b.toNat ≤ 0xB7)) ||
      (decide (0xB9 ≤ b.toNat) && decide (b.toNat ≤ 0xBF))
  | _ => true

/-- Every prefix of an issue. -/
def Issue.wf (iss : Issue) : Bool := iss.prefixes.all Prefix.wf

/-- A number that fits `n` bytes. -/
def fitsBytes (v : Word) (n : Nat) : Bool := decide (v.toNat < 256 ^ n)

/-- A displacement fits its encoded size (R151). -/
def MemOp.wf : MemOp → Bool
  | .indexed _ _ dsize disp => fitsBytes disp (match dsize.val with | 0 => 0 | 1 => 1 | 2 => 2 | _ => 4)
  | _ => true

/-- An immediate fits its encoded size (R159). -/
def immWf (sz : Fin 4) (imm : Word) : Bool := fitsBytes imm (match sz.val with | 0 => 1 | 1 => 2 | 2 => 4 | _ => 0)

/-- No frame exceeds 35 blocks (R404). -/
def FrameIn.wf (f : FrameIn) : Bool := decide ((f.seen.getD []).length ≤ 35)

/-- A register offset within the register space (R8). -/
def offWf (off : Nat) : Bool := decide (off < 0xD00000)

/-- A failing row and bit of a March window: 128 rows of 288 bits (R257, R259). -/
def windowWf : Option (Nat × Nat) → Bool
  | none => true
  | some (row, n) => decide (row < 128) && decide (n < 288)

/-- A memory access over PCI Express: 1 to 4,096 bytes (R441). -/
def pcieWf (n : Nat) : Bool := decide (1 ≤ n) && decide (n ≤ 4096)

/-- The well-formed commands. -/
def Instr.wf : Instr → Bool
  | .registerWrite _ off _ => offWf off
  | .addi iss _ sz imm | .subi iss _ sz imm | .andi iss _ sz imm | .ori iss _ sz imm | .xori iss _ sz imm
  | .cmpi iss _ sz imm | .movi iss _ sz imm | .shli iss _ sz imm | .shri iss _ sz imm | .sari iss _ sz imm
  | .rori iss _ sz imm | .muli iss _ sz imm => iss.wf && immWf sz imm
  | .ld iss _ _ m | .st iss _ _ m | .fld iss _ _ m | .fst iss _ _ m => iss.wf && m.wf
  | .bcc iss long disp _ => iss.wf && (long || fitsBytes disp 1)
  | .nop (.seq iss) => iss.wf
  | .add iss _ _ | .sub iss _ _ | .and iss _ _ | .or iss _ _ | .xor iss _ _ | .cmp iss _ _ | .mov iss _ _
  | .shl iss _ _ | .shr iss _ _ | .sar iss _ _ | .ror iss _ _ | .mul iss _ _ | .mulhu iss _ _ | .mulhs iss _ _
  | .divu iss _ _ | .divs iss _ _ | .remu iss _ _ | .rems iss _ _ | .call iss _ | .jmp iss _ | .callr iss _
  | .ret iss | .reti iss | .sc iss _ | .mfs iss _ _ | .mts iss _ _ | .pset iss _ _ _ | .paddi iss _ _
  | .padd iss _ _ | .mfp iss _ _ | .mtp iss _ _ | .aadd iss _ | .aaddi iss _ | .asub iss _ | .asubi iss _
  | .amul iss _ | .acmp iss _ | .acmpi iss _ | .asel iss _ | .aset iss _ | .alog iss _ _ | .abit iss _ _
  | .ashf iss _ _ | .acnt iss _ | .aloc iss _ | .ladd iss _ _ | .lsub iss _ _ | .lmul iss _ _ | .lmulf iss _ _ _
  | .lmin iss _ _ _ | .lmax iss _ _ _ | .lfadd iss _ | .lfsub iss _ | .lfmul iss _ | .lfma iss _ | .lfmin iss _
  | .lfmax iss _ | .lfcmp iss _ _ | .lfrcp iss _ | .lfcvtFi iss _ | .lfcvtIf iss _ | .fadd iss _ _ _
  | .fsub iss _ _ _ | .fmul iss _ _ _ | .fma iss _ _ _ _ | .fmin iss _ _ _ | .fmax iss _ _ _ | .frcp iss _ _
  | .fcvtFi iss _ _ | .fcvtIf iss _ _ | .fmov iss _ _ | .fneg iss _ _ | .fabs iss _ _ | .fmvgf iss _ _
  | .fmvfg iss _ _ | .fcmp iss _ _ _ _ | .waitev iss _ _ _ | .setev iss _ | .emitev iss _ _ | .larm iss _ _ _
  | .lstop iss _ | .tick iss _ _ | .wgive iss _ _ | .mbr iss | .mbw iss | .mbf iss | .mba iss => iss.wf
  | .planisherWindow _ fail => windowWf fail
  | .hello f _ _ _ _ | .dlyreq f | .dlyrsp f _ _ | .syncFrame f _ _ _ | .bulkRead f _ _ _ | .wrrsp f _ _
  | .attest f _ _ => f.wf
  | .bulkWrite f _ len _ data _ => f.wf && decide (data < 256 ^ (len.val + 1))
  | .rdrsp f _ _ data | .attrsp f _ _ _ data => f.wf && decide (data < 256 ^ (f.len.val + 1))
  | .seamFrame f _ _ planes _ => f.wf && decide (1 ≤ planes.length) && decide (planes.length ≤ 32)
  | .pcieInboundRead _ _ size => pcieWf size
  | .pcieInboundWrite _ _ data _ => pcieWf data.length
  | .pcieCompletion _ _ data => decide (data.length ≤ 4096)
  | _ => true

end Sys2Proof
end

