-- ==== Sys2Proof/Tests/Slice0.lean ====
section
/-! SUPPORT. Tests: well-formedness, the spec's worked examples, and a witness for the hypotheses of every statement.

A witness theorem `witness_<statement> : <statement> → …` applies the statement, or a part of it, to small states and
operands: each of its conclusions is one clause of the statement whose hypotheses those states meet, at a boundary value of
the clause's range where it has one. `Runs c s` says that the command completes in `s`. -/

set_option maxRecDepth 100000
set_option Elab.async false

namespace Sys2Proof.Tests

open Sys2Proof Sys2Proof.Machine Sys2Proof.Claims

/-- The command completes in some next state. -/
def Runs (c : Instr) (s : State) : Prop := ∃ t, exec c s = .next t

end Sys2Proof.Tests

theorem Sys2Proof.Machine.Answers.runs {c : Sys2Proof.Instr} {s x : Sys2Proof.Machine.State}
    (h : Sys2Proof.Machine.Answers c s x) : Sys2Proof.Tests.Runs c s :=
  Exists.elim h fun t h => ⟨t, h.1⟩

namespace Sys2Proof.Tests

open Sys2Proof Sys2Proof.Machine Sys2Proof.Claims

/-! ### Small states -/

/-- The host's memory requests are taken: Memory Space Enable is 1. -/
def hostUp (s : State) : State := s.modPcie fun p => { p with cfg := sparseSet cfgDefault p.cfg 1 (s.cfgWord 1 ||| 2) }
def i0 : Issue := { h := 0 }
/-- An opcode byte that no instruction has: behind an escape byte, and on page 0. -/
def undef0 : Issue := { h := 0, opc := .undef true }
def undef1 : Issue := { h := 0, opc := .undef false }
def iN : Issue := { h := 0, prefixes := [.narrow] }
/-- A state whose sequencer H0 is `f` of its reset. -/
def h0 (f : Seq → Seq) : State := State.reset.modSeq 0 f
/-- The vectors in Study. -/
def v0 : State := h0 fun q => { q with vbr := 0 }
/-- A stack pointer at the foot of Study: its next push would leave Study. -/
def badSp : State := h0 fun q => { q with vbr := 0, g := q.g.set 15 4 }
/-- G2 holds a reserved PRI. -/
def badPri : State := h0 fun q => { q with vbr := 0, g := q.g.set 2 0x001F0000 }
def exl0 : State := h0 fun q => { q with flg := 0x800 }
/-- Source 712 is raised and routed to H0 at level 0, and H0 accepts interrupts. -/
def vIrq : State :=
  { h0 (fun q => { q with vbr := 0, flg := 0x100 }) with annex := { irq := 1 }, regs := [(0x100B20, 0x40)] }
/-- A watchdog entry waits. -/
def vWd : State := h0 fun q => { q with vbr := 0, wdPend := true }
/-- A trace entry waits. -/
def vTr : State := h0 fun q => { q with vbr := 0, flg := 0x400 }
/-- A frame of R129 on the stack. -/
def inStudy : State := h0 fun q => { q with g := q.g.set 15 0x3FFF8 }
/-- The pair that RETI pops has an uncorrectable error. -/
def badPair : State := h0 fun q => { q with vbr := 0, g := q.g.set 15 0x3FFF8, studyBad := [0x7FFF] }
/-- Vectors in the Landing, clean or with a corrected error. -/
def vLand : State := h0 fun q => { q with vbr := 0x10000000 }
def vCell : State := h0 fun q => { q with vbr := 0x20000000 }
/-- A buffered write stands before the handler's word; one that waits for it. -/
def vBuf : State := h0 fun q => { q with vbr := 0x10000000, wbuf := [{ addr := 0x10000100, size := 4, data := 5 }] }
def vVec : State := { h0 (fun q => { q with vec := some 0x10000024 }) with mem := [(0x10000024, 7)] }
/-- A vector base where no memory lies. -/
def badVbr : State := h0 fun q => { q with vbr := 0x40000000 }
/-- G0 holds a syndrome that R124 lists. -/
def esrVal : State := h0 fun q => { q with g := q.g.set 0 0x0A01 }
/-- G15 at the last byte of Study. -/
def atStudy : State := h0 fun q => { q with g := q.g.set 15 0x3FFFF }
/-- G1 to G4 at the last byte of Landing, in Cellar, in the boot ROM and at AS_MC_STAT. -/
def atRam : State := h0 fun q =>
  { q with g := (((q.g.set 1 0x1003FFFC).set 2 0x20000000).set 3 0xF000FFFC).set 4 (BitVec.ofNat 32 (0x40000000 + (rg .asMcStat).off)) }
/-- G1 to G4 in a window of a region that is not LIVE, where no register stands, in a bank that is OFF, in a remote window that
nobody holds. -/
def badOut : State :=
  let s := h0 fun q => { q with vbr := 0, g := (((q.g.set 1 0x60000004).set 2 0x40CFFFFC).set 3 0x20000000).set 4 0x80000000 }
  { s with cellar := { s.cellar with bank := s.cellar.bank.set 0 .off } }
/-- G1 to G4 in a LIVE region's window, at the host, in H0's remote window, at a register; Bus Master Enable set, device 9
reached by port 5. -/
def atOut : State :=
  let s := (((((State.reset.setF (rg .kpStat 5) F.kpStat_STATE 3).setReg (rg .kpCtl 5) 3).setReg (rg .linkCtl) (0x3C00 + 7)).setReg
    (rg .linkRt 1) 0xFFFFFF5F).setRegionState 0 2).setReg (rg .linkRwin 0) (setBits (setBits (setBits 0 F.linkRwin_VALID.lo 1 1)
      F.linkRwin_OWNER.lo F.linkRwin_OWNER.width 1) F.linkRwin_DEV.lo F.linkRwin_DEV.width 9)
  { s.modSeq 0 fun q => { q with
      pc := 0, g := (((q.g.set 1 0x60000004).set 2 0xC0000008).set 3 0x80000004).set 4 0x40B00000 } with
    pcie := { cfg := [(1, 0x00100004)] } }
def wbuf1 : State := h0 fun q => { q with wbuf := [{ addr := 0x1003FFFF, size := 1, data := 5 }] }
def wbuf2 : State := h0 fun q => { q with wbuf := [{ addr := 0x20000000, size := 8, data := 0x0807060504030201 }, { addr := 0x1003FFFF, size := 1, data := 5 }] }
/-- H0's oldest write goes to `a`, one to the Landing stands behind it; held back by a full FIFO; on its way; eight of them. -/
def wbufN (a : Nat) : State := atOut.modSeq 0 fun q => { q with wbuf := [{ addr := a, size := 4, data := 0x12345678 }, { addr := 0x10000000, size := 1, data := 5 }] }
def wbufHeld : State :=
  let s := (wbufN (0x40000000 + (rg .annexCfgData).off)).setReg (rg .annexCfgCtl) 1
  { s with annex := { s.annex with wfifo := List.replicate 64 0 } }
def wbufSent : State := atOut.modSeq 0 fun q => { q with wbuf := [{ addr := 0x60000004, size := 4, data := 5, sent := true }] }
def wbufFull : State := atOut.modSeq 0 fun q => { q with wbuf := List.replicate 8 { addr := 0x10000040, size := 4, data := 0x87654321 } }
def wbufStuck : State := atOut.modSeq 0 fun q => { q with wbuf := List.replicate 8 { addr := 0x60000004, size := 4, data := 5, sent := true } }
/-- G1 past Study, G2 at an odd register address, G3 in the boot ROM. -/
def badAddr : State := h0 fun q => { q with vbr := 0, g := ((q.g.set 1 0x40000).set 2 0x40000001).set 3 0xF0000000 }
def fpNums : State := h0 fun q => { q with f := #v[0x3F800000, 0xC0490FDB, 0, 0x80000000, 1, 0x807fffff, 0x7f800000, 0xff800000, 0x7fc00000, 0x7f800001, 0x7f7fffff, 0x00800000, 0x4b000000, 0xcb000001, 0x3f000000, 0x4f000000], g := #v[0,1,2,0x7fffffff,0x80000000,0xffffffff,0x01000001,0x02000003,0x12345678,0x87654321,3,4,5,6,7,8] }
/-- Subnormal trapping, with a subnormal operand. -/
def fpSubn : State := h0 fun q => { q with vbr := 0, fpctl := 4, f := q.f.set 0 1 }
/-- The invalid exception enabled, with a signalling operand. -/
def fpSnan : State := h0 fun q => { q with vbr := 0, fpctl := 0x100, f := q.f.set 0 0x7F800001 }
/-- A WAITEV with its latch set, and one whose limit can be reached. -/
def evHit : State := h0 fun q => { q with run := .waiting, ev := 1, wait := some ⟨0, 1, 0, 0, false⟩ }
def evMiss : State := h0 fun q => { q with run := .waiting, wait := some ⟨3, 1, 0xFFFFFFFE, 8, true⟩ }
/-- Port 5 is up and joined. -/
def joined5 : State := State.reset.setF (rg .kpStat 5) F.kpStat_STATE 3
def evqFull : State := joined5.modSeq 0 fun q => { q with evq := [(0, 0), (0, 0), (0, 0), (0, 0)] }
/-- Entry 7 belongs to H0 and is armed, entry 8 to H1; the tick is in G1 and G2. -/
def larm1 : State :=
  let s := h0 fun q => { q with g := ((((q.g.set 1 1).set 3 7).set 4 8).set 5 9).set 6 0x107 }
  let s := (s.setF (rg .leCtl 7) F.leCtl_OWNER 1).setF (rg .leCtl 8) F.leCtl_OWNER 2
  { s with mantel := { s.mantel with armed := s.mantel.armed.set 7 (some ⟨9, 0, 0, 0, false, false, 0, 0, 0, none⟩) } }
def unacked1 : State := h0 fun q => { q with unacked := 1 }
/-- G0 = 0, G1 = 1 and G2 = 0; H0 owns wing 0 and H1 wing 1. -/
def give1 : State := (h0 fun q => { q with g := q.g.set 1 1 }).setF (rg .arrayWown) (F.arrayWown_OWN 1) 1
/-- The owner of wing 1 has halted. -/
def give1Halt : State := give1.modSeq 1 fun q => { q with run := .halted }
/-- Microcode is loaded, and the plane pointers stand apart. -/
def micro : State := h0 fun q => { q with
  csDigest := some 7, wm := 1, p := (((q.p.set 1 0x00010100).set 2 0x00010200).set 3 0x00010300) }
/-- An operand word from d, a, b, the scalar's number, the width less one and the auxiliary field. -/
def opWord (d a b g w x : Nat) : Word := BitVec.ofNat 32 (d + 16 * a + 256 * b + 4096 * g + 65536 * w + 2 ^ 22 * x)
def microTrap0 : State := micro.modSeq 0 fun q => { q with wm := 0, fpctl := 4 }
def capd : State := h0 fun q => { q with caps := [⟨1, [(0, 65536, some 8191)]⟩] }
def capNone : State := h0 fun q => { q with caps := [⟨0, []⟩] }
def jobd : State := h0 fun q => { q with jobs := [⟨.ladd, true, 1, ⟨256, 1, 1⟩, 0, 0, false, []⟩] }
def uop : Uop := { a := .one, b := .zero, add := true, tt := 6, invb := true, dest := .x, ndir := .e }
/-- A routine of two micro-operations or more, part-way. -/
def rout : Routine := { op := .aset, addr := 0xF0000000, len := 7, mask := 1, mode := .postInc, opword := 0x00030003, rep := false, repa := false, atom := false, te := false, d := some ⟨256, 3, 1⟩, a := none, b := none, c := none, gval := 0, rm := 0, sub := false, lfp := 0, begun := true, offset := 1 }
def routAtom : Routine := { rout with atom := true }
/-- The routine stands part-way on H0, and source 712 asks for an interrupt. -/
def trapd : State :=
  (vIrq.setF (rg .asMcInfo) F.asMcInfo_MTDEPTH 1).modSeq 0 fun q => { q with vbr := 0x10000000, csDigest := some 7, routine := some rout }
def trapAtom : State := trapd.modSeq 0 fun q => { q with routine := some routAtom, atomx := 255 }
def trapWd : State := trapd.modSeq 0 fun q => { q with wdPend := true }
/-- SYS_REGERR holds a record. -/
def regErrd : State := State.reset.setReg (rg .sysRegerr) 0xC0000000
/-- A write of ARRAY_WOWN, ARRAY_BOUND or ARRAY_TOPO waits on H0. -/
def arrW : State := h0 fun q => { q with arrWrites := [.wown 0xFFFF, .bound 0, .topo 1] }
def arrB : State := h0 fun q => { q with arrWrites := [.bound 0x2AAAA, .topo 1] }
def arrT : State := h0 fun q => { q with arrWrites := [.topo 0xFF01] }
/-- W7 is being cleared. -/
def clearing7 : State := State.reset.setReg (rg .sysWpwr) 0xFFFFFFFF
/-- A microcode load waits, its image at an address that is no multiple of 8. -/
def mcMis : State := { (State.reset.setReg (rg .asMcSrc) 0x20000001) with verQ := [.microcode 0] }
/-- A microcode load whose header and key have been read. -/
def mcRead : State :=
  { ((State.reset.setReg (rg .asMcSrc) 0x20000000).setF (rg .asMcCtl) F.asMcCtl_TARGET 1) with verQ := [.microcode 0 (some { hd := [], key := [] })] }
def mcBodyR : State × ImgRead := mcRead.imgRead 8 (mcRead.mcSrc + 2720) 65552
def readOf (r : State × ImgRead) : List Byte := match r.2 with
  | .bytes l => l
  | _ => []
def ImgRead.good (r : ImgRead) : Bool := match r with
  | .bytes _ => true
  | _ => false
theorem read_eq {r : State × ImgRead} (h : ImgRead.good r.2 = true) : r = (r.1, .bytes (readOf r)) := by
  obtain ⟨s, _ | _ | _⟩ := r <;> first | rfl | exact nomatch h
def mcBody : List Byte := readOf mcBodyR
def mcSigR : State × ImgRead := mcBodyR.1.imgRead 8 (mcRead.mcSrc + 68272) 4627
def mcSig : List Byte := readOf mcSigR
def odd : State := { State.reset with count := 5, ns := 700 }
/-- A held change of ILV, and one with a DMA burst outstanding. -/
def ilvHeld : State := { State.reset with cellar := { Cellar.reset with ilvReq := some 1 } }
def ilvBusy : State := ilvHeld.modSeq 3 fun q => { q with wbuf := [{ addr := 0x20000000, size := 1, data := 0 }] }
/-- Banks in the states of the clauses. -/
def banksOff : State := { State.reset with cellar := { Cellar.reset with bank := (Vector.replicate 32 .off).set 5 .retain } }
def bankRet : State := State.reset.setF (rg .cellarPwr0) (F.cellarPwr0_BANK 0) 1
def bankOff31 : State := State.reset.setReg (rg .cellarPwr1) 0x80000000
def bankWak : State := { State.reset with cellar := { Cellar.reset with bank := Cellar.reset.bank.set 31 (.waking true) } }
/-- A starvation report stands. -/
def starved : State := State.reset.setReg (rg .cellarStarveStat) 0x80000000
def starveOff : State := State.reset.setReg (rg .cellarStarve) 0
def lateReq : Req := { tag := 4095, who := .dma 47, pcie := false, write := false, addr := 0x80000000, len := 8, port := 5, due := some 0 }
def tagged : State := { State.reset with reqs := [lateReq] }
/-- Channel 0 belongs to H0 and is IDLE, channel 1 to H3 and is ACTIVE. -/
def dmaOwned : State :=
  ((State.reset.setF (rg .dmaCtl 0) F.dmaCtl_OWNER 1).setF (rg .dmaCtl 1) F.dmaCtl_OWNER 4).setF (rg .dmaStat 1)
    F.dmaStat_STATE 1
/-- A descriptor with a reserved bit in the Landing, and a good fill in the Cellar. -/
def descBad : State := ((State.reset.setReg (rg .dmaCur 47) 0x10000000).setMemBytes 0x10000000 [0xFF, 0xFF])
def descGood : State := ((State.reset.setReg (rg .dmaCur 0) 0x20000000).setMemBytes 0x20000000 [2, 0, 0, 0, 4, 0, 0, 0, 0, 0, 0, 0, 0, 0, 0, 0x10])
def fillDesc : Desc := { kind := 2, irq := true, chain := false, len := 256, src := 0x04030201, dst := 0x1003FF00, rows := 0, sstride := 0, dstride := 0, next := 0 }
def copyDesc : Desc := { kind := 0, irq := false, chain := false, len := 1, src := 0x10000000, dst := 0x1003FFFF, rows := 0, sstride := 0, dstride := 0, next := 0 }
def dmaDone : State := (State.reset.setF (rg .dmaStat 0) F.dmaStat_STATE 1).modDma 0 fun _ => { desc := some fillDesc, row := 1 }
def dmaFill : State := (State.reset.setF (rg .dmaStat 0) F.dmaStat_STATE 1).modDma 0 fun _ => { desc := some fillDesc }
def dmaCopy : State :=
  ((State.reset.setF (rg .dmaStat 0) F.dmaStat_STATE 1).modDma 0 fun _ => { desc := some copyDesc }).setMemBytes 0x10000000 [7]
/-- A burst of channel 47 whose time is over. -/
def dmaLate : State := { State.reset with reqs := [lateReq], ns := 1 }
/-- The Planisher scrubs at window 1 of bank 0, or tests at window 382 of bank 31. -/
def planScrub : State :=
  { (State.reset.setF (rg .cellarPlanCtl) F.cellarPlanCtl_MODE 1) with cellar := { Cellar.reset with planNext := (0, 1) } }
def planMarch : State :=
  { ((State.reset.setF (rg .cellarPlanCtl) F.cellarPlanCtl_MODE 2).setReg (rg .cellarPlanFail) 0x80000000) with
    cellar := { Cellar.reset with planNext := (31, 382) } }
def planMarch0 : State := planMarch.setReg (rg .cellarPlanFail) 0
def planBad : State := putCellar planMarch0 fun c => { c with bad := [0x22FFE000], weak := [0x22FFE008] }
/-- Every lane of group 7 has the first three words of a preamble. -/
def wsOf (code : Nat) : LaneWords := Vector.replicate 8 (BitVec.ofNat 16 code)
def due (s : State) : State := s.modInl 7 fun i => { i with
  lanes := Vector.replicate 8 { last := [0, 0, BitVec.ofNat 16 (2 ^ wordBits s 7 - 1)], cur := { words := [0, 0, 5, 4], eol := false } } }
def clean1 : Vector (BitVec 64) 8 := Vector.replicate 8 0xFE00000000000000
def clean9 : Vector (BitVec 64) 8 := Vector.replicate 8 0xFF8
/-- No word is seen. -/
def seen0 : Vector (List (Option (BitVec 16))) 8 := Vector.replicate 8 []
/-- The host owns every inlet, and the slots of each are two. -/
def inlHost : State := (State.reset.setF (rg .swIctl 7) F.swIctl_OWNER 5).setF (rg .swWin 7) F.swWin_IDEPTH 2
def inlTwo : State := inlHost.modInl 7 fun i => { i with marks := [(1, 1), (2, 2)] }
def line0 : Line := { n := 4194304, slot := 0, late := false, skew := true, words := [[0xFFFF]] }
/-- Group 0 is in training. -/
def training : State := (State.reset.setF (rg .sgCtl 0) F.sgCtl_NL 0).modInl 0 fun i => { i with training := true }
/-- A line is in reception, at its end, or with the plane writer. -/
def receiving : State := State.reset.modInl 7 fun i => { i with rx := some line0 }
def ended0 : State :=
  ((State.reset.setF (rg .swIctl 0) F.swIctl_PXCNT 1).setF (rg .swWin 0) F.swWin_BPP 1).modInl 0 fun i => { i with ended := [line0] }
def written7 : State := State.reset.modInl 7 fun i => { i with writer := [(line0, true)] }
/-- Group 7 is ready and aligned, its inlet enabled: its gate open, or closed; or open with a mark. -/
def gateShut : State :=
  ((State.reset.setF (rg .sgCtl 7) F.sgCtl_EN 1).setReg (rg .sgStat 7) 7).setF (rg .swIctl 7) F.swIctl_EN 1
def idleGroup : State := gateShut.setF (rg .sgGate 7) F.sgGate_MODE 1
def marked : State :=
  ((idleGroup.modInl 7 fun i => { i with marks := [(5, 0)] }).setF (rg .swIctl 7) F.swIctl_OWNER 5).setF (rg .swWin 7)
    F.swWin_IDEPTH 64
def rcv (b : Bool) : State := if b then due (idleGroup.modInl 7 fun i => { i with rx := some line0 })
  else State.reset.modInl 0 fun i => { i with rx := some line0, lanes := Vector.replicate 8 { cur := { words := [1,2,3] , eol := false } } }
def laneSol : State := (due idleGroup)
def solAt (k : Nat) : State := State.reset.modInl 7 fun i => { i with lanes := Vector.replicate 8 { sol := some (k, {}), last := [1,2,3,4,5,6,7,8,9,10] } }
/-- Outlet 0 belongs to H0: idle; with a destination outside Cellar; busy; or after its record. -/
def outIdle : State := State.reset.setF (rg .soCtl 0) F.soCtl_OWNER 1
def outBad : State := outIdle.setReg (rg .ringBase 0) 0
def outBusy : State := { (outIdle.setF (rg .soStat 0) F.soStat_STATE 1) with outJobs := [(0, .compact 7 [5])] }
def outPlane : State := (outIdle.setF (rg .soCtl 0) F.soCtl_MODE 1).setReg (rg .soDst 0) 0x20000000
def outPl : State := { outBusy with outJobs := [(0, .plane 0x22FFFC00 [] [3])] }
def outDone1 : State := (outBusy.ringPutAll 7 [5]).1
def ringFull : State := State.reset.setF (rg .ringWptr 7) F.ringWptr_WPTR 8192
/-- Channel n runs and stands at the program word w; the rest of the channel is `f`. -/
def pch (n : Fin 512) (w : BitVec 24) (f : PorchCh → PorchCh) : State :=
  (((State.reset.setF (rg .chCtl n) F.chCtl_EN 1).setF (rg .peProg (n.val / 8) 0) F.peProg_WORD w.toNat).setF
    (rg .chPins n) F.chPins_PINCNT 8).modChan n f
/-- A program word with DWELL = 2 from its operation code and operand. -/
def pw (op : Fin 16) (operand : Nat) : BitVec 24 := porchWord op false 0 2 (Fin.ofNat 4096 operand)
/-- The host owns channel 511 and engine 63; channel 511 is stopped, with one pin of its own range. -/
def porchHost : State :=
  ((State.reset.setF (rg .chCtl 511) F.chCtl_OWNER 5).setF (rg .peCtl 63) F.peCtl_OWNER 5).setReg (rg .chPins 511)
    (BitVec.ofNat 32 (383 + 512))
def porchHostF (f : PorchCh → PorchCh) : State := hostUp (porchHost.modChan 511 f)
/-- A packet of the configuration port: its header and data with their CRC. -/
def pkt (ws : List Word) : List Word := ws ++ [crc32c (wordBytes ws)]
/-- The packet stands in the write FIFO, and region 31 is in state `st`. -/
def annPkt (st : Nat) (ws : List Word) : State :=
  putAnnex (State.reset.setF (rg .annexRstate1) (F.annexRstate1_STATE 15) st) fun x => { x with wfifo := pkt ws }
/-- The host owns the configuration port, whose read FIFO holds a word. -/
def annHost : State := putAnnex (State.reset.setF (rg .annexCfgCtl) F.annexCfgCtl_OWNER 5) fun x => { x with rfifo := [7] }
def annEmpty : State := State.reset.setF (rg .annexCfgCtl) F.annexCfgCtl_OWNER 5
/-- An image without a hallmark of one NOP packet, in Cellar, for H0, which owns the port. -/
def annImg : State :=
  let nop := (pkt [0]).flatMap fun w => bytesLE 4 w.toNat
  let s := (State.reset.setReg (rg .annexImgSrc) 0x20000000).setF (rg .annexCfgCtl) F.annexCfgCtl_OWNER 1
  { (s.setMemBytes 0x20000000 ([0x50, 0x46, 0x41, 0x58, 1, 0, 0x80, 0, 0, 0, 0, 0, 1, 0, 0, 0, 8] ++ List.replicate 111 0 ++ nop))
    with verQ := [.annex 0] }
def annHd : List Byte := match annImg.imgRead 8 0x20000000 128 with
  | (_, .bytes l) => l
  | _ => []
def annAll : List Byte := match annImg.imgRead 8 0x20000080 8 with
  | (_, .bytes l) => l
  | _ => []
def annFed : Feed :=
  feedPackets false 1 8 8 { state := annImg, opened := [], held := [], rest := bytesWords annAll }
def annMis : State := { (State.reset.setReg (rg .annexImgSrc) 0x20000004) with verQ := [.annex 3] }
def winStore : WinReq := { who := .store 0, region := 31, offset := 0, size := 4, data := some 1 }
def winLoad : WinReq := { who := .load 0, region := 31, offset := 0, size := 4, data := none, reached := true }
def annLoad : PendingLoad := { addr := 0x60000000, size := 4, fp := false, d := 3, upd := none, instr := 0, next := 4, te := true, rep := false }
/-- A request of a store or a load at region 31, in state `st`. -/
def annWin (st : Nat) (q : WinReq) : State := putAnnex (annPkt st []) fun x => { x with wfifo := [], wins := [q] }
def annAns : State := (annWin 2 winLoad).modSeq 0 fun q => { q with load := some annLoad }
def annOwed : State := putAnnex (annWin 2 winStore) fun x => { x with wins := [], owed := x.owed.set 31 1 }
def crcBad : State := putAnnex State.reset fun x => { x with wfifo := [0, 0] }
def winBuf : WriteEntry := { addr := 0x6F800000, size := 4, data := 1, sent := true }
def annSt (st : Nat) : State := (annWin st winStore).modSeq 0 fun q => { q with wbuf := [winBuf] }
def annFull : State := putAnnex annHost fun x => { x with wfifo := List.replicate 64 1 }
/-- The state after a command. -/
def nxt (o : Host.Outcome State Fault Refusal) : State := match o with
  | .next t => t
  | _ => State.reset
def armed0 : Armed := { tick := 0, action := 1, arg := 0x1F, group := 7, latePol := false, irq := true, period := 0, reps := 0 }
/-- Entry 0 is armed and due, its owner H0; output 15 is H0's, or nobody's; the count is 1. -/
def fireNo : State :=
  let s := ((State.reset.setF (rg .mantelCtl) F.mantelCtl_LEN 1).setF (rg .leCtl 0) F.leCtl_OWNER 1).setF (rg .leCtl 0) F.leCtl_ARMED 1
  { s with count := 1, mantel := { s.mantel with armed := s.mantel.armed.set 0 (some armed0), pulses := [(15, 0, 9)] } }
def fire15 : State := fireNo.setF (rg .outCtl 15) F.outCtl_OWNER 1
def fireEv : State := putMantel fireNo fun m => { m with armed := m.armed.set 0 (some { armed0 with action := 5 }) }
def fireA (a : Armed) : State := putMantel fire15 fun m => { m with armed := m.armed.set 0 (some a) }
/-- Entry 0's owner also owns inlet 7, DMA channel 47 and channel 5 with its pin GP3. -/
def fireOwn (a : Armed) : State :=
  ((((((fireA a).setF (rg .swIctl 7) F.swIctl_OWNER 1).setF (rg .dmaCtl 47) F.dmaCtl_OWNER 1).setF (rg .chCtl 5) F.chCtl_OWNER 1).setReg
    (rg .chPins 5) 0x203).setF (rg .gpOwn 3) F.gpOwn_HOLDER 2).setF (rg .gpOwn 3) F.gpOwn_ID 5
def armedBy (action : Nat) (arg : Word) : Armed := { armed0 with action, arg }
def pulse9 : State := { fireNo with count := 9 }
def follower : State :=
  { (State.reset.setF (rg .mantelCtl) F.mantelCtl_ROLE 2) with ns := 100001, mantel := { State.reset.mantel with syncAt := some 0 } }
/-- Entry 255 holds a tick of 1 at count 0. -/
def arm255 : State := State.reset.setReg (rg .leTlo 255) 1
/-- An entry whose two firings are all late. -/
def latePer : State := { State.reset with count := 5 }.setReg (rg .lePer 0) 0x02000002
/-- An entry that skips to its first tick in the future. -/
def lateSkip : State := { State.reset with count := 5 }.setReg (rg .lePer 0) 0x00000002
/-- The host owns output 15, group 7 and encoder 3. -/
def manHost : State :=
  ((State.reset.setF (rg .outCtl 15) F.outCtl_OWNER 5).setF (rg .grpCtl 7) F.grpCtl_OWNER 5).setF (rg .encCtl 3) F.encCtl_OWNER 5
/-- Encoder 3 counts up by its A levels, and generator 3 divides by its RATIO; or is smoothed and locked. -/
def lcOn : State := (State.reset.setF (rg .encCtl 3) F.encCtl_MODE 2).setReg (rg .lcCtl 3) 5
def lcSm (p : Int) (mean near : Nat) (acc : Int) : State :=
  putMantel { ((State.reset.setReg (rg .lcCtl 3) 9).setF (rg .lcStat 3) F.lcStat_LOCKED 1) with ns := 5 } fun m => { m with
    lc := m.lc.set 3 { mean, near, acc, next := some p, edge := some 0 } }
def lcSmooth : State := lcSm 0 (20 * 65536) 0 0
def lcStalled : State := { lcSmooth with ns := 81 }
def lv (a : Bool) : List Bool := List.replicate 20 a
def glitch : List Bool := [false, false, true, false]
def gst : State := { manHost with mantel := (fireNo.setF (rg .leCtl 0) F.leCtl_OWNER 5).mantel, regs := ((((manHost.setReg (rg .leCtl 0) 0x7025).setReg (rg .leCtl 1) 0x0025).setReg (rg .leCtl 2) 0x7021).setF (rg .grpCtl 7) F.grpCtl_SRC 2).regs }
def gst2 : State := putMantel gst fun m => { m with armed := (m.armed.set 1 (some { armed0 with group := 0 })).set 2 (some armed0) }
def stpDue : State := putMantel ((gst2.setReg (rg .mantelSteplo) 0x77).setReg (rg .mantelStephi) 0x3) fun m => { m with stepDue := true }
/-- Port 5 in STATE st, its control register v. -/
def port5 (st : Nat) (v : Word) : State := (State.reset.setF (rg .kpStat 5) F.kpStat_STATE st).setReg (rg .kpCtl 5) v
/-- Port 5 trains, with the lanes that show lock. -/
def trained (a b : Bool) : State :=
  { (((port5 1 1).setF (rg .kpStat 5) F.kpStat_LOCK0 (if a then 1 else 0)).setF (rg .kpStat 5) F.kpStat_LOCK1 (if b then 1 else 0)) with
    ns := 9 }
/-- A frame from device 9 at port 5, the first, with its body. -/
def h5 : LinkHdr := { dst := 7, src := 9 }
def f5h (h : LinkHdr) (b : LinkBody) : FrameIn :=
  let w := b.blocks.headD 0
  if b.wireClass = 3 then { port := 5, hdr := h, len := Fin.ofNat 256 (w.toNat / 2 ^ 16), addr := w.extractLsb' 32 32 }
  else { port := 5, hdr := h }
def f5 (b : LinkBody) : FrameIn := f5h h5 b
def f5bad : FrameIn := { port := 5, seen := some [.ctl ctlSof 0, .data 2] }
def f5seq (seq ack : Byte) (ackv : Bool) : FrameIn :=
  { port := 5, hdr := h5, seq, ack, ackv }
/-- The device is device 7 of a fabric, port 5 JOINED and on the way to device 9. -/
def fab : State :=
  (((port5 3 3).setReg (rg .linkCtl) (0x3C00 + 7)).setReg (rg .linkRt 1) 0xFFFFFF5F)
def fabUp : State := (fab.setF (rg .linkTree) F.linkTree_UP 5).setF (rg .mantelCtl) F.mantelCtl_ROLE 2
def fabDown : State := (fab.setF (rg .linkTree) F.linkTree_DOWN 32).setReg (rg .linkSync) 0x401
def fabMeas : State := putPort fab 5 fun p => { p with measuring := true }
/-- Port 5 has sent a frame with SEQ 3, and replayed it n times. -/
def sync5 : FrameIn := f5 (.sync 5 15)
def hello5 : LinkBody := .hello 0 9 true true
def helloed (s : State) : State := putPort s 5 fun p => { p with helloOut := true }
def sent5 (n : Nat) : State :=
  { (putPort fab 5 fun p => { p with sent := [(3, ⟨{}, .dlyreq⟩, 0)], replays := n }) with ns := 2001 }
/-- The frame's requester asks a second quote while one is made. -/
def attested : State := { fab with assay := { fab.assay with sigQ := [.remote 0 {} 0 0] } }
def lnkLoad : PendingLoad := { addr := 0x80000000, size := 4, fp := false, d := 3, upd := none, instr := 0, next := 4, te := true, rep := false }
def lnkReq (w : ReqWho) : Req := { tag := 4095, who := w, pcie := false, write := true, addr := 0x80000000, len := 4, port := 5, due := some 0, dev := 9 }
/-- A request of the device that is not answered yet; a load of H0; or one to be sent again. -/
def wait9 (w : ReqWho) : State := { fab with reqs := [lnkReq w], ns := 1 }
def waitLoad : State := (wait9 (.load 0)).modSeq 0 fun q => { q with load := some lnkLoad }
def againReq : Req := { lnkReq (.store 0) with again := true, hdr := { dst := 9, src := 7 } }
def waitAgain : State := { fab with reqs := [againReq] }
def attBusy : State := { (wait9 .attest) with assay := { fab.assay with att := some { req := 0, dev := 9, qaddr := 0, len := 4, issued := true } } }
/-- A management access through port 5. -/
def mgReady : State := fab.setReg (rg .linkMgRoute) 0x1000005
/-- EVENTs at port 5, the UP port; the queue open to every code, or full. -/
def ev5 (kind : Nat) : BitVec 64 := evWord 9 0 kind 7 0x10000001
def ev5bad : EventIn := { port := 5, evt := 0, data := 0 }
def evOpen : State := (fabUp.setReg (rg .linkEvstat) 0x20).setReg (rg .linkEvctl) 0
def evFull : State := putLink evOpen fun l => { l with evq := List.replicate 16 0 }
/-- A round of the system Chimney is open: round 1, and it times out at 0. -/
def round1 : State :=
  { (putLink (fabUp.setF (rg .linkSchimStat) F.linkSchimStat_BUSY 1) fun l => { l with schim := { round := 1, due := some 0 } }) with ns := 1 }
def round2 : State := putLink (round1.setF (rg .linkTree) F.linkTree_DOWN 32) fun l => { l with schim := { round := 2 } }
/-- The host owns the seam engine, idle or busy, and window 15. -/
def seamHost : State := (fab.setF (rg .linkSeamCtl) F.linkSeamCtl_OWNER 5).setF (rg .linkRwin 15) F.linkRwin_OWNER 5
def seamBusy : State := seamHost.setF (rg .linkSeamStat) F.linkSeamStat_BUSY 1
/-- A remote quote of n bytes for H0 is awaited. -/
def attOf (n : Nat) : RemoteAtt := { req := 0, dev := 9, qaddr := 0x10000000, len := n, issued := true }
def attQ (n : Nat) : State := { wait9 .attest with assay := { (wait9 .attest).assay with att := some (attOf n) } }
/-- The round with the children at ports 5 and 4, the parent at port `up`. -/
def roundOf (down up : Nat) : State :=
  let s := (((fab.setF (rg .kpStat 4) F.kpStat_STATE 3).setF (rg .linkTree) F.linkTree_DOWN down).setF (rg .linkTree) F.linkTree_UP up).setF
    (rg .linkSchimStat) F.linkSchimStat_BUSY 1
  putLink s fun l => { l with schim := { round := (payloadOf (ev5 2)).toNat / 2 ^ 28, count := 7, orv := true } }
/-- H0 owns the seam engine, which sends planes 3 and 4. -/
def seamSend : State :=
  let s := (fab.setF (rg .linkSeamCtl) F.linkSeamCtl_OWNER 1).setReg (rg .linkSeamSrc) 0x00082003
  (s.writePlane 1 3 (unitOnes 1) (BitVec.ofNat 8192 (2 ^ 384 + 5))).writePlane 8 4 (unitOnes 8) (BitVec.ofNat 8192 (2 ^ 8190 + 2 ^ 255))
def seamWest : State := seamHost.setF (rg .linkSeamCtl) F.linkSeamCtl_WPORT 5
def h5else : LinkHdr := { dst := 8, src := 9 }
def pcieUp : State := putPcie State.reset fun p => { p with ready := true }
def inD3 : State := State.reset.setF (rg .pcieLink) F.pcieLink_D3 1
def lockedOut : State := State.reset.setF (rg .asBootStat) F.asBootStat_LOCKOUT 1
def locked : State := State.reset.setF (rg .lodgeStat) F.lodgeStat_HOLDUP 1
/-- An outbound request of the device, with tag 0, and one of DMA channel 47. -/
def outReq (w : ReqWho) : Req := { tag := 0, who := w, pcie := true, write := false, addr := 0xC0000000, len := 4, port := 6, due := some 0 }
def outLoad : State :=
  { (State.reset.modSeq 0 fun q => { q with load := some lnkLoad }) with reqs := [outReq (.load 0)] }
def outDma : State := { State.reset with reqs := [outReq (.dma 47)], ns := 1 }
def linkUp : State := (State.reset.setReg (rg .pcieLink) 0x64).setF (rg .pcieLink) F.pcieLink_UP 1
def quoting : State := State.reset.setF (rg .pcieAttctl) F.pcieAttctl_BUSY 1
/-- Source 712 is in service at H0. -/
def served : State := { vIrq with service := [(712, 0)] }
def dbErrd : State := State.reset.setF (rg .dbErr) F.dbErr_VALID 1
/-- The HOLDUP_N condition; lock lost; too hot; records waiting, the slot at its last entry or full. -/
def lostLock : State := { State.reset with hlock := false }
def tooHot : State := State.reset.setF (rg .lodgeTherm) F.lodgeTherm_TEMP 511
def rec2 : FaultRec := { cause := 2, acts := 8, count := 5 }
def recs (next full : Nat) : State :=
  { (((State.reset.setF (rg .lodgeFslot) F.lodgeFslot_BASE 7).setF (rg .lodgeFslot) F.lodgeFslot_NEXT next).setF (rg .lodgeFslot) F.lodgeFslot_FULL full) with
    lodge := { recQ := [rec2] } }
/-- Watchdog 3 runs; it is at its limit, or at its warning. -/
def wdOn : State := (State.reset.setF (rg .wdCfg 3) F.wdCfg_EN 1).setF (rg .wdStat 3) F.wdStat_C 255
def wdWarn : State :=
  (((State.reset.setF (rg .wdCfg 3) F.wdCfg_EN 1).setF (rg .wdCfg 3) F.wdCfg_WARN 1).setF (rg .wdCfg 3) F.wdCfg_EXPIRE 2).setF
    (rg .wdStat 3) F.wdStat_C 1
/-- Only source 712 is routed. -/
theorem only712 : ∀ src, src < 768 → vIrq.flag (rg .dbSrc src) F.dbSrc_SEN = true → src = 712 := by decide +kernel
/-- No source is routed after reset. -/
theorem none_routed : ∀ src, src < 768 → State.reset.flag (rg .dbSrc src) F.dbSrc_SEN = false := by decide +kernel
/-- IDLE is asked for; IDLE or DEEP stands, the host's doorbell raised with its wake on. -/
def idlePend : State := State.reset.setF (rg .sysPwrstat) F.sysPwrstat_PENDING 1
def idleNow : State := State.reset.setF (rg .sysPwrstat) F.sysPwrstat_STATE 1
def deepNow : State :=
  ((State.reset.setF (rg .sysPwrstat) F.sysPwrstat_STATE 2).setF (rg .sysPwrctl) F.sysPwrctl_WHDB 1).setReg (rg .pcieHdb) 1
/-- H0 owns wing 7, on or off. -/
def wingOff7 : State := State.reset.setReg (rg .sysWpwr) 0x7F
/-- Every wing but the first is another's. -/
def wing0H1 : State := State.reset.setReg (rg .arrayWown) 1
def vioUp' : State := State.reset.setF (rg .bankStat 0) F.bankStat_VLVL 1
/-- POR_N is low; a warm reset waits for its release; the Lodge asks for one. -/
def porLow : State := { State.reset with power := { por := true }, hlock := false }
def vioUp : State := porLow.setF (rg .bankStat 0) F.bankStat_VLVL 2
def warmWait : State := putPower State.reset fun p => { p with warm := some { pin := true } }
def wrst9 : State := { State.reset with lodge := { State.reset.lodge with wrst := some 9 } }
/-- An OTP operation runs; the first key slot and slot 1 are valid; the part is sealed. -/
def otpRun (op v : Nat) : State :=
  putAssay ((State.reset.setReg (rg .asOtp 66) 3).setF (rg .asBootInfo) F.asBootInfo_SVN 64) fun a => { a with otp := some (op, v, 5) }
def otpSeal : State := (otpRun 3 2).setReg (rg .asOtp 66) 0x1000
def otpBusy : State := State.reset.setF (rg .asOtpStat) F.asOtpStat_BUSY 1
/-- An extension of measurement 7 is at the front, refused or not. -/
def extRun (b : Bool) : State := putAssay State.reset fun a => { a with sigQ := [.extend 7 255 b] }
/-- A quote is at the front: its request at an odd address, or in the Landing without a seed, or with one. -/
def quoteMis : State := putAssay (State.reset.setReg (rg .asAttReq) 4) fun a => { a with sigQ := [.own] }
def quoteReq : State :=
  putAssay (State.reset.setMemBytes 0x10000000 [0x50, 0x46, 0x41, 0x51, 1, 0, 1, 1, 0, 0x10, 0, 0x10]) fun a =>
    { a with sigQ := [.own], snap := some (5, []) }
def quoteSeed : State := quoteReq.setReg (rg .asOtp 66) 0x800
def quoteBytes : List Byte := [0x50, 0x46, 0x41, 0x51, 1, 0, 1, 1, 0, 0x10, 0, 0x10] ++ List.replicate 52 0
/-- A flash transaction of 256 bytes runs; or is pre-empted by a record; or its buffer is at an odd address. -/
def bspiRun : State :=
  { State.reset.setF (rg .asBspiStat) F.asBspiStat_BUSY 1 with
    assay := { State.reset.assay with bspi := (0x1000000, 0, 0x10000000) } }
def bspiRec : State := bspiRun.setF (rg .lodgeStat) F.lodgeStat_RECBUSY 1
def bspiMis : State := { bspiRun with assay := { bspiRun.assay with bspi := (0x1000000, 0, 0x10000001) } }
def bspiWr : State := { bspiRun with assay := { bspiRun.assay with bspi := (0x1004000, 0, 0x10000000) } }
/-- H0 holds pin 383; every safe state is locked. -/
def pin383 : State := State.reset.setReg (rg .gpOwn 383) 9
def pinSafe : State := State.reset.setReg (rg .pinsCtl) 1
/-- RC, and what an addition reads. -/
def rc5 : State := h0 fun q => { q with rc := 5, g := q.g.set 3 0x12345678 }
def iRep : Issue := { h := 0, prefixes := [.rep] }
/-- MSI-X on, source 712 raised and forwarded on vector 0, masked or not. -/
def msx : State := (vIrq.setReg (rg .dbSrc 712) 0x20C0).settle
def msxU : State := { msx with pcie := { msx.pcie with cfg := [(36, 0x803F0011)] } }
/-- The boot ROM: at its start with the strap at `sel`; in recovery, with a push waiting or not; before the check of an image
at an odd address; at hand-over. -/
def bootSel (sel : Nat) : State := State.reset.setF (rg .asBootStat) F.asBootStat_BOOTSEL sel
def bootRec (go : Nat) : State :=
  bootAt ((State.reset.setF (rg .pcieBoot) F.pcieBoot_GO go).setReg (rg .pcieBootaddr) 0x10000008) .recovery
def bootBad (sel : Nat) : State :=
  putAssay (bootSel sel) fun a => { a with boot := { a.boot with img := 0x10000001, stage := .check } }
def bootEnd : State :=
  putAssay ((State.reset.setF (rg .asBootStat) F.asBootStat_LOCKOUT 1).modSeq 0 fun q => { q with flg := 3, study := [(5, 5)] })
    fun a => { a with boot := { a.boot with stage := .measure 12 false, img := 0x20000000, heads := 0x81, hdr := List.replicate 128 4 } }

/-- Sources of vectors 0 and 1 risen but not yet seen, pending with the unmasking not yet seen, masked, with MSI-X off, and
vector 63 too. -/
def msxRise : State := { msxU with pcie := { msxU.pcie with last := 0, pba := 0, table := [(4, 0xFEE00000), (6, 77), (7, 0)] } }
/-- A command waits beside a byte of memory; a STEP is due; the Lodge carries the count; a follower slews. -/
def stepWrite : State := { State.reset with pending := [.registerWrite (.seq 0) 0x700010 5], mem := [(5, 7)], count := 7 }
def cntStep : State := { (State.reset.setReg (rg .mantelSteplo) 7).setReg (rg .mantelStephi) 5 with mantel := { stepDue := true }, count := 99 }
def cntCarry : State := { State.reset with hlock := false, count := 0xFFFFFFFFFFFFFFF0 }
/-- Operands for neighbour reads: 5 in every wing and 0 in the halos; other bits everywhere. -/
def nbB (u : Nat) : Plane := if u = 0 ∨ u = 9 then 0 else 5
theorem nbBz : ∀ j, 64 ≤ j → (nbB 0).getLsbD j = false ∧ (nbB 9).getLsbD j = false := fun j _ => by simp [nbB]

/-! ### Well-formedness: one ill-formed command for each check, refused -/

theorem test_wf_reserved_prefix : (Instr.nop (.seq { h := 0, prefixes := [.reserved 0xB1] })).wf = false := by decide
theorem test_wf_prefix_of_register_form : (Instr.add { h := 0, prefixes := [.reserved 0] } 1 2).wf = false := by decide
theorem test_wf_immediate : (Instr.addi i0 1 0 256).wf = false := by decide
theorem test_wf_displacement : (Instr.ld i0 1 2 (.indexed 0 0 1 256)).wf = false := by decide
theorem test_wf_branch : (Instr.bcc i0 false 256 0).wf = false := by decide
theorem test_wf_register_offset : (Instr.registerWrite .host 0xD00000 0).wf = false := by decide
theorem test_wf_window : (Instr.planisherWindow .none (some (128, 0))).wf = false := by decide
theorem test_wf_host_read : (Instr.pcieInboundRead 0 0 0).wf = false := by decide
theorem test_wf_host_write : (Instr.pcieInboundWrite 0 0 [] []).wf = false := by decide
theorem test_wf_completion : (Instr.pcieCompletion 0 .ok (List.replicate 4097 0)).wf = false := by decide +kernel
theorem test_wf_frame : (Instr.dlyreq { port := 0, seen := some (List.replicate 36 (.data 0)) }).wf = false := by decide
theorem test_wf_bulk_data : (Instr.bulkWrite { port := 0 } 0 0 0 256 []).wf = false := by decide
theorem test_wf_response_data : (Instr.rdrsp { port := 0 } 0 0 256).wf = false := by decide
theorem test_wf_seam_planes : (Instr.seamFrame { port := 0 } 0 true [] 0).wf = false := by decide
theorem test_wf_seam_planes_above : (Instr.seamFrame { port := 0 } 0 true (List.replicate 33 0) 0).wf = false := by decide
theorem test_wf_good : (Instr.addi i0 1 0 255).wf = true := by decide

/-! ### The spec's worked encodings (06), and one word of every page from its tables -/

theorem test_decode_aadd : Decode.instr 0 [0xB1, 0xB4, 0xB8, 0x0F, 0xE0, 0x00, 0x40, 0x43, 0x05, 0xC7, 0x01, 0, 0, 0, 0, 0] =
    .aadd { h := 0, prefixes := [.rep, .atom, .wm 0x0F] } ⟨.postInc, 0x01C70543⟩ := by decide +kernel
theorem test_decode_acmpi : Decode.instr 1 [0xE0, 0x06, 0x00, 0x20, 0x40, 0xCF, 0x00] =
    .acmpi { h := 1 } ⟨.register, 0x00CF4020⟩ := by decide +kernel
theorem test_decode_lfma : Decode.instr 0 [0xE1, 0x23, 0x00, 0x21, 0x43] = .lfma { h := 0 } ⟨.register, 0x4321⟩ := by decide +kernel
theorem test_decode_ld : Decode.instr 0 [0x92, 0xD6, 0x34, 0x40] = .ld { h := 0 } 2 2 (.indexed 5 3 1 0x40) := by decide +kernel
theorem test_decode_ld_disp16 : Decode.instr 0 [0x91, 0xCA, 0xF8, 0x34, 0x12] = .ld { h := 0 } 1 2 (.indexed 2 15 2 0x1234) := by
  decide +kernel
theorem test_decode_st : Decode.instr 0 [0xAE, 0xBE] = .st { h := 0 } 14 2 (.preDec 15) := by decide +kernel
theorem test_decode_movi : Decode.instr 0 [0x84, 0x1A, 0x14, 0x82, 0, 0] = .movi { h := 0 } 4 2 33300 := by decide +kernel
theorem test_decode_bne : Decode.instr 0 [0xE4, 0xFA, 0x02] = .bcc { h := 0 } false 0xFA 2 := by decide +kernel
theorem test_decode_fadd : Decode.instr 0 [0xE2, 0x00, 0x21, 0x03] = .fadd { h := 0 } 1 2 3 := by decide +kernel
theorem test_decode_mba : Decode.instr 0 [0xE3, 0x0B] = .mba { h := 0 } := by decide +kernel

/-- Three of the faulting sequences of 06: a 17th byte needed, a reserved prefix, an undefined page 1 opcode. -/
theorem test_decode_length : Decode.instr 0 (List.replicate 10 0xB4 ++ [0xE0, 0x00, 0x00, 0x43, 0x05, 0xCB]) =
    .nop (.seq { h := 0, prefixes := List.replicate 10 .atom, opc := .over }) := by decide +kernel
theorem test_decode_reserved_prefix : Decode.instr 0 [0xB5, 0xEC] = .nop (.seq { h := 0, prefixes := [.reserved 0xB5] }) := by
  decide +kernel
theorem test_decode_undefined : Decode.instr 0 [0xE0, 0x40] = .nop (.seq { h := 0, opc := .undef true }) := by decide +kernel

/-! ### The spec's worked examples -/

/-- 09, locating an address: offset 0x0123_45FC lies in CB5, granule 2,330, byte 252. -/
theorem test_bank_of_32 : bankOf 32 0x012345FC = (5, 2330 * 256 + 252) := by decide
/-- The same with W = 8: CB13, granule 3,176. -/
theorem test_bank_of_8 : bankOf 8 0x012345FC = (13, 3176 * 256 + 252) := by decide
/-- 11, SPI program: SHO at address 3, BR at 5, PUSH at 6. -/
theorem test_porch_sho : decodePorch 0x321001 = some (.sho 0 false 1) ∧ pSp 0x321001 = 2 ∧ pDwell 0x321001 = 1 := by decide
theorem test_porch_br : decodePorch 0x030203 = some (.br 2 3) ∧ pSp 0x030203 = 3 := by decide
theorem test_porch_push : decodePorch 0x790000 = some (.push 0) ∧ pW 0x790000 = true ∧ pSp 0x790000 = 1 := by decide
/-- 08, the frame of an interrupted AMUL. -/
def amulRoutine : Routine :=
  { op := .amul, addr := 0, len := 7, mask := 0xFF, mode := .register, opword := 0x000B0201, rep := false, repa := false,
    atom := false, te := false, d := some ⟨0x58, 1, 1⟩, a := some ⟨0x18, 0, 1⟩, b := some ⟨0x30, 2, 1⟩, c := none, gval := 0,
    rm := 0, sub := false, lfp := 0xFDA, offset := 54 }
theorem test_frame_words :
    [0x00, 0x08, 0x0C, 0x10, 0x14, 0x18, 0x1C, 0x20, 0x24].map (fun o => field (amulRoutine.frame 0 0) o 4) =
      [0x00FF0701, 0x00030036, 0x000B0201, 0x00019058, 0x00018018, 0x0001A030, 0, 0, 0x000FDA00] := by
  decide +kernel
/-- 02, reads near boundaries: B0 = ZERO, B2 = WRAP, every other boundary JOIN. -/
def exampleModes (k : Nat) : Nat := if k = 0 then 1 else if k = 2 then 2 else 0
/-- Only bit `j` of unit `v` offers a 1. -/
def oneBit (v j u : Nat) : Plane := if u = v then BitVec.ofNat 8192 (2 ^ j) else 0
theorem test_reads_wrap : (nbr1D exampleModes true 1 2 (oneBit 1 0)).getLsbD 8191 = true := by decide +kernel
theorem test_reads_wrap_32 : (nbr1D exampleModes true 32 2 (oneBit 1 18)).getLsbD 8178 = true := by decide +kernel
theorem test_reads_join : (nbr1D exampleModes true 32 1 (oneBit 2 30)).getLsbD 8190 = true := by decide +kernel
theorem test_reads_zero : nbr1D exampleModes false 32 1 (oneBit 0 63) = 0 := by decide +kernel
theorem test_reads_last_wing : (nbr1D exampleModes false 1 3 (oneBit 8 8191)).getLsbD 0 = true := by decide +kernel
theorem test_reads_halo : (nbr1D exampleModes true 32 8 (oneBit 9 26)).getLsbD 8186 = true := by decide +kernel

/-! ### Worked by hand from the rules -/

/-- R177: 0x7FFF_FFFF + 1 sets N and V and clears Z and C. -/
theorem test_add_overflow : aluAdd 32 0x7FFFFFFF 1 = ⟨0x80000000, some false, some true, some false, some true⟩ := by decide
/-- R179: SHL by 1 under NARROW puts bit 15 into C. -/
theorem test_shl_narrow : (aluShift .shl 16 0x8001 1).r = 2 ∧ (aluShift .shl 16 0x8001 1).c = some true := by decide
/-- R203: 1.0 + 2.0 = 3.0, and the greatest number doubled overflows. -/
theorem test_fadd : fpAdd 0 0x3F800000 0x40000000 = (0x40400000, 0) := by decide +kernel
theorem test_fadd_overflow : fpAdd 0 0x7F7FFFFF 0x7F7FFFFF = (0x7F800000, fOF ||| fIX) := by decide +kernel
/-- 12: CRC-32C of the nine digits (the check value of this CRC). -/
theorem test_crc32c : crc32c [0x31, 0x32, 0x33, 0x34, 0x35, 0x36, 0x37, 0x38, 0x39] = 0xE3069283 := by decide +kernel

/-! ### Witnesses -/

theorem witness_add_sub_logic_move_forms : Sys2Proof.Claims.AddSubLogicMoveForms →
    Runs (Instr.add i0 0 15) State.reset ∧
    Runs (Instr.add iN 0 15) State.reset ∧
    Runs (Instr.addi iN 15 1 65535) State.reset ∧
    Runs (Instr.addi i0 15 2 4294967295) State.reset := fun H =>
  ⟨(H.1.1 i0 0 15 State.reset (by decide) (by decide)).runs,
    (H.1.1 iN 0 15 State.reset (by decide) (by decide)).runs,
    (H.2.1 iN 15 1 0xFFFF State.reset (by decide) (by decide) (by decide)).runs,
    (H.2.1 i0 15 2 0xFFFFFFFF State.reset (by decide +kernel) (by decide +kernel) (by decide +kernel)).runs⟩

theorem witness_scalar_shifts : Obligations.ScalarShifts →
    Runs (Instr.shl i0 0 1) State.reset ∧
    Runs (Instr.shli i0 0 0 31) State.reset ∧
    Runs (Instr.shli iN 0 0 15) State.reset := fun H =>
  ⟨(H.1.1 i0 0 1 State.reset (by decide) (by decide)).runs,
    (H.2.1 i0 0 31 State.reset (by decide) (by decide) (by decide)).runs,
    (H.2.1 iN 0 15 State.reset (by decide) (by decide) (by decide)).runs⟩

theorem witness_scalar_multiply_divide : Obligations.ScalarMultiplyDivide →
    Runs (Instr.mul i0 0 1) State.reset ∧
    Runs (Instr.muli iN 0 0 3) State.reset := fun H =>
  ⟨(H.1 i0 0 1 State.reset (by decide) (by decide)).runs,
    (H.2.1 iN 0 0 3 State.reset (by decide) (by decide) (by decide)).runs⟩

theorem witness_control_transfer : Obligations.ControlTransfer →
    Runs (Instr.bcc i0 false 128 0) State.reset ∧
    Runs (Instr.bcc i0 true 4294967295 14) State.reset ∧
    Runs (Instr.call i0 4294967295) State.reset ∧
    Runs (Instr.jmp i0 15) State.reset ∧
    Runs (Instr.callr i0 14) State.reset ∧
    Runs (Instr.ret i0) State.reset ∧
    Runs (Instr.nop (NopSite.seq i0)) State.reset := fun H =>
  ⟨(H.1 false 0x80 0 (by decide) i0 State.reset (by decide) (by decide)).runs,
    (H.1 true 0xFFFFFFFF 14 (by decide) i0 State.reset (by decide) (by decide)).runs,
    (H.2.1 0xFFFFFFFF i0 State.reset (by decide) (by decide)).runs,
    (H.2.2.1 15 i0 State.reset (by decide) (by decide)).runs,
    (H.2.2.2.1 14 i0 State.reset (by decide) (by decide)).runs,
    (H.2.2.2.2.1 i0 State.reset (by decide) (by decide)).runs,
    (H.2.2.2.2.2 i0 State.reset (by decide) (by decide)).runs⟩

theorem witness_special_registers_and_pointers : Obligations.SpecialRegistersAndPointers →
    Runs (Instr.mfs i0 0 10) State.reset ∧
    Runs (Instr.mts i0 1 15) State.reset ∧
    Runs (Instr.mts i0 8 0) esrVal ∧
    Runs (Instr.pset i0 7 4095 255) State.reset ∧
    Runs (Instr.paddi i0 0 65535) State.reset ∧
    Runs (Instr.padd i0 0 15) State.reset ∧
    Runs (Instr.mfp i0 0 7) State.reset ∧
    Runs (Instr.mtp i0 0 15) State.reset := fun H =>
  ⟨(H.1 0 10 (by decide) i0 State.reset (by decide) (by decide)).runs,
    (H.2.1 1 15 i0 State.reset (by decide) (by decide) (by decide) (by decide)).runs,
    (H.2.1 8 0 i0 esrVal (by decide) (by decide) (by decide) (by decide)).runs,
    (H.2.2.1 7 0xFFF 0xFF i0 State.reset (by decide) (by decide)).runs,
    (H.2.2.2.1 0 0xFFFF i0 State.reset (by decide) (by decide)).runs,
    (H.2.2.2.2.1 0 15 i0 State.reset (by decide) (by decide)).runs,
    (H.2.2.2.2.2.1 0 7 i0 State.reset (by decide) (by decide)).runs,
    (H.2.2.2.2.2.2 0 15 i0 State.reset (by decide) (by decide)).runs⟩

theorem witness_exception_entry : Sys2Proof.Claims.ExceptionEntry →
    State.enter v0 0 1 0 false 0 none = entered v0 0 1 0 false 0 none 0 ∧
    State.enter v0 0 31 0 true 0 none = entered v0 0 31 0 true 0 none 0 ∧
    State.enter vLand 0 9 0 false 0 none = State.setPc (State.ramRead (pushed vLand 0 9 0 false 0 none) (0) ((BitVec.toNat (State.seq vLand 0).vbr + 4 * 9) % 2 ^ 32) 4).1 0 0 ∧
    State.enter vCell 0 9 0 false 0 none = State.setPc (State.ramRead (pushed vCell 0 9 0 false 0 none) (0) ((BitVec.toNat (State.seq vCell 0).vbr + 4 * 9) % 2 ^ 32) 4).1 0 0 ∧
    ((State.seq (State.enter badSp 0 9 0 false 0 none) 0).run = RunState.halted ∧ (State.seq (State.enter badSp 0 9 0 false 0 none) 0).hcause = 2 ∧ (State.enter badSp 0 9 0 false 0 none).lodgeQ = badSp.lodgeQ ++ [12 + 0]) ∧
    ((State.seq (State.enter badVbr 0 9 0 false 0 none) 0).run = RunState.halted ∧ (State.seq (State.enter badVbr 0 9 0 false 0 none) 0).hcause = 4) ∧
    (State.enter vBuf 0 9 0 false 0 none = State.modSeq (pushed vBuf 0 9 0 false 0 none) 0 fun q => { q with vec := some ((BitVec.toNat (State.seq vBuf 0).vbr + 4 * 9) % 2 ^ 32) }) ∧
    (State.vectorStep vVec 0 = State.setPc (State.modSeq vVec 0 fun q => { q with vec := none }) 0 7) := fun H =>
  ⟨(H v0 0 1 0 false 0 none (by decide) (by decide)).1 0 ⟨by decide, by decide⟩,
    (H v0 0 31 0 true 0 none (by decide) (by decide)).1 0 ⟨by decide, by decide⟩,
    (H vLand 0 9 0 false 0 none (by decide) (by decide)).2.1 0 (by decide) (by decide) (by decide) (Or.inl (by decide)),
    (H vCell 0 9 0 false 0 none (by decide) (by decide)).2.1 0 (by decide) (by decide +kernel) (by decide) (Or.inr (by decide)),
    (H badSp 0 9 0 false 0 none (by decide) (by decide)).2.2.1 (by decide),
    (H badVbr 0 9 0 false 0 none (by decide) (by decide)).2.2.2.1 (by decide) (by decide) (by decide),
    (H vBuf 0 9 0 false 0 none (by decide) (by decide)).2.2.2.2.1 (by decide) (by decide),
    (H vVec 0 9 0 false 0 none (by decide) (by decide)).2.2.2.2.2 0x10000024 7 (by decide) (by decide) (by decide) (Or.inr rfl)⟩

theorem witness_entries_taken : Sys2Proof.Claims.EntriesTaken →
    Runs (Instr.sc i0 0) v0 ∧
    Runs (Instr.interruptEntry 0) vIrq ∧
    Runs (Instr.watchdogEntry 0) vWd ∧
    Runs (Instr.traceEntry 0) vTr := fun H =>
  ⟨(H.1 i0 0 v0 0 (by decide) (by decide) ⟨by decide, by decide⟩).runs,
    (H.2.1 0 vIrq 0 0 (by decide) (by decide) (by decide) (by decide) (by decide) (by decide) (by decide) (by decide) (by decide) (by decide) (by decide) ⟨by decide, by decide⟩).runs,
    (H.2.2.1 0 vWd 0 (by decide) (by decide) (by decide) (by decide) (by decide) (by decide) ⟨by decide, by decide⟩).runs,
    (H.2.2.2 0 vTr 0 (by decide) (by decide) (by decide) (by decide) ⟨by decide, by decide⟩).runs⟩

theorem witness_undefined_instructions_raise_1 : Sys2Proof.Claims.UndefinedInstructionsRaise →
    Runs (Instr.nop (NopSite.seq { h := 0, opc := Opc.over })) v0 ∧
    Runs (Instr.nop (NopSite.seq { h := 0, prefixes := [Prefix.rep, Prefix.atom, Prefix.narrow, Prefix.rep, Prefix.reserved 181] })) v0 ∧
    Runs (Instr.nop (NopSite.seq { h := 0, prefixes := List.replicate 15 Prefix.rep })) v0 ∧
    Runs (Instr.nop (NopSite.seq { h := 0, prefixes := [Prefix.reserved 191] })) v0 ∧
    Runs (Instr.nop (NopSite.seq { h := 0, prefixes := [Prefix.rep, Prefix.repa] })) v0 ∧
    Runs (Instr.nop (NopSite.seq { h := 0, prefixes := [Prefix.wm 0, Prefix.wm 255] })) v0 ∧
    Runs (Instr.nop (NopSite.seq undef0)) v0 ∧
    Runs (Instr.nop (NopSite.seq undef1)) v0 ∧
    Runs (Instr.nop (NopSite.seq { h := 0, resv := true })) v0 ∧
    Runs (Instr.nop (NopSite.seq { h := 0, prefixes := [Prefix.narrow] })) v0 := fun H =>
  ⟨((H { h := 0, prefixes := [], opc := .over } v0 0 (by decide)).1 rfl (by decide) ⟨by decide, by decide⟩).runs,
    ((H { h := 0, prefixes := [.rep, .atom, .narrow, .rep, .reserved 0xB5] } v0 0 (by decide)).2.1 rfl (by decide) (by decide) (fun m => by simp) (by decide) ⟨by decide, by decide⟩).runs,
    ((H { h := 0, prefixes := List.replicate 15 .rep } v0 0 (by decide)).2.1 rfl (by decide) (by decide) (fun m => by simp) (by decide) ⟨by decide, by decide⟩).runs,
    ((H { h := 0, prefixes := [.reserved 0xBF] } v0 0 (by decide)).2.2.1 0xBF rfl rfl (by decide) ⟨by decide, by decide⟩).runs,
    ((H { h := 0, prefixes := [.rep, .repa] } v0 0 (by decide)).2.2.2.1 rfl (by decide) (by decide) ⟨by decide, by decide⟩).runs,
    ((H { h := 0, prefixes := [.wm 0, .wm 255] } v0 0 (by decide)).2.2.2.2.1 0 255 rfl rfl (by decide) ⟨by decide, by decide⟩).runs,
    ((H undef0 v0 0 (by decide)).2.2.2.2.2.1 true rfl rfl (by decide) ⟨by decide, by decide⟩).runs,
    ((H undef1 v0 0 (by decide)).2.2.2.2.2.1 false rfl rfl (by decide) ⟨by decide, by decide⟩).runs,
    ((H { h := 0, prefixes := [], resv := true } v0 0 (by decide)).2.2.2.2.2.2.1 rfl rfl rfl (by decide) ⟨by decide, by decide⟩).runs,
    (((H { h := 0, prefixes := [.narrow] } v0 0 (by decide)).2.2.2.2.2.2.2.1 rfl rfl).1 rfl (by decide) ⟨by decide, by decide⟩).runs⟩

theorem witness_undefined_instructions_raise_2 : Sys2Proof.Claims.UndefinedInstructionsRaise →
    Runs (Instr.nop (NopSite.seq { h := 0, prefixes := [Prefix.wm 1] })) v0 ∧
    Runs (Instr.mfs { h := 0, prefixes := [Prefix.rep] } 15 0) v0 ∧
    Runs (Instr.mts { h := 0, prefixes := [Prefix.rep] } 0 15) v0 ∧
    Runs (Instr.ret { h := 0, prefixes := [Prefix.rep] }) v0 ∧
    Runs (Instr.mbr { h := 0, prefixes := [Prefix.rep] }) v0 ∧
    Runs (Instr.nop (NopSite.seq { h := 0, prefixes := [Prefix.repa] })) v0 ∧
    Runs (Instr.bcc i0 true 0 15) v0 ∧
    Runs (Instr.bcc i0 false 0 15) v0 ∧
    Runs (Instr.mfs i0 0 15) v0 ∧
    Runs (Instr.mts i0 11 0) v0 := fun H =>
  ⟨(((H { h := 0, prefixes := [.wm 1] } v0 0 (by decide)).2.2.2.2.2.2.2.1 rfl rfl).2.1 1 rfl (by decide) ⟨by decide, by decide⟩).runs,
    ((((H { h := 0, prefixes := [.rep] } v0 0 (by decide)).2.2.2.2.2.2.2.1 rfl rfl).2.2.1 rfl).1 15 (by decide) ⟨by decide, by decide⟩).runs,
    ((((H { h := 0, prefixes := [.rep] } v0 0 (by decide)).2.2.2.2.2.2.2.1 rfl rfl).2.2.1 rfl).2.1 15 (by decide) ⟨by decide, by decide⟩).runs,
    ((((H { h := 0, prefixes := [.rep] } v0 0 (by decide)).2.2.2.2.2.2.2.1 rfl rfl).2.2.1 rfl).2.2.1 (by decide) ⟨by decide, by decide⟩).runs,
    ((((H { h := 0, prefixes := [.rep] } v0 0 (by decide)).2.2.2.2.2.2.2.1 rfl rfl).2.2.1 rfl).2.2.2 (by decide) ⟨by decide, by decide⟩).runs,
    (((H { h := 0, prefixes := [.repa] } v0 0 (by decide)).2.2.2.2.2.2.2.1 rfl rfl).2.2.2 rfl (by decide) ⟨by decide, by decide⟩).runs,
    ((((H i0 v0 0 (by decide)).2.2.2.2.2.2.2.2 (by decide))).1 true 0 (by decide) ⟨by decide, by decide⟩).runs,
    ((((H i0 v0 0 (by decide)).2.2.2.2.2.2.2.2 (by decide))).1 false 0 (by decide) ⟨by decide, by decide⟩).runs,
    (((((H i0 v0 0 (by decide)).2.2.2.2.2.2.2.2 (by decide))).2.1 0 15 (by decide)).1 (by decide) ⟨by decide, by decide⟩).runs,
    (((((H i0 v0 0 (by decide)).2.2.2.2.2.2.2.2 (by decide))).2.1 0 11 (by decide)).2 (by decide) ⟨by decide, by decide⟩).runs⟩

theorem witness_undefined_instructions_raise_3 : Sys2Proof.Claims.UndefinedInstructionsRaise →
    Runs (Instr.mts i0 1 2) badPri ∧
    Runs (Instr.shli i0 0 0 32) v0 ∧
    Runs (Instr.aadd i0 { mode := StepMode.register, word := opWord 3 1 2 0 32 7 }) v0 ∧
    Runs (Instr.aadd i0 { mode := StepMode.register, word := opWord 3 1 2 0 31 7 }) v0 := fun H =>
  ⟨(((H i0 badPri 0 (by decide)).2.2.2.2.2.2.2.2 (by decide)).2.2.1 1 2 (by decide) (by decide) (by decide) ⟨by decide, by decide⟩).runs,
    ((((H i0 v0 0 (by decide)).2.2.2.2.2.2.2.2 (by decide))).2.2.2.1 0 32 (by decide) (by decide) ⟨by decide, by decide⟩).runs,
    ((((H i0 v0 0 (by decide)).2.2.2.2.2.2.2.2 (by decide))).2.2.2.2.1 ⟨.register, opWord 3 1 2 0 32 7⟩ (by decide) (by decide) (by decide) ⟨by decide, by decide⟩).runs,
    ((((H i0 v0 0 (by decide)).2.2.2.2.2.2.2.2 (by decide))).2.2.2.2.2 ⟨.register, opWord 3 1 2 0 31 7⟩ (by decide) (by decide) rfl (by decide) (by decide) ⟨by decide, by decide⟩).runs⟩

theorem witness_undefined_under_exl_halts : Sys2Proof.Claims.UndefinedUnderExlHalts →
    exec (Instr.nop (NopSite.seq undef0)) exl0 = Host.Outcome.next (State.settle (State.haltSeq exl0 undef0.h 1)) ∧
    exec (Instr.nop (NopSite.seq undef1)) exl0 = Host.Outcome.next (State.settle (State.haltSeq exl0 undef1.h 1)) := fun H =>
  ⟨H undef0 exl0 true (by decide) rfl rfl (by decide),
    H undef1 exl0 false (by decide) rfl rfl (by decide)⟩

theorem witness_return_from_exception : Obligations.ReturnFromException →
    Runs (Instr.reti i0) inStudy ∧
    (exec (Instr.reti i0) State.reset = Host.Outcome.next (State.settle (State.haltSeq (State.modSeq State.reset i0.h fun q => { q with atomRep := false }) i0.h 2))) ∧
    Runs (Instr.reti i0) badPair := fun H =>
  ⟨(H.1 i0 inStudy (by decide) (by decide) (by decide) (by decide) (Or.inl (by decide))).runs,
    H.2.1 i0 State.reset (by decide) (by decide) (by decide),
    (H.2.2 i0 badPair 0 (by decide) (by decide) (by decide) (by decide) (by decide) ⟨by decide, by decide⟩).runs⟩

theorem witness_loads_read_their_range_1 : Sys2Proof.Claims.LoadsReadTheirRange →
    Runs (Instr.ld i0 0 0 (MemOp.postInc 15)) atStudy ∧
    Runs (Instr.ld i0 14 3 (MemOp.preDec 15)) v0 ∧
    Runs (Instr.ld i0 0 2 (MemOp.postInc 1)) atRam ∧
    Runs (Instr.ld i0 0 3 (MemOp.postInc 2)) atRam ∧
    Runs (Instr.ld i0 0 2 (MemOp.postInc 3)) atRam ∧
    Runs (Instr.ld i0 0 2 (MemOp.postInc 4)) atRam ∧
    Runs (Instr.ld i0 0 1 (MemOp.postInc 1)) atOut ∧
    Runs (Instr.ld i0 5 2 (MemOp.postInc 1)) atOut ∧
    Runs (Instr.ld i0 0 3 (MemOp.preDec 2)) atOut ∧
    Runs (Instr.fld i0 0 2 (MemOp.postInc 3)) atOut := fun H =>
  ⟨((H.1 0 0 (.postInc 15) (by decide) (by decide) i0 atStudy (by decide) (by decide)).1 (by decide) (by decide) (by decide)).runs,
    ((H.1 14 3 (.preDec 15) (by decide) (by decide) i0 v0 (by decide) (by decide)).1 (by decide) (by decide) (by decide)).runs,
    ((H.1 0 2 (.postInc 1) (by decide) (by decide) i0 atRam (by decide) (by decide)).2.1 (by decide) (by decide) (by decide)).runs,
    ((H.1 0 3 (.postInc 2) (by decide) (by decide) i0 atRam (by decide) (by decide)).2.1 (by decide) (by decide) (by decide)).runs,
    ((H.1 0 2 (.postInc 3) (by decide) (by decide) i0 atRam (by decide) (by decide)).2.2.1 (by decide) (by decide)).runs,
    ((H.1 0 2 (.postInc 4) (by decide) (by decide) i0 atRam (by decide) (by decide)).2.2.2.1 (rg .asMcStat) (by decide) (by decide) (by decide) (by decide) (by decide +kernel)).runs,
    ((H.1 0 1 (.postInc 1) (by decide) (by decide) i0 atOut (by decide) (by decide)).2.2.2.2.1 (by decide) (by decide) (by decide) (by decide)).runs,
    ((H.1 5 2 (.postInc 1) (by decide) (by decide) i0 atOut (by decide) (by decide)).2.2.2.2.1 (by decide) (by decide) (by decide) (by decide)).runs,
    ((H.1 0 3 (.preDec 2) (by decide) (by decide) i0 atOut (by decide) (by decide)).2.2.2.2.2.1 _ (by decide) (by decide) (by decide) rfl (by decide +kernel)).runs,
    ((H.2 0 (.postInc 3) (by decide) i0 atOut (by decide) (by decide)).2.2.2.2.2.2 _ _ _ (by decide) (by decide) (by decide) rfl rfl (by decide +kernel)).runs⟩

theorem witness_loads_read_their_range_2 : Sys2Proof.Claims.LoadsReadTheirRange → Runs (Instr.fld i0 15 2 (MemOp.indexed 0 15 0 0)) v0 := fun H =>
  ((H.2 15 (.indexed 0 15 0 0) (by decide) i0 v0 (by decide) (by decide)).1 (by decide) (by decide) (by decide)).runs

theorem witness_stores_write_or_buffer : Sys2Proof.Claims.StoresWriteOrBuffer →
    Runs (Instr.st i0 0 3 (MemOp.postInc 1)) v0 ∧
    Runs (Instr.st i0 0 0 (MemOp.postInc 1)) atRam ∧
    Runs (Instr.st i0 0 3 (MemOp.postInc 2)) atRam ∧
    Runs (Instr.st i0 0 2 (MemOp.postInc 4)) atOut ∧
    Runs (Instr.st i0 0 2 (MemOp.postInc 1)) atOut ∧
    Runs (Instr.st i0 0 3 (MemOp.postInc 2)) atOut ∧
    Runs (Instr.st i0 0 0 (MemOp.postInc 3)) atOut ∧
    Runs (Instr.fst i0 15 2 (MemOp.indexed 0 15 0 0)) v0 ∧
    Runs (Instr.st i0 0 2 (MemOp.postInc 1)) wbufFull ∧
    Runs (Instr.fst i0 0 2 (MemOp.postInc 2)) wbufStuck := fun H =>
  ⟨((H.1 0 3 (.postInc 1) (by decide) (by decide) i0 v0 (by decide) (by decide)).1 (by decide) (by decide)).runs,
    ((H.1 0 0 (.postInc 1) (by decide) (by decide) i0 atRam (by decide) (by decide)).2.1 (Or.inl (by decide)) (by decide)).runs,
    ((H.1 0 3 (.postInc 2) (by decide) (by decide) i0 atRam (by decide) (by decide)).2.1 (Or.inr (Or.inl (by decide))) (by decide)).runs,
    ((H.1 0 2 (.postInc 4) (by decide) (by decide) i0 atOut (by decide) (by decide)).2.1 (Or.inr (Or.inr (Or.inl (by decide)))) (by decide)).runs,
    ((H.1 0 2 (.postInc 1) (by decide) (by decide) i0 atOut (by decide) (by decide)).2.1 (Or.inr (Or.inr (Or.inr (Or.inl (by decide))))) (by decide)).runs,
    ((H.1 0 3 (.postInc 2) (by decide) (by decide) i0 atOut (by decide) (by decide)).2.1 (Or.inr (Or.inr (Or.inr (Or.inl (by decide))))) (by decide)).runs,
    ((H.1 0 0 (.postInc 3) (by decide) (by decide) i0 atOut (by decide) (by decide)).2.1 (Or.inr (Or.inr (Or.inr (Or.inr (by decide))))) (by decide)).runs,
    ((H.2 15 (.indexed 0 15 0 0) (by decide) i0 v0 (by decide) (by decide)).1 (by decide) (by decide)).runs,
    (((H.1 0 2 (.postInc 1) (by decide) (by decide) i0 wbufFull (by decide) (by decide)).2.2 _ _ (Or.inr (Or.inr (Or.inr (Or.inl (by decide))))) rfl).1 (by decide) (by decide) (by decide) (by decide) (by decide)).runs,
    (((H.2 0 (.postInc 2) (by decide) i0 wbufStuck (by decide) (by decide +kernel)).2.2 _ _ (Or.inr (Or.inr (Or.inr (Or.inl (by decide))))) rfl).2 (by decide) (by decide) (by decide)).runs⟩

theorem witness_buffered_write_reaches_memory : Sys2Proof.Claims.BufferedWriteReachesMemory →
    Runs (Instr.bufferedWritePerform 0) wbuf1 ∧
    Runs (Instr.bufferedWritePerform 0) wbuf2 ∧
    Runs (Instr.bufferedWritePerform 0) (wbufN 1085276160) ∧
    Runs (Instr.bufferedWritePerform 0) wbufHeld ∧
    Runs (Instr.bufferedWritePerform 0) (wbufN 1610612740) ∧
    Runs (Instr.bufferedWritePerform 0) (wbufN 3221225480) ∧
    Runs (Instr.bufferedWritePerform 0) (wbufN 2147483652) ∧
    Runs (Instr.bufferedWritePerform 0) wbufSent := fun H =>
  ⟨(((H wbuf1 0 { addr := 0x1003FFFF, size := 1, data := 5 } [] (by decide) (by decide) (by decide)).1 (by decide) (by decide) (Or.inl (by decide)) (by decide)).1).runs,
    (((H wbuf2 0 { addr := 0x20000000, size := 8, data := 0x0807060504030201 } [{ addr := 0x1003FFFF, size := 1, data := 5 }] (by decide) (by decide) (by decide)).1 (by decide) (by decide) (Or.inr (by decide +kernel)) (by decide)).1).runs,
    (((H (wbufN 0x40B00000) 0 _ _ (by decide) (by decide) rfl).2.1 (by decide) (by decide)).1 _ (by decide) rfl (by decide +kernel)).runs,
    (((H wbufHeld 0 _ _ (by decide +kernel) (by decide +kernel) rfl).2.1 (by decide) (by decide)).2 (by decide +kernel)).runs,
    ((H (wbufN 0x60000004) 0 _ _ (by decide) (by decide) rfl).2.2.1 (by decide) (by decide)).runs,
    ((H (wbufN 0xC0000008) 0 _ _ (by decide) (by decide) rfl).2.2.2.1 (by decide) (by decide) _ rfl (by decide +kernel)).runs,
    ((H (wbufN 0x80000004) 0 _ _ (by decide) (by decide) rfl).2.2.2.2.1 (by decide) (by decide) _ _ _ _ rfl rfl rfl (by decide +kernel)).runs,
    ((H wbufSent 0 _ _ (by decide) (by decide +kernel) rfl).2.2.2.2.2 (by decide) (by decide)).runs⟩

theorem witness_bad_accesses_raise_bus_fault_1 : Obligations.BadAccessesRaiseBusFault →
    Runs (Instr.ld i0 0 0 (MemOp.postInc 1)) badAddr ∧
    Runs (Instr.ld i0 0 3 (MemOp.postInc 2)) badAddr ∧
    Runs (Instr.ld i0 0 2 (MemOp.postInc 2)) badAddr ∧
    Runs (Instr.st i0 0 2 (MemOp.postInc 3)) badAddr ∧
    Runs (Instr.ld i0 0 2 (MemOp.postInc 1)) badOut ∧
    Runs (Instr.st i0 0 3 (MemOp.postInc 1)) badOut ∧
    Runs (Instr.st i0 0 2 (MemOp.postInc 2)) badOut ∧
    Runs (Instr.ld i0 0 0 (MemOp.postInc 3)) badOut ∧
    Runs (Instr.ld i0 0 2 (MemOp.postInc 4)) badOut ∧
    Runs (Instr.fld i0 15 2 (MemOp.postInc 2)) badAddr := fun H =>
  ⟨(((H 0 (.postInc 1) (by decide)).1 0 (by decide)).1 i0 badAddr 0 2 (by decide) (by decide) (by decide) (by decide) ⟨by decide, by decide⟩).runs,
    (((H 0 (.postInc 2) (by decide)).1 3 (by decide)).1 i0 badAddr 0 3 (by decide) (by decide) (by decide) (by decide) ⟨by decide, by decide⟩).runs,
    (((H 0 (.postInc 2) (by decide)).1 2 (by decide)).1 i0 badAddr 0 3 (by decide) (by decide) (by decide) (by decide) ⟨by decide, by decide⟩).runs,
    (((H 0 (.postInc 3) (by decide)).1 2 (by decide)).2 i0 badAddr 0 4 (by decide) (by decide) (by decide) (by decide) ⟨by decide, by decide⟩).runs,
    (((H 0 (.postInc 1) (by decide)).1 2 (by decide)).1 i0 badOut 0 6 (by decide) (by decide) (by decide) (by decide) ⟨by decide, by decide⟩).runs,
    (((H 0 (.postInc 1) (by decide)).1 3 (by decide)).2 i0 badOut 0 3 (by decide) (by decide) (by decide) (by decide) ⟨by decide, by decide⟩).runs,
    (((H 0 (.postInc 2) (by decide)).1 2 (by decide)).2 i0 badOut 0 2 (by decide) (by decide) (by decide) (by decide) ⟨by decide, by decide⟩).runs,
    (((H 0 (.postInc 3) (by decide)).1 0 (by decide)).1 i0 badOut 0 2 (by decide) (by decide) (by decide) (by decide) ⟨by decide, by decide⟩).runs,
    (((H 0 (.postInc 4) (by decide)).1 2 (by decide)).1 i0 badOut 0 2 (by decide) (by decide) (by decide) (by decide) ⟨by decide, by decide⟩).runs,
    ((H 15 (.postInc 2) (by decide)).2.1 i0 badAddr 0 3 (by decide) (by decide) (by decide) (by decide) ⟨by decide, by decide⟩).runs⟩

theorem witness_bad_accesses_raise_bus_fault_2 : Obligations.BadAccessesRaiseBusFault → Runs (Instr.fst i0 1 2 (MemOp.postInc 3)) badAddr := fun H =>
  ((H 1 (.postInc 3) (by decide)).2.2 i0 badAddr 0 4 (by decide) (by decide) (by decide) (by decide) ⟨by decide, by decide⟩).runs

theorem witness_scalar_floating_point_completes : Obligations.ScalarFloatingPointCompletes →
    Runs (Instr.fadd i0 0 0 15) State.reset ∧
    Runs (Instr.frcp i0 15 0) fpNums ∧
    Runs (Instr.fmvgf i0 15 0) State.reset := fun H =>
  ⟨((H.1 0 0 15).1 i0 State.reset (by decide) (by decide) (by decide)).runs,
    ((H.2 15 0).1 i0 fpNums (by decide) (by decide) (by decide)).runs,
    ((H.2 15 0).2.2.2.2.2.2.1 i0 State.reset (by decide) (by decide)).runs⟩

theorem witness_floating_point_traps : Sys2Proof.Claims.FloatingPointTraps →
    Runs (Instr.fadd i0 0 0 1) fpSubn ∧
    Runs (Instr.fadd i0 0 0 1) fpSnan := fun H =>
  ⟨((H i0 0 0 1 fpSubn 0 (by decide) (by decide) (by decide)).1 (by decide) ⟨by decide, by decide⟩).runs,
    ((H i0 0 0 1 fpSnan 0 (by decide) (by decide) (by decide)).2 (by decide) (by decide) ⟨by decide, by decide⟩).runs⟩

theorem witness_nan_operands_give_default_nan : Sys2Proof.Claims.NanOperandsGiveDefaultNan →
    ((fpAdd 0 2143289344 0).1 = 2143289344 ∧ (fpSub 0 2143289344 0).1 = 2143289344 ∧ (fpMul 0 2143289344 0).1 = 2143289344) ∧
    (Nat.testBit (fpAdd 3 2139095041 0).2 0 = true ∧ Nat.testBit (fpSub 3 2139095041 0).2 0 = true ∧ Nat.testBit (fpMul 3 2139095041 0).2 0 = true) ∧
    (fpFma 0 0 0 4294967295).1 = 2143289344 := fun H =>
  ⟨(H 0 0x7FC00000 0 0).1 (Or.inl (by decide)),
    (H 3 0x7F800001 0 0).2.1 (Or.inl (by decide)),
    (H 0 0 0 0xFFFFFFFF).2.2 (Or.inr (Or.inr (by decide)))⟩

theorem witness_compare_orders_numbers : Sys2Proof.Claims.CompareOrdersNumbers →
    (((fpCmp 0 0 2147483648).1 = 1 ↔ wValue 0 = wValue 2147483648) ∧ ((fpCmp 1 0 2147483648).1 = 1 ↔ wValue 0 ≠ wValue 2147483648) ∧ ((fpCmp 2 0 2147483648).1 = 1 ↔ wValue 0 < wValue 2147483648) ∧ ((fpCmp 3 0 2147483648).1 = 1 ↔ wValue 0 ≤ wValue 2147483648) ∧ ((fpCmp 4 0 2147483648).1 = 1 ↔ wValue 2147483648 < wValue 0) ∧ ((fpCmp 5 0 2147483648).1 = 1 ↔ wValue 2147483648 ≤ wValue 0) ∧ (fpCmp 6 0 2147483648).1 = 0 ∧ (fpCmp 7 0 2147483648).1 = 1) ∧
    (((fpCmp 0 2139095039 1).1 = 1 ↔ wValue 2139095039 = wValue 1) ∧ ((fpCmp 1 2139095039 1).1 = 1 ↔ wValue 2139095039 ≠ wValue 1) ∧ ((fpCmp 2 2139095039 1).1 = 1 ↔ wValue 2139095039 < wValue 1) ∧ ((fpCmp 3 2139095039 1).1 = 1 ↔ wValue 2139095039 ≤ wValue 1) ∧ ((fpCmp 4 2139095039 1).1 = 1 ↔ wValue 1 < wValue 2139095039) ∧ ((fpCmp 5 2139095039 1).1 = 1 ↔ wValue 1 ≤ wValue 2139095039) ∧ (fpCmp 6 2139095039 1).1 = 0 ∧ (fpCmp 7 2139095039 1).1 = 1) := fun H =>
  ⟨H 0 0x80000000 (by decide) (by decide),
    H 0x7F7FFFFF 1 (by decide) (by decide)⟩

theorem witness_event_latch_instructions : Sys2Proof.Claims.EventLatchInstructions →
    Runs (Instr.waitev i0 0 1 2) State.reset ∧
    Runs (Instr.waitevHit 0) evHit ∧
    Runs (Instr.waitevTimeout 0) evMiss ∧
    Runs (Instr.setev i0 15) atStudy := fun H =>
  ⟨(H.1 0 1 2 i0 State.reset (by decide) (by decide)).runs,
    (H.2.1 0 evHit ⟨0, 1, 0, 0, false⟩ (by decide) (by decide) (by decide) (by decide) (by decide)).runs,
    (H.2.2.1 0 evMiss ⟨3, 1, 0xFFFFFFFE, 8, true⟩ (by decide) (by decide) (by decide) (by decide) (by decide) (by decide)).runs,
    (H.2.2.2 15 i0 atStudy (by decide) (by decide)).runs⟩

theorem witness_launch_and_event_instructions : Sys2Proof.Claims.LaunchAndEventInstructions →
    Runs (Instr.emitev i0 0 1) State.reset ∧
    Runs (Instr.emitev i0 0 1) joined5 ∧
    Runs (Instr.emitev i0 0 1) evqFull ∧
    Runs (Instr.larm i0 0 1 2) larm1 ∧
    Runs (Instr.larm i0 3 1 2) larm1 ∧
    Runs (Instr.larm i0 4 1 2) larm1 ∧
    Runs (Instr.lstop i0 3) larm1 ∧
    Runs (Instr.lstop i0 5) larm1 ∧
    Runs (Instr.tick i0 0 0) State.reset := fun H =>
  ⟨((H.1 0 1 i0 State.reset (by decide) (by decide)).1 (by decide)).runs,
    ((H.1 0 1 i0 joined5 (by decide) (by decide)).2.1 ⟨5, (by decide)⟩ (by decide)).runs,
    ((H.1 0 1 i0 evqFull (by decide) (by decide)).2.2 ⟨5, (by decide)⟩ (by decide)).runs,
    ((H.2.1 0 1 2 i0 larm1 (by decide) (by decide)).1 (Or.inl (by decide)) (by decide)).runs,
    ((H.2.1 3 1 2 i0 larm1 (by decide) (by decide)).1 (Or.inr (by decide)) (by decide)).runs,
    ((H.2.1 4 1 2 i0 larm1 (by decide) (by decide)).2 (by decide) (by decide)).runs,
    (H.2.2.1 3 i0 larm1 (by decide) (by decide)).runs,
    (H.2.2.1 5 i0 larm1 (by decide) (by decide)).runs,
    (H.2.2.2 0 0 i0 State.reset (by decide) (by decide)).runs⟩

theorem witness_barriers_complete : Sys2Proof.Claims.BarriersComplete →
    Runs (Instr.mbr i0) State.reset ∧
    Runs (Instr.mbw i0) State.reset ∧
    Runs (Instr.mbf i0) State.reset ∧
    Runs (Instr.mbw i0) unacked1 ∧
    Runs (Instr.mbf i0) arrW ∧
    Runs (Instr.mba i0) State.reset := fun H =>
  ⟨(H.1 i0 State.reset (by decide) (by decide)).runs,
    (((H.2 i0 State.reset (by decide) (by decide)).1 (by decide) (by decide) (by decide)).1).runs,
    (((H.2 i0 State.reset (by decide) (by decide)).1 (by decide) (by decide) (by decide)).2).runs,
    (((H.2 i0 unacked1 (by decide) (by decide)).2.1 (by decide) (Or.inl (by decide))).1).runs,
    (((H.2 i0 arrW (by decide) (by decide)).2.1 (by decide) (Or.inr (by decide))).2).runs,
    ((H.2 i0 State.reset (by decide) (by decide)).2.2 (by decide) (by decide)).runs⟩

theorem witness_wing_is_handed_over : Sys2Proof.Claims.WingIsHandedOver →
    Runs (Instr.wgive i0 0 1) give1 ∧
    Runs (Instr.wgive i0 1 0) give1Halt ∧
    Runs (Instr.wgive i0 1 2) give1 ∧
    Runs (Instr.wgive i0 0 2) give1 ∧
    Runs (Instr.wgive i0 1 1) give1 := fun H =>
  ⟨((H 0 1 i0 give1 (by decide) (by decide) (by decide) (by decide) (by decide)).1 (by decide) (by decide)).runs,
    ((H 1 0 i0 give1Halt (by decide) (by decide) (by decide) (by decide) (by decide)).1 (by decide) (by decide)).runs,
    ((H 1 2 i0 give1 (by decide) (by decide) (by decide) (by decide) (by decide)).2.1 (by decide) (by decide)).runs,
    ((H 0 2 i0 give1 (by decide) (by decide) (by decide) (by decide) (by decide)).2.2 (by decide)).runs,
    ((H 1 1 i0 give1 (by decide) (by decide) (by decide) (by decide) (by decide)).2.2 (by decide)).runs⟩

theorem witness_array_instructions_run_1 : Obligations.ArrayInstructionsRun →
    Runs (Instr.aadd i0 { mode := StepMode.postInc, word := opWord 3 1 2 0 31 7 }) micro ∧
    Runs (Instr.aaddi i0 { mode := StepMode.register, word := opWord 3 1 0 4 0 0 }) micro ∧
    Runs (Instr.asub i0 { mode := StepMode.postInc, word := opWord 3 1 2 0 7 7 }) micro ∧
    Runs (Instr.asubi i0 { mode := StepMode.postInc, word := opWord 3 1 0 0 31 0 }) micro ∧
    Runs (Instr.amul i0 { mode := StepMode.postInc, word := opWord 3 1 2 0 3 0 }) micro ∧
    Runs (Instr.acmp i0 { mode := StepMode.postInc, word := opWord 0 1 2 0 7 4 }) micro ∧
    Runs (Instr.acmpi i0 { mode := StepMode.postInc, word := opWord 0 1 0 0 7 4 }) micro ∧
    Runs (Instr.asel i0 { mode := StepMode.postInc, word := opWord 3 1 2 0 3 0 }) micro ∧
    Runs (Instr.aset i0 { mode := StepMode.postInc, word := opWord 3 0 0 4 3 0 }) micro ∧
    Runs (Instr.alog i0 6 { mode := StepMode.postInc, word := opWord 3 1 2 0 3 0 }) micro := fun H =>
  ⟨(H.1 i0 ⟨.postInc, opWord 3 1 2 0 31 7⟩ micro (by decide)).runs,
    (H.2.1 i0 ⟨.register, opWord 3 1 0 4 0 0⟩ micro (by decide)).runs,
    (H.2.2.1 i0 ⟨.postInc, opWord 3 1 2 0 7 7⟩ micro (by decide)).runs,
    (H.2.2.2.1 i0 ⟨.postInc, opWord 3 1 0 0 31 0⟩ micro (by decide)).runs,
    (H.2.2.2.2.1 i0 ⟨.postInc, opWord 3 1 2 0 3 0⟩ micro (by decide)).runs,
    (H.2.2.2.2.2.1 i0 ⟨.postInc, opWord 0 1 2 0 7 4⟩ micro (by decide)).runs,
    (H.2.2.2.2.2.2.1 i0 ⟨.postInc, opWord 0 1 0 0 7 4⟩ micro (by decide)).runs,
    (H.2.2.2.2.2.2.2.1 i0 ⟨.postInc, opWord 3 1 2 0 3 0⟩ micro (by decide)).runs,
    (H.2.2.2.2.2.2.2.2.1 i0 ⟨.postInc, opWord 3 0 0 4 3 0⟩ micro (by decide)).runs,
    (H.2.2.2.2.2.2.2.2.2.1 6 i0 ⟨.postInc, opWord 3 1 2 0 3 0⟩ micro (by decide)).runs⟩

theorem witness_array_instructions_run_2 : Obligations.ArrayInstructionsRun →
    Runs (Instr.abit i0 6 { mode := StepMode.postInc, word := opWord 9 1 2 0 0 0 }) micro ∧
    Runs (Instr.ashf i0 ShiftDir.e { mode := StepMode.postInc, word := opWord 3 1 0 0 3 32 }) micro ∧
    Runs (Instr.acnt i0 { mode := StepMode.postInc, word := opWord 0 1 0 4 0 0 }) micro ∧
    Runs (Instr.aloc i0 { mode := StepMode.postInc, word := opWord 0 1 0 4 0 1 }) micro := fun H =>
  ⟨(H.2.2.2.2.2.2.2.2.2.2.1 6 i0 ⟨.postInc, opWord 9 1 2 0 0 0⟩ micro (by decide)).runs,
    (H.2.2.2.2.2.2.2.2.2.2.2.1 .e i0 ⟨.postInc, opWord 3 1 0 0 3 32⟩ micro (by decide)).runs,
    (H.2.2.2.2.2.2.2.2.2.2.2.2.1 i0 ⟨.postInc, opWord 0 1 0 4 0 0⟩ micro (by decide)).runs,
    (H.2.2.2.2.2.2.2.2.2.2.2.2.2 i0 ⟨.postInc, opWord 0 1 0 4 0 1⟩ micro (by decide)).runs⟩

theorem witness_array_results_in_planes_1 : Sys2Proof.Claims.ArrayResultsInPlanes →
    Runs (.aadd i0 ⟨.postInc, opWord 3 1 2 0 7 3⟩) micro ∧
    Runs (.aaddi i0 ⟨.postInc, opWord 3 1 0 4 7 0⟩) micro ∧
    Runs (.asub i0 ⟨.postInc, opWord 3 1 2 0 7 3⟩) micro ∧
    Runs (.asubi i0 ⟨.postInc, opWord 3 1 0 4 7 0⟩) micro ∧
    Runs (.amul i0 ⟨.postInc, opWord 3 1 2 0 3 0⟩) micro ∧
    Runs (.asel i0 ⟨.postInc, opWord 3 1 2 0 3 0⟩) micro ∧
    Runs (.aset i0 ⟨.postInc, opWord 3 0 0 4 3 0⟩) micro ∧
    Runs (.alog i0 6 ⟨.postInc, opWord 3 1 2 0 3 0⟩) micro ∧
    Runs (.ashf i0 .e ⟨.postInc, opWord 3 1 0 0 3 32⟩) micro ∧
    Runs (.acmp i0 ⟨.postInc, opWord 0 1 2 0 7 4⟩) micro := fun H =>
  ⟨Exists.elim (H.1 i0 ⟨.postInc, opWord 3 1 2 0 7 3⟩ micro (by decide) (by decide +kernel) (by decide +kernel) (by decide +kernel)) fun t h => ⟨t, h.1⟩,
    Exists.elim (H.2.1 i0 ⟨.postInc, opWord 3 1 0 4 7 0⟩ micro (by decide) (by decide +kernel) (by decide +kernel) (by decide +kernel)) fun t h => ⟨t, h.1⟩,
    Exists.elim (H.2.2.1 i0 ⟨.postInc, opWord 3 1 2 0 7 3⟩ micro (by decide) (by decide +kernel) (by decide +kernel) (by decide +kernel)) fun t h => ⟨t, h.1⟩,
    Exists.elim (H.2.2.2.1 i0 ⟨.postInc, opWord 3 1 0 4 7 0⟩ micro (by decide) (by decide +kernel) (by decide +kernel) (by decide +kernel)) fun t h => ⟨t, h.1⟩,
    Exists.elim (H.2.2.2.2.1 i0 ⟨.postInc, opWord 3 1 2 0 3 0⟩ micro (by decide) (by decide +kernel) (by decide +kernel) (by decide +kernel)) fun t h => ⟨t, h.1⟩,
    Exists.elim (H.2.2.2.2.2.1 i0 ⟨.postInc, opWord 3 1 2 0 3 0⟩ micro (by decide) (by decide +kernel) (by decide +kernel) (by decide +kernel)) fun t h => ⟨t, h.1⟩,
    Exists.elim (H.2.2.2.2.2.2.1 i0 ⟨.postInc, opWord 3 0 0 4 3 0⟩ micro (by decide) (by decide +kernel) (by decide +kernel) (by decide +kernel)) fun t h => ⟨t, h.1⟩,
    Exists.elim (H.2.2.2.2.2.2.2.1 6 i0 ⟨.postInc, opWord 3 1 2 0 3 0⟩ micro (by decide) (by decide +kernel) (by decide +kernel) (by decide +kernel)) fun t h => ⟨t, h.1⟩,
    Exists.elim (H.2.2.2.2.2.2.2.2.1 .e i0 ⟨.postInc, opWord 3 1 0 0 3 32⟩ micro (by decide) (by decide +kernel) (by decide +kernel) (by decide +kernel)) fun t h => ⟨t, h.1⟩,
    Exists.elim (H.2.2.2.2.2.2.2.2.2.1 i0 ⟨.postInc, opWord 0 1 2 0 7 4⟩ micro (by decide) (by decide +kernel)) fun t h => ⟨t, h.1⟩⟩

theorem witness_array_results_in_planes_2 : Sys2Proof.Claims.ArrayResultsInPlanes → Runs (.acmpi i0 ⟨.postInc, opWord 0 1 0 0 7 4⟩) micro := fun H =>
  Exists.elim (H.2.2.2.2.2.2.2.2.2.2 i0 ⟨.postInc, opWord 0 1 0 0 7 4⟩ micro (by decide) (by decide +kernel)) fun t h => ⟨t, h.1⟩

theorem witness_neighbour_reads : Sys2Proof.Claims.NeighbourReads →
    BitVec.getLsbD (State.neighbour State.reset NDir.e 9 nbB) 63 = rowRead State.reset nbB 9 63 1 ∧
    BitVec.getLsbD (State.neighbour State.reset NDir.w 1 nbB) 8191 = rowRead State.reset nbB 1 8191 (-1) := fun H =>
  ⟨(H State.reset nbB 9 63 (by decide) (by decide) (by decide +kernel) nbBz).1,
    (H State.reset nbB 1 8191 (by decide) (by decide) (by decide +kernel) nbBz).2.1⟩

/-- LFRCP in the mode TRAP of a subnormal number in PE 0 of wing 0. -/
def trapL : State :=
  ((micro.setPe 1 (PeRegs.clear 1)).writePlane 1 0x100 1 1).modSeq 0 fun q => { q with fpctl := 4, vbr := 0x10000000 }
def trapJob : LaneJob := ⟨.lfrcp, false, 1, ⟨0x300, 3, 1⟩, 4058, 0, true, [(bufKey 0 0 1, 1#8192)]⟩
def trapLoaded : State := laneDone trapL i0 .lfrcp false ⟨.postInc, 0x0013⟩ 64
theorem trap_stores : ((trapLoaded.storeJob 0).seq 0).caps = [⟨1, [(0, wingResult
    (jobPlane 1 (trapJob.results 1) (fun r => r.2.testBit 5) &&& BitVec.allOnes 8192))]⟩] := by
  have h : (trapLoaded.seq 0).jobs = [trapJob] := by decide +kernel
  simp only [State.storeJob, h]
  have k := keeps_forUnits trapJob (trapLoaded.modSeq 0 fun q => { q with jobs := [] })
  generalize (trapLoaded.modSeq 0 fun q => { q with jobs := [] }).forUnits trapJob.mask (fun u s => s.storeUnit trapJob u) = S at k
  have hs : (S.seq 0).caps = [] := by
    rw [State.seq, k.2.1]; decide +kernel
  have hw : (S.wingOn 0 && !S.wingClearing 0) = true := by
    rw [State.wingOn, State.wingClearing, State.reg, k.1]; decide +kernel
  have hx : (S.pe 1).x = BitVec.allOnes 8192 := by
    rw [State.pe, k.2.2]; decide +kernel
  simp only [State.startCapture]
  have hb : (trapJob.sub && trapJob.op.isFp) = true := by decide
  have hf : List.filter (wingIn trapJob.mask) (List.range 8) = [0] := by decide
  simp only [hb, if_true, hf, List.map, hw, hx, hs, State.seq_modSeq_same, List.nil_append, Nat.zero_add]
  rfl
theorem trap_results : ∃ l, (trapJob.results 1).map (fun r => r.2.testBit 5) = true :: l := by
  unfold LaneJob.results
  rw [show List.range 8192 = 0 :: (List.range 8191).map Nat.succ from List.range_succ_eq_map]
  exact ⟨_, congrArg (· :: _) (by decide +kernel)⟩
theorem trap_or : ((trapLoaded.storeJob 0).completeCapture 0).flag (rg .chimCnt 0) F.chimCnt_OR = true := by
  refine capture_or _ _ _ trap_stores (popCount_pos 13 _ ?_) (popCount_le 13 _)
  rw [BitVec.and_allOnes]
  obtain ⟨l, h⟩ := trap_results
  rw [jobPlane, if_neg (by decide), h]
  exact planeOfBits_first _ _ rfl

theorem witness_lane_instructions_run : Sys2Proof.Claims.LaneInstructionsRun →
    Runs (Instr.lfrcp i0 { mode := StepMode.postInc, fld := 19 }) trapL ∧
    Runs (Instr.ladd i0 true { mode := StepMode.postInc, fld := 531 }) micro ∧
    Runs (Instr.lmulf i0 true false { mode := StepMode.postInc, fld := 531 }) micro ∧
    Runs (Instr.lfadd i0 { mode := StepMode.register, fld := 531 }) micro ∧
    Runs (Instr.lfma i0 { mode := StepMode.postInc, fld := 16915 }) micro ∧
    Runs (Instr.lfrcp i0 { mode := StepMode.postInc, fld := 19 }) micro ∧
    Runs (Instr.lfsub i0 { mode := StepMode.postInc, fld := 531 }) microTrap0 ∧
    Runs (Instr.lfcmp i0 7 { mode := StepMode.postInc, fld := 531 }) micro := fun H =>
  ⟨((H.2.2.2.2.2.2.2.2.2.2.2.2.2.2.2.2.2.1 i0 ⟨.postInc, 0x0013⟩ trapL (by decide +kernel) (by decide)).2 0 trap_or (by decide +kernel)).runs,
    ((H.1 true).1 i0 ⟨.postInc, 0x0213⟩ micro (by decide +kernel) (by decide)).runs,
    (((H.1 false).2.2.2 true).1 i0 ⟨.postInc, 0x0213⟩ micro (by decide +kernel) (by decide)).runs,
    (H.2.1 i0 ⟨.register, 0x0213⟩ micro (by decide +kernel) (by decide)).runs,
    (H.2.2.2.2.1 i0 ⟨.postInc, 0x4213⟩ micro (by decide +kernel) (by decide)).runs,
    (H.2.2.2.2.2.2.2.1 i0 ⟨.postInc, 0x0013⟩ micro (by decide +kernel) (by decide)).runs,
    ((H.2.2.2.2.2.2.2.2.2.2.2.2.1 i0 ⟨.postInc, 0x0213⟩ microTrap0 (by decide +kernel) (by decide)).1 (by decide +kernel)).runs,
    (H.2.2.2.2.2.2.2.2.2.2.1 7 i0 ⟨.postInc, 0x0213⟩ micro (by decide +kernel) (by decide)).runs⟩

theorem witness_captures_and_lane_stores : Sys2Proof.Claims.CapturesAndLaneStores →
    Runs (Instr.chimneyResult 0) capd ∧
    (State.getF (State.putCapture (State.modSeq capd 0 fun q => { q with caps := [] }) 0 ⟨1, [(0, 65536, some 8191)]⟩) (rg .chimCnt 0) F.chimCnt_COUNT = 65536 ∧ State.flag (State.putCapture (State.modSeq capd 0 fun q => { q with caps := [] }) 0 ⟨1, [(0, 65536, some 8191)]⟩) (rg .chimCnt 0) F.chimCnt_OR = true ∧ State.flag (State.putCapture (State.modSeq capd 0 fun q => { q with caps := [] }) 0 ⟨1, [(0, 65536, some 8191)]⟩) (rg .chimCnt 0) F.chimCnt_VALID = true) ∧
    (State.getF (State.putCapture (State.modSeq capd 0 fun q => { q with caps := [] }) 0 ⟨1, [(0, 65536, some 8191)]⟩) (rg .chimFirst 0) F.chimFirst_INDEX = 8191 ∧ State.flag (State.putCapture (State.modSeq capd 0 fun q => { q with caps := [] }) 0 ⟨1, [(0, 65536, some 8191)]⟩) (rg .chimFirst 0) F.chimFirst_NONE = false) ∧
    (State.flag (State.putCapture (State.modSeq capNone 0 fun q => { q with caps := [] }) 0 ⟨0, []⟩) (rg .chimFirst 0) F.chimFirst_NONE = true) ∧
    Runs (Instr.laneStoreStage 0) jobd := fun H =>
  ⟨((H.1 0 capd ⟨1, [(0, 65536, some 8191)]⟩ [] (by decide) (by decide) (by decide)).1).runs,
    (H.1 0 capd ⟨1, [(0, 65536, some 8191)]⟩ [] (by decide) (by decide) (by decide)).2.1 (by decide),
    (H.1 0 capd ⟨1, [(0, 65536, some 8191)]⟩ [] (by decide) (by decide) (by decide)).2.2.1 8191 (by decide) (by decide),
    (H.1 0 capNone ⟨0, []⟩ [] (by decide) (by decide) (by decide)).2.2.2 (by decide),
    (H.2 0 jobd ⟨.ladd, true, 1, ⟨256, 1, 1⟩, 0, 0, false, []⟩ [] (by decide) (by decide) (by decide) (by decide)).runs⟩

def jbHalf : LaneJob := ⟨.ladd, true, 1, ⟨256, 1, 1⟩, 1024, 0, false, []⟩
def jbFp : LaneJob := ⟨.lfadd, false, 1, ⟨256, 1, 1⟩, 1024, 0, false, []⟩

theorem witness_lane_words_and_planes : Sys2Proof.Claims.LaneWordsAndPlanes →
    ((laneDone micro i0 .ladd false ⟨.postInc, 0x0213⟩ (laneL false)).seq 0).jobs ≠ [] ∧
    (laneCompute LaneOp.ladd true 0 32767 32768 0 = ((32767 + 32768) % 2 ^ if true = true then 16 else 32, overflows (if true = true then 16 else 32) (signedOf (if true = true then 16 else 32) 32767 + signedOf (if true = true then 16 else 32) 32768))) ∧
    laneCompute (LaneOp.lmulf false) false 0 4294967295 2147483648 0 = (4294967295 * 2147483648, 0) ∧
    (BitVec.getLsbD (State.plane (State.storeUnit jobd jbHalf 8) 8 (Slot.plane jbHalf.d 15)) 8191 = if BitVec.getLsbD (State.pe jobd 8).x 8191 = true then decide (1 ≤ 8) && decide (8 ≤ 8) && Nat.testBit (laneResult jbHalf 8 8191).1 15 else BitVec.getLsbD (State.plane jobd 8 (Slot.plane jbHalf.d 15)) 8191) ∧
    (BitVec.getLsbD (State.plane (State.storeUnit jobd jbFp 0) 0 (jbFp.lfp + 5)) 63 = if BitVec.getLsbD (State.pe jobd 0).x 63 = true then decide (1 ≤ 0) && decide (0 ≤ 8) && Nat.testBit (laneResult jbFp 0 63).2 5 else BitVec.getLsbD (State.plane jobd 0 (jbFp.lfp + 5)) 63) ∧
    State.plane (State.storeUnit jobd jbFp 0) 0 4095 = State.plane jobd 0 4095 := fun H =>
  ⟨Exists.elim (H.1 i0 .ladd false ⟨.postInc, 0x0213⟩ micro (by decide +kernel)) fun _ h => by rw [show i0.h = 0 from rfl] at h; rw [h.1]; exact List.cons_ne_nil _ _,
    (H.2.1 true true 0 0x7FFF 0x8000 0 (by decide +kernel) (by decide +kernel)).1,
    (H.2.1 false false 0 0xFFFFFFFF 0x80000000 0 (by decide +kernel) (by decide +kernel)).2.2.2.1,
    (H.2.2 jobd jbHalf 8 8191 (by decide) (by decide +kernel) (by decide +kernel) (by decide +kernel)).1 15 (by decide),
    (H.2.2 jobd jbFp 0 63 (by decide) (by decide +kernel) (by decide +kernel) (by decide +kernel)).2.1 5 (by decide),
    (H.2.2 jobd jbFp 0 63 (by decide) (by decide +kernel) (by decide +kernel) (by decide +kernel)).2.2 4095 (by decide) (by decide +kernel)⟩

theorem witness_micro_operation_of_pe : Sys2Proof.Claims.MicroOperationOfPe →
    ((State.uopUnit State.reset uop 9 (fun _ => 0) 0).2.getLsbD 63 = peResult uop ((State.operand State.reset 9 uop.a).getLsbD 63) ((0 : Plane).getLsbD 63) ((State.pe State.reset 9).c.getLsbD 63)) ∧
    ((State.uopUnit State.reset uop 1 (fun _ => 0) 0).2.getLsbD 8191 = peResult uop ((State.operand State.reset 1 uop.a).getLsbD 8191) ((0 : Plane).getLsbD 8191) ((State.pe State.reset 1).c.getLsbD 8191)) := fun H =>
  ⟨(H State.reset uop 9 63 (fun _ => 0) 0 (by decide) (by decide +kernel)).1,
    (H State.reset uop 1 8191 (fun _ => 0) 0 (by decide) (by decide +kernel)).1⟩

theorem witness_micro_trap_and_atom_limit : Obligations.MicroTrapAndAtomLimit →
    Runs (Instr.microTrap 0) trapd ∧
    Runs (Instr.microTrap 0) trapWd ∧
    Runs (Instr.microTrap 0) trapAtom ∧
    Runs (Instr.atomLimit 0) trapAtom := fun H =>
  ⟨(H.1 0 trapd rout 0 0 (by decide +kernel) (by decide) (by decide) (by decide) (by decide +kernel) ⟨by decide, by decide⟩).runs,
    (H.2.1 0 trapWd rout 0 (by decide +kernel) (by decide) (by decide) (by decide) ⟨by decide, by decide⟩).runs,
    (H.2.2.1 0 trapAtom routAtom (by decide +kernel) (by decide) (by decide)).runs,
    (H.2.2.2 0 trapAtom routAtom 0 0 (by decide +kernel) (by decide) (by decide) (by decide) (by decide) (by decide +kernel) ⟨by decide, by decide⟩).runs⟩

theorem witness_access_codes_govern_writes : Sys2Proof.Claims.AccessCodesGovernWrites →
    Field.of F.asMcCtl_GO (accessWrite true [F.asMcCtl_TARGET, F.asMcCtl_GO] 5 6) = fieldAfter true F.asMcCtl_GO.acc (Field.of F.asMcCtl_GO 5) (Field.of F.asMcCtl_GO 6) ∧
    (accessWrite true [F.asMcCtl_TARGET, F.asMcCtl_GO] 5 6).getLsbD 31 = (5 : Word).getLsbD 31 := fun H =>
  ⟨(H true [F.asMcCtl_TARGET, F.asMcCtl_GO] 5 6 (by decide) (by decide)).1 F.asMcCtl_GO (by decide),
    (H true [F.asMcCtl_TARGET, F.asMcCtl_GO] 5 6 (by decide) (by decide)).2 31 (by decide)⟩

theorem witness_reserved_encodings_are_discarded : Sys2Proof.Claims.ReservedEncodingsAreDiscarded →
    Runs (.registerWrite .host (rg .asMcCtl).off 0) (hostUp State.reset) ∧
    Runs (Instr.registerWrite Requester.host (Reg.off (rg Fam.asMcCtl)) 0) (hostUp regErrd) := fun H =>
  ⟨Exists.elim ((H .host (rg .asMcCtl) 0 (hostUp State.reset) (by decide) (by decide +kernel) (by decide +kernel) (by decide) (by decide) (by decide)).2 (by decide)) fun _ h => h.1.runs,
    ((H .host (rg .asMcCtl) 0 (hostUp regErrd) (by decide) (by decide +kernel) (by decide +kernel) (by decide) (by decide) (by decide)).1 (by decide)).runs⟩

theorem witness_register_writes_in_general_1 : Sys2Proof.Claims.RegisterWritesInGeneral →
    Runs (Instr.registerWrite (Requester.dma 47) (Reg.off (rg Fam.dbClaim 2)) 4294967295) State.reset ∧
    Runs (Instr.registerWrite (Requester.seq 3) (Reg.off (rg Fam.sysSsc)) 0) State.reset ∧
    Runs (Instr.registerWrite Requester.host (Reg.off (rg Fam.sysSsc)) 0) (hostUp State.reset) ∧
    Runs (Instr.registerWrite (Requester.seq 0) (Reg.off (rg Fam.lodgeAct 15)) 0) State.reset ∧
    Runs (Instr.registerWrite Requester.lodge (Reg.off (rg Fam.sysRegerr)) 4294967295) regErrd ∧
    (∃ x, errorLogged (hostUp State.reset) 20 x ∧ Answers (.registerWrite .host 0xCFFFFF 0) (hostUp State.reset) (answers x .unsupported)) ∧
    Runs (Instr.registerWrite Requester.remote 13631484 0) State.reset ∧
    Runs (.registerWrite .host 0 0) State.reset ∧
    Runs (.claim .host 3) inD3 ∧
    Runs (Instr.registerWrite (Requester.seq 3) 13631484 0) State.reset := fun H =>
  ⟨((H.1 (rg .dbClaim 2) (.dma 47) 0xFFFFFFFF State.reset (by decide) (by decide +kernel)).1 (by decide)).runs,
    ((H.1 (rg .sysSsc) (.seq 3) 0 State.reset (by decide) (by decide +kernel)).2.1 (by decide)).runs,
    ((H.1 (rg .sysSsc) .host 0 (hostUp State.reset) (by decide) (by decide +kernel)).2.1 (by decide)).runs,
    ((H.1 (rg .lodgeAct 15) (.seq 0) 0 State.reset (by decide) (by decide +kernel)).2.2 (by decide)).runs,
    (H.2.1 .lodge 0xFFFFFFFF regErrd (by decide +kernel)).runs,
    (H.2.2.1 0xCFFFFF 0 (hostUp State.reset) (by decide) (Or.inl (by decide))).1,
    ((H.2.2.1 0xCFFFFC 0 State.reset (by decide) (Or.inr (by decide +kernel))).2.1).runs,
    Exists.elim ((H.2.2.2 0 0 State.reset (by decide) (Or.inl (by decide +kernel))).1) fun _ h => h.2.runs,
    Exists.elim ((H.2.2.2 0 0 inD3 (by decide) (Or.inr (by decide +kernel))).2 3) fun _ h => h.2.runs,
    ((H.2.2.1 0xCFFFFC 0 State.reset (by decide) (Or.inr (by decide +kernel))).2.2.1 3).runs⟩

theorem witness_register_writes_in_general_2 : Sys2Proof.Claims.RegisterWritesInGeneral → Runs (Instr.registerWrite (Requester.dma 47) 13631484 0) State.reset := fun H =>
  ((H.2.2.1 0xCFFFFC 0 State.reset (by decide) (Or.inr (by decide +kernel))).2.2.2 47 (by decide +kernel)).runs

theorem witness_event_latch_set_register : Obligations.EventLatchSetRegister → Runs (Instr.sysSeqEvl (Requester.seq 3) 3 4294967295) State.reset := fun H =>
  ((H 3).2.2.2 (.seq 3) 0xFFFFFFFF State.reset (by decide +kernel) trivial).runs

theorem witness_event_latch_clear_register : Obligations.EventLatchClearRegister → Runs (Instr.sysSeqEvc Requester.host 0 2147483649) (hostUp State.reset) := fun H =>
  ((H 0).2.2.2 .host 0x80000001 (hostUp State.reset) (by decide +kernel) trivial).runs

theorem witness_array_ownership_writes : Sys2Proof.Claims.ArrayOwnershipWrites →
    Runs (Instr.arrayWownWrite (Requester.seq 3) 65535) State.reset ∧
    Runs (Instr.arrayBoundWrite (Requester.seq 0) 0) State.reset ∧
    Runs (Instr.arrayTopoWrite (Requester.seq 0) 65281) State.reset ∧
    Runs (Instr.arrayWownWrite Requester.host 0) (hostUp State.reset) ∧
    Runs (Instr.arrayBoundWrite (Requester.dma 47) 0) State.reset ∧
    Runs (Instr.arrayTopoWrite Requester.lodge 0) State.reset ∧
    Runs (Instr.arrayWriteTakesEffect 0) arrW ∧
    Runs (Instr.arrayWriteTakesEffect 0) arrB ∧
    Runs (Instr.arrayWriteTakesEffect 0) arrT := fun H =>
  ⟨((H.1 3).1 (.seq 3) 0xFFFF State.reset (by decide +kernel) rfl).runs,
    ((H.1 0).2.1 (.seq 0) 0 State.reset (by decide +kernel) rfl).runs,
    ((H.1 0).2.2 (.seq 0) 0xFF01 State.reset (by decide +kernel) rfl).runs,
    ((H.2.1 .host (by decide)).1 0 (hostUp State.reset) (by decide +kernel)).runs,
    ((H.2.1 (.dma 47) (by decide)).2.1 0 State.reset (by decide +kernel)).runs,
    ((H.2.1 .lodge (by decide)).2.2 0 State.reset (by decide +kernel)).runs,
    ((H.2.2 0 arrW (.wown 0xFFFF) [.bound 0, .topo 1] (by decide) (by decide) (by decide) (by decide) (by decide)).1).runs,
    ((H.2.2 0 arrB (.bound 0x2AAAA) [.topo 1] (by decide) (by decide) (by decide) (by decide) (by decide)).1).runs,
    ((H.2.2 0 arrT (.topo 0xFF01) [] (by decide) (by decide) (by decide) (by decide) (by decide)).1).runs⟩

theorem witness_array_records_cleared : Sys2Proof.Claims.ArrayRecordsCleared →
    Runs (Instr.atomclr Requester.host 3 65536) (hostUp State.reset) ∧
    Runs (Instr.perrValidClear Requester.host 7 2147483648) (hostUp State.reset) ∧
    Runs (Instr.hperrClear Requester.host 8192) (hostUp State.reset) ∧
    Runs (Instr.clrcnt Requester.host 16384) (hostUp State.reset) ∧
    Runs (Instr.colcntClr Requester.host 0 2147483648) (hostUp State.reset) := fun H =>
  ⟨(H.1 3 .host 0x10000 (hostUp State.reset) (by decide +kernel) (by decide)).runs,
    (H.2.1 7 .host 0x80000000 (hostUp State.reset) (by decide +kernel) (by decide)).runs,
    (H.2.2.1 .host 0x2000 (hostUp State.reset) (by decide +kernel) (by decide) (by decide)).runs,
    (H.2.2.2.1 .host 0x4000 (hostUp State.reset) (by decide +kernel) (by decide) (by decide) (by decide)).runs,
    (H.2.2.2.2 0 .host 0x80000000 (hostUp State.reset) (by decide +kernel) (by decide)).runs⟩

theorem witness_wing_clear_leaves_clear_values : Sys2Proof.Claims.WingClearLeavesClearValues → Runs (Instr.wingClear 7) clearing7 := fun H =>
  ((H 7 clearing7 (by decide) (by decide) (by decide +kernel)).1).runs

theorem witness_microcode_loads : Obligations.MicrocodeLoads →
    Runs (Instr.mcLoadGo (Requester.seq 3) 31) State.reset ∧
    State.verBegin mcMis = State.mcEnd mcMis 1 ∧
    Runs (Instr.mcLoadEnd) mcRead := fun H =>
  ⟨(H.1 3 (.seq 3) 0x1F State.reset (by decide +kernel) (by decide)).runs,
    (H.2.1 mcMis 0 [] (by decide)).1 (Or.inl (by decide)),
    (H.2.2.1 mcRead mcBodyR.1 mcSigR.1 0 [] [] [] [] mcBody mcSig (by decide) (by decide +kernel) rfl (by decide) (read_eq (by decide +kernel)) (read_eq (by decide +kernel))).runs⟩

theorem witness_cellar_banks_and_interleave : Sys2Proof.Claims.CellarBanksAndInterleave →
    Runs (Instr.ilvChange) ilvHeld ∧
    Runs (Instr.ilvChange) ilvBusy ∧
    Runs (Instr.bankPowerRequest Requester.host 0 2) (hostUp banksOff) ∧
    Runs (Instr.bankPowerRequest Requester.lodge 1 2863311530) State.reset ∧
    Runs (Instr.bankPowerDown 0) bankRet ∧
    Runs (Instr.bankPowerDown 31) bankOff31 ∧
    Runs (Instr.bankWakeEnd 31) bankWak ∧
    sparseGet memDefault (State.zeroBank State.reset 0).mem 536870912 = 0 ∧
    sparseGet memDefault (State.zeroBank State.reset 0).mem 538443776 = sparseGet memDefault State.reset.mem 538443776 := fun H =>
  ⟨(H.1 1 ilvHeld (by decide) (by decide) (by decide +kernel)).runs,
    (H.2.1 ilvBusy (by decide) (by decide) (by decide +kernel)).runs,
    (H.2.2.1 0 .host 2 (hostUp banksOff) (by decide +kernel) trivial).runs,
    (H.2.2.1 1 .lodge 0xAAAAAAAA State.reset (by decide +kernel) trivial).runs,
    ((H.2.2.2 0).1 bankRet (by decide) (by decide) (by decide +kernel)).runs,
    ((H.2.2.2 31).2.1 bankOff31 (by decide) (by decide) (by decide +kernel)).runs,
    ((H.2.2.2 31).2.2.1 true bankWak (by decide) (by decide) (by decide +kernel)).runs,
    (H.2.2.2 0).2.2.2 State.reset 0x20000000 |>.1 (by decide),
    (H.2.2.2 0).2.2.2 State.reset 0x20180000 |>.2 (by decide)⟩

theorem witness_cellar_reports_and_counters : Sys2Proof.Claims.CellarReportsAndCounters →
    Runs (Instr.starvation 5 31) starveOff ∧
    Runs (Instr.starvation 5 31) starved ∧
    Runs (.starvation 0 0) State.reset ∧
    Runs (Instr.cellarEccClr Requester.host 2147483649) (hostUp State.reset) ∧
    Runs (Instr.clrhigh Requester.host 2147483648) (hostUp tagged) := fun H =>
  ⟨(H.1 5 31 starveOff (by decide) (by decide) (by decide +kernel)).runs,
    ((H.2.1 5 31 starved (by decide) (by decide) (by decide +kernel)).1 (by decide +kernel)).runs,
    Exists.elim ((H.2.1 0 0 State.reset (by decide) (by decide) (by decide +kernel)).2 (by decide +kernel)) fun _ h => h.1.runs,
    (H.2.2.1 .host 0x80000001 (hostUp State.reset) (by decide +kernel) (by decide)).runs,
    (H.2.2.2 .host 0x80000000 (hostUp tagged) (by decide +kernel) (by decide)).runs⟩

theorem witness_ownership_rule : Sys2Proof.Claims.OwnershipRule → (ownerRuleOf (some 5) 0 5 = ClaimRes.claim ↔ 5 = 5 ∧ 0 = 0) := fun H =>
  (H 5 0 5 (by decide)).1

theorem witness_dma_channel_control : Sys2Proof.Claims.DmaChannelControl →
    Runs (Instr.dmaClaim Requester.host 47 5) (hostUp State.reset) ∧
    Runs (Instr.dmaClaim (Requester.seq 0) 0 0) dmaOwned ∧
    Runs (Instr.dmaClaim (Requester.seq 3) 1 0) dmaOwned ∧
    Runs (Instr.dmaClaim Requester.host 0 1) (hostUp State.reset) ∧
    Runs (Instr.dmaStart (Requester.seq 0) 0 9) dmaOwned ∧
    Runs (Instr.dmaStart (Requester.seq 3) 1 12) dmaOwned ∧
    Runs (Instr.dmaAbort (Requester.seq 3) 1 20) dmaOwned ∧
    Runs (Instr.dmaAbort (Requester.seq 0) 0 17) dmaOwned ∧
    State.asserted (State.setF dmaOwned (rg Fam.dmaStat 1) F.dmaStat_ERR 9) (576 + 1) = true := fun H =>
  ⟨((H 47).1 .host 5 (hostUp State.reset) (by decide +kernel) ⟨5, (by decide)⟩).runs,
    ((H 0).2.1 (.seq 0) 0 dmaOwned (by decide +kernel) ⟨1, (by decide)⟩).runs,
    ((H 1).2.2.1 (.seq 3) 0 dmaOwned (by decide +kernel) ⟨4, (by decide)⟩).runs,
    ((H 0).2.2.2.1 .host 1 (hostUp State.reset) (by decide +kernel) (by decide)).runs,
    ((H 0).2.2.2.2.1 (.seq 0) 9 dmaOwned (by decide +kernel) ⟨1, (by decide)⟩).runs,
    ((H 1).2.2.2.2.2.1 (.seq 3) 0xC dmaOwned (by decide +kernel) ⟨4, (by decide)⟩).runs,
    ((H 1).2.2.2.2.2.2.1 (.seq 3) 0x14 dmaOwned (by decide +kernel) ⟨4, (by decide)⟩).runs,
    ((H 0).2.2.2.2.2.2.1 (.seq 0) 0x11 dmaOwned (by decide +kernel) ⟨1, (by decide)⟩).runs,
    (H 1).2.2.2.2.2.2.2 (dmaOwned.setF (rg .dmaStat 1) F.dmaStat_ERR 9) (by decide +kernel)⟩

theorem witness_dma_descriptors_are_read : Sys2Proof.Claims.DmaDescriptorsAreRead →
    State.dmaFetch State.reset 0 = State.dmaFail State.reset 0 1 ∧
    State.dmaFetch descBad 47 = State.dmaFail descBad 47 2 ∧
    (let w := fun k => BitVec.ofNat 32 (State.memNum descGood (BitVec.toNat (State.reg descGood (rg Fam.dmaCur 0)) + 4 * k) 4); State.dmaFetch descGood 0 = State.modDma descGood 0 fun k => { k with desc := some (Desc.ofWords (w 0) (w 1) (w 2) (w 3) (w 4) (w 5) (w 6) (w 7)) }) := fun H =>
  ⟨(H State.reset 0).1 (by decide +kernel) (by decide +kernel),
    (H descBad 47).2 (Or.inl (by decide +kernel)) (by decide +kernel) (by decide) (by decide) |>.1 (by decide +kernel),
    (H descGood 0).2 (Or.inr (by decide +kernel)) (by decide +kernel) (by decide) (by decide) |>.2 (by decide +kernel) (by decide)⟩

theorem witness_dma_descriptors_complete : Sys2Proof.Claims.DmaDescriptorsComplete →
    Runs (Instr.dmaDescriptorComplete 0 []) dmaDone ∧
    Runs (Instr.dmaDescriptorComplete 0 [3]) dmaDone ∧
    Runs (Instr.dmaDescriptorComplete 0 []) dmaCopy ∧
    Runs (Instr.dmaDescriptorComplete 0 []) dmaFill ∧
    Runs (Instr.dmaTimeout 47) dmaLate := fun H =>
  ⟨(H.1 0 [] fillDesc dmaDone (by decide) (by decide) (by decide)).runs,
    (H.1 0 [3] fillDesc dmaDone (by decide) (by decide) (by decide)).runs,
    (H.2.1 0 copyDesc dmaCopy (by decide) (by decide) (by decide)).runs,
    (H.2.2.1 0 fillDesc dmaFill (by decide) (by decide) (by decide)).runs,
    (H.2.2.2 47 lateReq [] [] 0 dmaLate (by decide) ⟨rfl, (by decide)⟩).runs⟩

theorem witness_dma_errors_end_the_chain : Sys2Proof.Claims.DmaErrorsEndTheChain → State.dmaState (State.dmaFail State.reset 47 255) 47 = 2 := fun H =>
  (H State.reset 47 255 (by decide)).1

theorem witness_planisher_windows : Sys2Proof.Claims.PlanisherWindows →
    Runs (Instr.planisherWindow PlanCut.none none) State.reset ∧
    Runs (Instr.planisherWindow PlanCut.sequencer none) planScrub ∧
    Runs (Instr.planisherWindow PlanCut.none none) planMarch ∧
    Runs (Instr.planisherWindow PlanCut.none (some (127, 287))) planMarch ∧
    Runs (.planisherWindow .none (some (0, 1))) planMarch0 ∧
    Runs (Instr.planisherWindow PlanCut.sequencer none) planMarch ∧
    Runs (Instr.planisherWindow PlanCut.sequencer (some (3, 4))) planMarch ∧
    Runs (.planisherWindow .power none) planBad := fun H =>
  ⟨(H.1 .none none State.reset (by decide) (by decide) (by decide +kernel)).runs,
    (H.2.1 0 1 .sequencer none planScrub (by decide) (by decide) (by decide +kernel)).runs,
    (H.2.2.1 31 382 planMarch (by decide) (by decide) (by decide +kernel)).runs,
    (H.2.2.2.1 31 382 127 287 planMarch (by decide) (by decide) (by decide +kernel)).runs,
    Exists.elim (H.2.2.2.2.1 31 382 0 1 planMarch0 (by decide) (by decide) (by decide) (by decide) (by decide +kernel) (by decide +kernel)) fun _ h => h.1.runs,
    (H.2.2.2.2.2.1 31 382 planMarch (by decide) (by decide) (by decide +kernel)).runs,
    (H.2.2.2.2.2.2.1 31 382 3 4 planMarch (by decide) (by decide) (by decide +kernel)).runs,
    Exists.elim (H.2.2.2.2.2.2.2 31 382 2 .power none 0 planBad (by decide) (by decide) (Or.inr rfl) (by decide +kernel) (by decide) (by decide +kernel) (by decide +kernel)) fun t h => ⟨t, h.1⟩⟩

theorem witness_group_training : Sys2Proof.Claims.GroupTraining →
    Runs (Instr.traingo Requester.host 7 1836) (hostUp inlHost) ∧
    Runs (Instr.trainingEnd 0 false clean9 seen0) training ∧
    Runs (.trainingEnd 0 true clean1 seen0) training ∧
    Runs (.trainingEnd 0 true clean9 seen0) training ∧
    Runs (Instr.lossOfLock 7 []) receiving ∧
    Runs (Instr.lossOfLock 7 []) laneSol := fun H =>
  ⟨((H 7).1 .host 0x72C (hostUp inlHost) (by decide +kernel) (by decide)).runs,
    ((H 0).2.1 clean9 seen0 training (by decide) (by decide) (by decide)).runs,
    Exists.elim ((H 0).2.2.1 clean1 seen0 (fun _ => 57) (fun _ => 7) training (by decide) (by decide) (by decide) (by decide +kernel)) fun t h => ⟨t, h.1⟩,
    Exists.elim ((H 0).2.2.1 clean9 seen0 (fun _ => 3) (fun _ => 9) training (by decide) (by decide) (by decide) (by decide +kernel)) fun t h => ⟨t, h.1⟩,
    ((H 7).2.2.2.1 line0 receiving (by decide) (by decide) (by decide)).runs,
    ((H 7).2.2.2.2 laneSol (by decide) (by decide) (by decide)).runs⟩

theorem witness_lines_are_received : Sys2Proof.Claims.LinesAreReceived →
    Runs (Instr.solPreamble 0 [] (wsOf 0)) State.reset ∧
    Runs (Instr.eolPreamble 0 []) State.reset ∧
    Runs (Instr.solPreamble 7 [] (wsOf (solCode gateShut 7))) (due gateShut) ∧
    Runs (Instr.solPreamble 7 [] (wsOf (solCode gateShut 7))) (due idleGroup) ∧
    Runs (Instr.solPreamble 7 [] (wsOf (solCode gateShut 7))) (due marked) ∧
    Runs (Instr.eolPreamble 7 [wsOf (eolCode gateShut 7)]) (rcv true) ∧
    Runs (Instr.solPreamble 7 [] (wsOf 77)) (rcv true) ∧
    State.flag (State.sol (solAt 7) 7) (rg Fam.sgStat 7) F.sgStat_ALIGNED = true ∧
    State.sol (solAt 8) 7 = State.setF (solAt 8) (rg Fam.sgStat 7) F.sgStat_SKEWFAIL 1 := fun H =>
  ⟨(((H 0).1 [] (wsOf 0)).1 State.reset (by decide) (by decide) (by decide +kernel)).runs,
    (((H 0).1 [] (wsOf 0)).2 State.reset (by decide) (by decide) (by decide +kernel)).runs,
    ((H 7).2.1 (wsOf (solCode gateShut 7)) (due gateShut) (by decide) (by decide) (by decide +kernel)).runs,
    ((H 7).2.2.1 (wsOf (solCode gateShut 7)) (due idleGroup) (by decide) (by decide) (by decide +kernel)).runs,
    ((H 7).2.2.2.1 (wsOf (solCode gateShut 7)) 5 0 [] (due marked) (by decide) (by decide) (by decide +kernel)).runs,
    ((H 7).2.2.2.2.1 (wsOf (eolCode gateShut 7)) line0 (rcv true) (by decide) (by decide) (by decide +kernel)).runs,
    ((H 7).2.2.2.2.2.1 (wsOf 77) 77 (rcv true) (by decide) (by decide) (by decide +kernel)).runs,
    ((H 7).2.2.2.2.2.2 (solAt 7) (fun _ => 7) (by decide +kernel) (by decide) (by decide +kernel)).1 (by decide +kernel) |>.1,
    (H 7).2.2.2.2.2.2 (solAt 8) (fun _ => 8) (by decide +kernel) (by decide) (by decide +kernel) |>.2 (by decide +kernel)⟩

theorem witness_line_marks : Sys2Proof.Claims.LineMarks →
    Runs (Instr.lineNextWrite Requester.host 7 8388607) (hostUp inlHost) ∧
    Runs (Instr.lineStartMark Requester.host 7 2147483648) (hostUp inlHost) ∧
    Runs (Instr.lineStartMark Requester.host 7 2147483651) (hostUp inlTwo) := fun H =>
  ⟨((H 7).1 .host 0x7FFFFF (hostUp inlHost) (by decide +kernel) (by decide +kernel)).runs,
    ((H 7).2.1 .host 0x80000000 (hostUp inlHost) (by decide +kernel) (by decide +kernel)).runs,
    ((H 7).2.2 1 1 (2, 2) .host 0x80000003 (hostUp inlTwo) (by decide +kernel) (by decide +kernel)).runs⟩

theorem witness_lines_reach_the_planes : Obligations.LinesReachThePlanes →
    Runs (Instr.handOver 0 1) ended0 ∧
    Runs (Instr.handOver 0 1) (State.setReg ended0 (rg Fam.sysWpwr) 254) ∧
    BitVec.getLsbD (pixelPlane [5] 2) 8191 = Nat.testBit (Option.getD [5][8191]? 0) 2 ∧
    Runs (.lineStatusWrite 7) written7 := fun H =>
  ⟨((H 0).1 1 line0 [] ended0 (by decide) (by decide) (by decide +kernel)).runs,
    ((H 0).2.1 1 line0 [] (ended0.setReg (rg .sysWpwr) 0xFE) (by decide) (by decide) (by decide +kernel)).runs,
    (H 7).2.2.2.1 [5] 2 8191 (by decide),
    Exists.elim ((H 7).2.2.2.2 line0 true [] written7 (by decide) (by decide) (by decide)) fun _ h => h.1.runs⟩

theorem witness_sensor_counters_and_presence : Sys2Proof.Claims.SensorCountersAndPresence →
    Runs (Instr.wStatClr Requester.host 7 2147483648) (hostUp inlHost) ∧
    Runs (Instr.ringRptrWrite Requester.lodge 7 16777215) State.reset ∧
    Runs (Instr.ringStatClr Requester.host 0 4294967295) (hostUp State.reset) ∧
    Runs (Instr.headPresenceChange 7 { level := true, ticks := 65535000 }) State.reset ∧
    Runs (Instr.headPresenceChange 0 { level := false, ticks := 0 }) State.reset := fun H =>
  ⟨(H.1 7 .host 0x80000000 (hostUp inlHost) (by decide +kernel) (by decide +kernel)).runs,
    (H.2.1 7 .lodge 0xFFFFFF State.reset (by decide +kernel) trivial).runs,
    (H.2.2.1 0 .host 0xFFFFFFFF (hostUp State.reset) (by decide +kernel) (by decide)).runs,
    (H.2.2.2.1 7 true 65535000 State.reset (by decide) (by decide) (by decide +kernel)).runs,
    (H.2.2.2.2 0 false 0 State.reset (by decide) (by decide) (by decide +kernel)).runs⟩

theorem witness_inlet_and_outlet_claims : Sys2Proof.Claims.InletAndOutletClaims →
    Runs (Instr.inletClaim Requester.host 7 524293) (hostUp State.reset) ∧
    Runs (Instr.outletClaim (Requester.seq 3) 0 4100) State.reset ∧
    Runs (Instr.inletClaim Requester.host 7 64) (hostUp inlHost) ∧
    Runs (Instr.outletClaim (Requester.seq 0) 0 4096) outIdle ∧
    Runs (Instr.outletClaim (Requester.seq 0) 0 4096) outBusy ∧
    Runs (Instr.inletClaim Requester.host 0 524289) (hostUp State.reset) ∧
    Runs (Instr.outletClaim (Requester.dma 0) 7 4096) State.reset := fun H =>
  ⟨((H 7).1 .host 0x80005 (hostUp State.reset) (by decide +kernel) (by decide +kernel)).runs,
    ((H 0).2.1 (.seq 3) 0x1004 State.reset (by decide +kernel) (by decide +kernel)).runs,
    ((H 7).2.2.1 .host 0x40 (hostUp inlHost) (by decide +kernel) (by decide +kernel)).runs,
    ((H 0).2.2.2.1 (.seq 0) 0x1000 outIdle (by decide +kernel) (by decide +kernel)).runs,
    ((H 0).2.2.2.2.1 (.seq 0) 0x1000 outBusy (by decide +kernel) (by decide +kernel)).runs,
    ((H 0).2.2.2.2.2.1 .host 0x80001 (hostUp State.reset) (by decide +kernel) (by decide +kernel)).runs,
    ((H 7).2.2.2.2.2.2 (.dma 0) 0x1000 State.reset (by decide +kernel) (by decide +kernel)).runs⟩

theorem witness_outlet_jobs : Sys2Proof.Claims.OutletJobs →
    Runs (Instr.outletStart (Requester.seq 0) 257) outBad ∧
    Runs (Instr.outletStart (Requester.seq 0) 257) outIdle ∧
    Runs (Instr.outletStart (Requester.seq 0) 257) outPlane ∧
    Runs (Instr.outletStart (Requester.seq 0) 257) outBusy ∧
    Runs (Instr.outletAbort (Requester.seq 0) 513) outBusy ∧
    Runs (Instr.outletDone 0) outBusy ∧
    Runs (Instr.outletDone 0) outPl := fun H =>
  ⟨((H 0).1 (.seq 0) 0x101 outBad (by decide +kernel) (by decide +kernel)).runs,
    ((H 0).2.1 (.seq 0) 0x101 outIdle (by decide +kernel) (by decide +kernel)).runs,
    ((H 0).2.2.1 (.seq 0) 0x101 outPlane (by decide +kernel) (by decide +kernel)).runs,
    ((H 0).2.2.2.1 (.seq 0) 0x101 outBusy (by decide +kernel) (by decide +kernel)).runs,
    ((H 0).2.2.2.2.1 (.seq 0) 0x201 outBusy (by decide +kernel) (by decide +kernel)).runs,
    ((H 0).2.2.2.2.2.1 7 [5] [] [] outDone1 outBusy (by decide) (by decide) ⟨rfl, by decide, by decide +kernel, rfl⟩).runs,
    ((H 0).2.2.2.2.2.2 0x22FFFC00 [3] [] [] outPl (by decide) (by decide) (by decide +kernel)).runs⟩

theorem witness_rings_take_records : Sys2Proof.Claims.RingsTakeRecords →
    State.ringPut ringFull (7) 0 = (State.setF (State.setF ringFull (rg Fam.ringStat 7) F.ringStat_DROP (Nat.min 65535 (State.getF ringFull (rg Fam.ringStat 7) F.ringStat_DROP + 1))) (rg Fam.ringStat 7) F.ringStat_FULL 1, none) ∧
    State.ringPut State.reset 0 0 = (State.setF (State.setMemBytes State.reset (BitVec.toNat (State.reg State.reset (rg Fam.ringBase 0)) + 8 * (State.getF State.reset (rg Fam.ringWptr 0) F.ringWptr_WPTR % 2 ^ State.getF State.reset (rg Fam.ringSize 0) F.ringSize_SIZE)) (bytesLE 8 (BitVec.toNat (0 : BitVec 64)))) (rg Fam.ringWptr 0) F.ringWptr_WPTR (State.getF State.reset (rg Fam.ringWptr 0) F.ringWptr_WPTR + 1), none) := fun H =>
  ⟨(H ringFull 7 0).1 (by decide +kernel),
    (H State.reset 0 0).2 (by decide +kernel) (by decide +kernel) (by decide) (by decide)⟩

theorem witness_porch_words_decode : Sys2Proof.Claims.PorchWordsDecode →
    decodePorch (porchWord 0 true 7 15 (Fin.ofNat 4096 ((255 : BitVec 8).toNat + 256 * 13))) = some (.br 13 (255 : BitVec 8).toNat) ∧
    decodePorch (porchWord 3 false 0 0 (Fin.ofNat 4096 (32 + 256 * one true + 512 * 5))) = some (PInstr.sho (5) true 32) ∧
    decodePorch 14680064 = none := fun H =>
  ⟨H.1 13 255 (by decide) true 7 15,
    H.2.2.2.2.2.1 5 true 32 (by decide) (by decide) |>.1 false 0 0,
    H.2.2.2.2.2.2.2.2.2.2.2.2.2.2 0xE00000 (by decide)⟩

theorem witness_porch_flow_1 : Sys2Proof.Claims.PorchFlow →
    Runs (Instr.br 0 0) (pch 0 (pw 0 3333) id) ∧
    Runs (Instr.brr 511) (pch 511 (pw 1 1) id) ∧
    Runs (Instr.wait 0 0) (pch 0 (pw 2 287) id) ∧
    Runs (Instr.wait 0 0) (pch 0 (pw 2 519) id) ∧
    Runs (Instr.wait 0 0) (pch 0 (pw 2 1280) id) ∧
    Runs (Instr.wait 0 0) (pch 0 (pw 2 2048) id) ∧
    (Runs (Instr.wait 0 0) (pch 0 (pw 2 2304) fun c => { c with s1 := 1 })) ∧
    Runs (Instr.waitTimeout 0 0) (pch 0 (pw 2 2304) id) ∧
    Runs (Instr.nop (NopSite.porch 511)) (pch 511 (pw 12 0) id) ∧
    Runs (Instr.halt 0) (pch 0 (pw 13 0) id) := fun H =>
  ⟨((H 0).1 0 13 5 (pch 0 (pw 0 0xD05) id) (pw 0 0xD05) (by decide) (by decide) (by decide +kernel) (by decide +kernel)).runs,
    ((H 511).2.1 1 (pch 511 (pw 1 1) id) (pw 1 1) (by decide) (by decide) (by decide +kernel) (by decide +kernel)).runs,
    ((H 0).2.2.1 0 false 31 true (pch 0 (pw 2 0x11F) id) (pw 2 0x11F) (by decide) (by decide) (by decide +kernel) (by decide +kernel) (by decide +kernel)).runs,
    ((H 0).2.2.2.1 0 false 7 false (pch 0 (pw 2 0x207) id) (pw 2 0x207) (by decide) (by decide) (by decide +kernel) (by decide +kernel) (by decide +kernel)).runs,
    ((H 0).2.2.2.2.1 0 false true (pch 0 (pw 2 0x500) id) (pw 2 0x500) (by decide) (by decide) (by decide +kernel) (by decide +kernel) (by decide +kernel)).runs,
    ((H 0).2.2.2.2.2.1 0 true 0 (pch 0 (pw 2 0x800) id) (pw 2 0x800) (by decide) (by decide) (by decide +kernel) (by decide +kernel) (by decide +kernel)).runs,
    ((H 0).2.2.2.2.2.2.1 0 true 0 (pch 0 (pw 2 0x900) fun c => { c with s1 := 1 }) (pw 2 0x900) (by decide) (by decide) (by decide +kernel) (by decide +kernel) (by decide +kernel)).runs,
    ((H 0).2.2.2.2.2.2.2.1 0 true 0 (pch 0 (pw 2 0x900) id) (pw 2 0x900) (by decide) (by decide) (by decide +kernel) (by decide +kernel) (by decide +kernel)).runs,
    ((H 511).2.2.2.2.2.2.2.2.1 (pch 511 (pw 12 0) id) (pw 12 0) (by decide) (by decide) (by decide +kernel) (by decide +kernel) trivial).runs,
    ((H 0).2.2.2.2.2.2.2.2.2.1 (pch 0 (pw 13 0) id) (pw 13 0) (by decide) (by decide) (by decide +kernel) (by decide +kernel) trivial).runs⟩

theorem witness_porch_flow_2 : Sys2Proof.Claims.PorchFlow →
    Runs (Instr.gate 0) (pch 0 (pw 11 1) id) ∧
    Runs (Instr.sig 0) (pch 0 (pw 10 7) id) ∧
    Runs (Instr.sig 0) (pch 0 (pw 10 1024) id) ∧
    Runs (Instr.sig 0) (pch 0 (pw 10 2048) id) := fun H =>
  ⟨((H 0).2.2.2.2.2.2.2.2.2.2.1 true (pch 0 (pw 11 1) id) (pw 11 1) (by decide) (by decide) (by decide +kernel) (by decide +kernel) trivial).runs,
    ((H 0).2.2.2.2.2.2.2.2.2.2.2.1 7 (pch 0 (pw 10 7) id) (pw 10 7) (by decide) (by decide) (by decide +kernel) (by decide +kernel) trivial).runs,
    ((H 0).2.2.2.2.2.2.2.2.2.2.2.2.1 0 (pch 0 (pw 10 0x400) id) (pw 10 0x400) (by decide) (by decide) (by decide +kernel) (by decide +kernel) trivial).runs,
    ((H 0).2.2.2.2.2.2.2.2.2.2.2.2.2 (pch 0 (pw 10 0x800) id) (pw 10 0x800) (by decide) (by decide) (by decide +kernel) (by decide +kernel) trivial).runs⟩

theorem witness_porch_shifts_and_fifos : Sys2Proof.Claims.PorchShiftsAndFifos →
    Runs (Instr.sho 0) (pch 0 (pw 3 32) id) ∧
    Runs (Instr.sho 0) (pch 0 (pw 3 2817) id) ∧
    Runs (Instr.shi 0 0) (pch 0 (pw 4 2080) id) ∧
    Runs (Instr.shx 511 0) (pch 511 (pw 5 1) id) ∧
    (Runs (Instr.pull 0) (pch 0 (pw 6 0) fun c => { c with ofifo := [7] })) ∧
    Runs (Instr.pull 0) (pch 0 (pw 6 0) id) ∧
    Runs (Instr.pull 0) (pch 0 (pw 6 1) id) ∧
    (Runs (Instr.pull 0) (pch 0 (pw 6 2) fun c => { c with ocnt := 31 })) ∧
    (Runs (Instr.push 0) (pch 0 (pw 7 0) fun c => { c with ififo := List.replicate 7 0 })) ∧
    (Runs (Instr.push 0) (pch 0 (pw 7 0) fun c => { c with ififo := List.replicate 8 0 })) := fun H =>
  ⟨((H 0).1 0 32 (pch 0 (pw 3 0x020) id) (pw 3 0x020) (by decide) (by decide) (by decide +kernel) (by decide +kernel) trivial).runs,
    ((H 0).2.1 5 1 (pch 0 (pw 3 0xB01) id) (pw 3 0xB01) (by decide) (by decide) (by decide +kernel) (by decide +kernel) (by decide +kernel)).runs,
    ((H 0).2.2.1 0 4 32 (pch 0 (pw 4 0x820) id) (pw 4 0x820) (by decide) (by decide) (by decide +kernel) (by decide +kernel) trivial).runs,
    ((H 511).2.2.2.1 0 1 (pch 511 (pw 5 1) id) (pw 5 1) (by decide) (by decide) (by decide +kernel) (by decide +kernel) trivial).runs,
    ((H 0).2.2.2.2.1 0 7 [] (pch 0 (pw 6 0) fun c => { c with ofifo := [7] }) (pw 6 0) (by decide) (by decide) (by decide +kernel) (by decide +kernel) (by decide +kernel)).runs,
    ((H 0).2.2.2.2.2.1 (pch 0 (pw 6 0) id) (pw 6 0) (by decide) (by decide) (by decide +kernel) (by decide +kernel) (by decide +kernel)).runs,
    ((H 0).2.2.2.2.2.2.1 (pch 0 (pw 6 1) id) (pw 6 1) (by decide) (by decide) (by decide +kernel) (by decide +kernel) (by decide +kernel)).runs,
    ((H 0).2.2.2.2.2.2.2.1 (pch 0 (pw 6 2) fun c => { c with ocnt := 31 }) (pw 6 2) (by decide) (by decide) (by decide +kernel) (by decide +kernel) (by decide +kernel)).runs,
    ((H 0).2.2.2.2.2.2.2.2.1 0 (pch 0 (pw 7 0) fun c => { c with ififo := List.replicate 7 0 }) (pw 7 0) (by decide) (by decide) (by decide +kernel) (by decide +kernel) (by decide +kernel)).runs,
    ((H 0).2.2.2.2.2.2.2.2.2 (pch 0 (pw 7 0) fun c => { c with ififo := List.replicate 8 0 }) (pw 7 0) (by decide) (by decide) (by decide +kernel) (by decide +kernel) (by decide +kernel)).runs⟩

theorem witness_porch_arithmetic : Sys2Proof.Claims.PorchArithmetic →
    Runs (Instr.alu 0 0) (pch 0 (pw 8 3000) id) ∧
    Runs (Instr.ldi 511) (pch 511 (pw 9 1023) id) ∧
    Runs (Instr.ldi 0) (pch 0 (pw 9 1024) id) ∧
    Runs (Instr.ldi 0) (pch 0 (pw 9 2048) id) ∧
    Runs (Instr.ldi 0) (pch 0 (pw 9 3072) id) := fun H =>
  ⟨((H 0).1 0 7 5 6 (by decide) (by decide) (by decide) (pch 0 (pw 8 0xBB8) id) (pw 8 0xBB8) (by decide) (by decide) (by decide +kernel) (by decide +kernel) trivial).runs,
    ((H 511).2.1 1023 (pch 511 (pw 9 0x3FF) id) (pw 9 0x3FF) (by decide) (by decide) (by decide +kernel) (by decide +kernel) trivial).runs,
    ((H 0).2.2.1 0 (pch 0 (pw 9 0x400) id) (pw 9 0x400) (by decide) (by decide) (by decide +kernel) (by decide +kernel) trivial).runs,
    ((H 0).2.2.2.1 0 (pch 0 (pw 9 0x800) id) (pw 9 0x800) (by decide) (by decide) (by decide +kernel) (by decide +kernel) trivial).runs,
    ((H 0).2.2.2.2 0 (pch 0 (pw 9 0xC00) id) (pw 9 0xC00) (by decide) (by decide) (by decide +kernel) (by decide +kernel) trivial).runs⟩

theorem witness_porch_dwell_injection_fault : Sys2Proof.Claims.PorchDwellInjectionFault →
    (Runs (Instr.dwellOpportunity 511) (pch 511 0 fun c => { c with dwell := 1 })) ∧
    (Runs (Instr.injectionExecute 511 0) (porchHostF fun c => { c with inj := some (pw 12 0, true) })) ∧
    (Runs (Instr.injectionExecute 511 0) (porchHostF fun c => { c with inj := some (pw 9 5, true) })) ∧
    (Runs (Instr.injectionExecute 0 0) (pch 0 0 fun c => { c with latch := some { word := pw 12 0, inj := false }, inj := some (pw 9 1029, false) })) ∧
    (Runs (Instr.injectionExecute 0 0) (pch 0 0 fun c => { c with latch := some { word := pw 12 0, inj := true }, inj := some (pw 9 2053, true) })) ∧
    (Runs (Instr.injectionExecute 0 0) (pch 0 0 fun c => { c with inj := some (pw 9 4095, true) })) ∧
    (Runs (Instr.injectionExecute 0 0) (pch 0 0 fun c => { c with s0 := 77, latch := some { word := pw 12 0, inj := false }, inj := some (pw 1 0, true) })) ∧
    (Runs (Instr.injectionExecute 0 0) (pch 0 0 fun c => { c with latch := some { word := pw 12 0, inj := false }, ififo := [1, 2, 3, 4, 5, 6, 7, 8], inj := some (pw 7 0, true) })) ∧
    (Runs (Instr.injectionExecute 511 0) (porchHostF fun c => { c with ififo := [1, 2, 3, 4, 5, 6, 7, 8], inj := some (pw 7 0, false) })) ∧
    Runs (.nop (.porch 0)) (pch 0 0xE00000 id) := fun H =>
  ⟨((H 511).1 (pch 511 0 fun c => { c with dwell := 1 }) (by decide) (by decide) (by decide +kernel)).runs,
    ((H 511).2.1 0 (pw 12 0) true (porchHostF fun c => { c with inj := some (pw 12 0, true) }) ⟨(by decide), (by decide), rfl, rfl, (by decide +kernel), (by decide +kernel)⟩ trivial).runs,
    ((H 511).2.2.1 5 0 (pw 9 5) true (porchHostF fun c => { c with inj := some (pw 9 5, true) }) ⟨(by decide), (by decide), rfl, rfl, (by decide +kernel), (by decide +kernel)⟩ trivial).runs,
    ((H 0).2.2.2.1 5 0 (pw 9 1029) false (pch 0 0 fun c => { c with inj := some (pw 9 1029, false), latch := some { word := pw 12 0, inj := false } }) ⟨(by decide), (by decide), rfl, rfl, (by decide +kernel), (by decide +kernel)⟩ trivial).runs,
    ((H 0).2.2.2.2.1 5 0 (pw 9 2053) true (pch 0 0 fun c => { c with inj := some (pw 9 2053, true), latch := some { word := pw 12 0, inj := true } }) ⟨(by decide), (by decide), rfl, rfl, (by decide +kernel), (by decide +kernel)⟩ trivial).runs,
    ((H 0).2.2.2.2.2.1 1023 0 (pw 9 4095) true (pch 0 0 fun c => { c with inj := some (pw 9 4095, true) }) ⟨(by decide), (by decide), rfl, rfl, (by decide +kernel), (by decide +kernel)⟩ trivial).runs,
    ((H 0).2.2.2.2.2.2.1 0 0 (pw 1 0) true (pch 0 0 fun c => { c with inj := some (pw 1 0, true), s0 := 77, latch := some { word := pw 12 0, inj := false } }) ⟨(by decide), (by decide), rfl, rfl, (by decide +kernel), (by decide +kernel)⟩ trivial).runs,
    (((H 0).2.2.2.2.2.2.2.1 0 (pw 7 0) true (pch 0 0 fun c => { c with inj := some (pw 7 0, true), ififo := [1,2,3,4,5,6,7,8], latch := some { word := pw 12 0, inj := false } }) ⟨(by decide), (by decide), rfl, rfl, (by decide +kernel), (by decide +kernel)⟩ (by decide)).1 (by decide +kernel)).runs,
    (((H 511).2.2.2.2.2.2.2.1 0 (pw 7 0) false (porchHostF fun c => { c with inj := some (pw 7 0, false), ififo := [1,2,3,4,5,6,7,8] }) ⟨(by decide), (by decide), rfl, rfl, (by decide +kernel), (by decide +kernel)⟩ (by decide)).2 (by decide +kernel)).runs,
    Exists.elim ((H 0).2.2.2.2.2.2.2.2 (pch 0 0xE00000 id) 0xE00000 (by decide) (by decide) (by decide +kernel) (by decide +kernel) (by decide +kernel)) fun _ h => h.1.runs⟩

theorem witness_porch_claims : Sys2Proof.Claims.PorchClaims →
    Runs (Instr.porchChannelClaim Requester.host 0 5) (hostUp State.reset) ∧
    Runs (Instr.porchChannelClaim Requester.host 511 0) (hostUp porchHost) ∧
    Runs (Instr.porchChannelClaim Requester.host 0 1) (hostUp State.reset) ∧
    Runs (Instr.porchEngineClaim Requester.host 63 5) (hostUp State.reset) ∧
    Runs (Instr.porchEngineClaim Requester.host 63 0) (hostUp porchHost) ∧
    Runs (Instr.porchEngineClaim Requester.lodge 0 0) State.reset := fun H =>
  ⟨((H.1 0).1 .host 5 (hostUp State.reset) (by decide +kernel) (by decide +kernel)).runs,
    ((H.1 511).2.1 .host 0 (hostUp porchHost) (by decide +kernel) (by decide +kernel)).runs,
    ((H.1 0).2.2 .host 1 (hostUp State.reset) (by decide +kernel) (by decide +kernel)).runs,
    ((H.2 63).1 .host 5 (hostUp State.reset) (by decide +kernel) (by decide +kernel)).runs,
    ((H.2 63).2.1 .host 0 (hostUp porchHost) (by decide +kernel) (by decide +kernel)).runs,
    ((H.2 0).2.2 .lodge 0 State.reset (by decide +kernel) (by decide +kernel)).runs⟩

theorem witness_porch_start_stop_sync : Sys2Proof.Claims.PorchStartStopSync →
    Runs (Instr.porchEnable Requester.host 511 13) (hostUp porchHost) ∧
    Runs (Instr.porchDisable Requester.host 511 5) (hostUp porchHost) ∧
    Runs (Instr.restart Requester.host 511 21) (hostUp porchHost) ∧
    Runs (.porchSync .host 0xFFFF) (hostUp porchHost) := fun H =>
  ⟨(((H.1 511).1 .host 0xD (hostUp porchHost) (by decide +kernel) (by decide +kernel) (by decide +kernel) (by decide +kernel) (by decide +kernel) (by decide +kernel)).1).runs,
    ((H.1 511).2.1 .host 5 (hostUp porchHost) (by decide +kernel) (by decide +kernel)).runs,
    ((H.1 511).2.2 .host 0x15 (hostUp porchHost) (by decide +kernel) (by decide +kernel)).runs,
    Exists.elim (H.2 .host 0xFFFF (hostUp porchHost) 5 (by decide +kernel) (by decide +kernel) (by decide +kernel) (by decide +kernel)) fun _ h => h.1.runs⟩

theorem witness_porch_channel_registers : Sys2Proof.Claims.PorchChannelRegisters →
    (Runs (Instr.porchTxf Requester.host 511 7) (porchHostF fun c => { c with ofifo := List.replicate 7 0 })) ∧
    (Runs (Instr.porchTxf Requester.host 511 7) (porchHostF fun c => { c with ofifo := List.replicate 8 0 })) ∧
    (Runs (Instr.porchRxf Requester.host 511) (porchHostF fun c => { c with ififo := [9] })) ∧
    Runs (Instr.porchRxf Requester.host 511) (hostUp porchHost) ∧
    Runs (Instr.porchInject Requester.host 511 33554431) (hostUp porchHost) ∧
    (Runs (Instr.porchInject Requester.host 511 0) (porchHostF fun c => { c with inj := some (0, false) })) ∧
    Runs (Instr.porchEvt Requester.host 511 1) (hostUp porchHost) ∧
    Runs (Instr.flush Requester.host 511 294912) (hostUp porchHost) ∧
    Runs (Instr.chExecPcWrite Requester.host 511 65535) (hostUp porchHost) := fun H =>
  ⟨((H 511).1 .host 7 (porchHostF fun c => { c with ofifo := List.replicate 7 0 }) (by decide +kernel) (by decide +kernel)).runs,
    ((H 511).2.1 .host 7 (porchHostF fun c => { c with ofifo := List.replicate 8 0 }) (by decide +kernel) (by decide +kernel)).runs,
    ((H 511).2.2.1 .host (porchHostF fun c => { c with ififo := [9] }) 9 [] (by decide) (by decide) (by decide +kernel) (by decide)).runs,
    ((H 511).2.2.2.1 .host (hostUp porchHost) (by decide) (by decide) (by decide +kernel) (by decide)).runs,
    ((H 511).2.2.2.2.1 .host 0x1FFFFFF (hostUp porchHost) (by decide +kernel) (by decide +kernel)).runs,
    ((H 511).2.2.2.2.2.1 .host 0 (porchHostF fun c => { c with inj := some (0, false) }) (by decide +kernel) (by decide +kernel)).runs,
    ((H 511).2.2.2.2.2.2.1 .host 1 (hostUp porchHost) (by decide +kernel) (by decide +kernel)).runs,
    ((H 511).2.2.2.2.2.2.2.1 .host 0x48000 (hostUp porchHost) (by decide +kernel) (by decide +kernel)).runs,
    ((H 511).2.2.2.2.2.2.2.2 .host 0xFFFF (hostUp porchHost) (by decide +kernel) (by decide +kernel)).runs⟩

theorem witness_annex_packets : Sys2Proof.Claims.AnnexPackets →
    Runs (Instr.annexOpen) (annPkt 3 [528482304]) ∧
    Runs (Instr.annexWrite) (annPkt 1 (801411072 :: List.replicate 32 4294967295)) ∧
    Runs (Instr.annexRead 3) (annPkt 0 [1069871104]) ∧
    Runs (Instr.commit) (annPkt 1 [1333788672]) ∧
    Runs (Instr.annexAbort) (annPkt 3 [1602224128]) ∧
    Runs (Instr.annexCapture 0) (annPkt 2 [1870659584]) ∧
    Runs (Instr.annexNop) (annPkt 0 [0]) := fun H =>
  ⟨(H.1 (annPkt 3 [0x1F800000]) 0x1F800000 (pkt [0x1F800000]) [] (by decide) (by decide) (by decide +kernel) (by decide +kernel)).runs,
    (H.2.1 (annPkt 1 (0x2FC49000 :: List.replicate 32 0xFFFFFFFF)) 0x2FC49000 (pkt (0x2FC49000 :: List.replicate 32 0xFFFFFFFF)) [] (by decide) (by decide) (by decide +kernel) (by decide +kernel)).runs,
    (H.2.2.1 3 (annPkt 0 [0x3FC4F000]) 0x3FC4F000 (pkt [0x3FC4F000]) [] (by decide) (by decide) (by decide +kernel) (by decide +kernel)).runs,
    (H.2.2.2.1 (annPkt 1 [0x4F800000]) 0x4F800000 (pkt [0x4F800000]) [] (by decide) (by decide) (by decide +kernel) (by decide +kernel)).runs,
    (H.2.2.2.2.1 (annPkt 3 [0x5F800000]) 0x5F800000 (pkt [0x5F800000]) [] (by decide) (by decide) (by decide +kernel) (by decide +kernel)).runs,
    (H.2.2.2.2.2.1 0 (annPkt 2 [0x6F800000]) 0x6F800000 (pkt [0x6F800000]) [] (by decide) (by decide) (by decide +kernel) (by decide +kernel)).runs,
    (H.2.2.2.2.2.2.1 (annPkt 0 [0]) 0 (pkt [0]) [] (by decide) (by decide) (by decide +kernel) trivial).runs⟩

theorem witness_annex_bad_crc : Sys2Proof.Claims.AnnexBadCrc → Runs (Instr.annexNop) crcBad := fun H =>
  (H crcBad 0 0 [] (by decide) (by decide) (by decide) (by decide) (by decide) (by decide) (by decide +kernel) (by decide +kernel) (by decide +kernel)).runs

theorem witness_annex_port_registers : Sys2Proof.Claims.AnnexPortRegisters →
    Runs (Instr.annexPortClaim Requester.host 5) (hostUp State.reset) ∧
    Runs (Instr.annexPortClaim Requester.host 0) (hostUp annHost) ∧
    Runs (Instr.annexPortClaim Requester.lodge 0) State.reset ∧
    Runs (Instr.resync Requester.host 13) (hostUp annHost) ∧
    Runs (Instr.cfgRdataRead Requester.host) (hostUp annHost) ∧
    Runs (Instr.cfgRdataRead Requester.host) (hostUp annEmpty) ∧
    Runs (Instr.registerWrite Requester.host (Reg.off (rg Fam.annexCfgData)) 9) (hostUp annFull) ∧
    Runs (Instr.registerWrite Requester.host (Reg.off (rg Fam.annexCfgData)) 9) (hostUp annHost) ∧
    Runs (Instr.frameClearEnd) State.reset ∧
    Runs (Instr.wstatClr Requester.host 2147483648) (hostUp State.reset) := fun H =>
  ⟨(H.1 .host 5 (hostUp State.reset) (by decide +kernel) (by decide +kernel)).runs,
    (H.2.1 .host 0 (hostUp annHost) (by decide +kernel) (by decide +kernel)).runs,
    (H.2.2.1 .lodge 0 State.reset (by decide +kernel) (by decide +kernel)).runs,
    (H.2.2.2.1 .host 0xD (hostUp annHost) (by decide +kernel) (by decide +kernel)).runs,
    (H.2.2.2.2.1 .host (hostUp annHost) 7 [] (by decide) (by decide) (by decide +kernel) (by decide)).runs,
    (H.2.2.2.2.2.1 .host (hostUp annEmpty) (by decide) (by decide) (by decide +kernel) (by decide)).runs,
    (H.2.2.2.2.2.2.1 .host 9 (hostUp annFull) (by decide) (by decide) (by decide +kernel)).runs,
    (H.2.2.2.2.2.2.2.1 .host 9 (hostUp annHost) (by decide +kernel) (by decide +kernel)).runs,
    (H.2.2.2.2.2.2.2.2.1 State.reset (by decide) (by decide) trivial).runs,
    (H.2.2.2.2.2.2.2.2.2 .host 0x80000000 (hostUp State.reset) (by decide +kernel) (by decide)).runs⟩

theorem witness_annex_image_loads : Sys2Proof.Claims.AnnexImageLoads →
    Runs (Instr.annexImageLoad (Requester.seq 3) 1) State.reset ∧
    Runs (Instr.annexImageLoadEnd) annMis ∧
    Runs (Instr.annexImageLoadEnd) annImg := fun H =>
  ⟨(H.1 3 (.seq 3) 1 State.reset (by decide +kernel) (by decide +kernel)).runs,
    ((H.2 annMis 3 [] (by decide) (by decide) (by decide)).1 (by decide) (by decide +kernel)).runs,
    (((H.2 annImg 0 [] (by decide) (by decide) (by decide)).2 annImg annImg annHd annAll annFed (by decide +kernel) (by decide +kernel) (by decide +kernel) rfl (by decide +kernel) (by decide +kernel) (by decide +kernel) (by decide +kernel) rfl rfl (by decide +kernel) (by decide +kernel) (by decide +kernel)).1).runs⟩

theorem witness_annex_windows : Obligations.AnnexWindows →
    Runs (Instr.annexWindowRequest) (annWin 2 (let __src := winLoad; { who := __src.who, region := __src.region, offset := __src.offset, size := __src.size, data := __src.data, dead := __src.dead })) ∧
    Runs (Instr.annexWindowRequest) (annSt 2) ∧
    Runs (Instr.annexWindowRequest) (annSt 0) ∧
    Runs (Instr.annexWindowAnswer 31 4294967295 false false) annAns ∧
    Runs (Instr.annexWindowAnswer 31 0 true true) annOwed ∧
    Runs (Instr.annexWindowTimeout 31) (annWin 2 (let __src := winStore; { who := __src.who, region := __src.region, offset := __src.offset, size := __src.size, data := __src.data, reached := true, dead := __src.dead })) := fun H =>
  ⟨(H.1 [] { winLoad with reached := false } [] 0 (annWin 2 { winLoad with reached := false }) (by decide) (by decide) (by decide +kernel)).runs,
    (H.2.1 [] winStore [] 0 winBuf [] (annSt 2) (by decide) (by decide) (by decide +kernel)).runs,
    (H.2.2.1 [] winStore [] 0 winBuf [] (annSt 0) (by decide) (by decide) (by decide +kernel)).runs,
    (H.2.2.2.1 31 0xFFFFFFFF false [] winLoad [] 0 annLoad annAns (by decide) (by decide) (by decide +kernel) (by decide) (by decide) (by decide) (by decide) (by decide) (by decide) (by decide) (by decide) (by decide) (by decide) (by decide) (by decide)).runs,
    (H.2.2.2.2.1 31 0 true annOwed (by decide) (by decide) (by decide +kernel)).runs,
    (H.2.2.2.2.2 31 [] { winStore with reached := true } [] 0 (annWin 2 { winStore with reached := true }) (by decide) (by decide) (by decide +kernel)).runs⟩

theorem witness_count_is_stepped_and_read_1 : Sys2Proof.Claims.CountIsSteppedAndRead →
    Runs (Instr.step (Requester.seq 0) 8) fireNo ∧
    Runs (Instr.step (Requester.seq 0) 10) State.reset ∧
    (State.countTick stpDue).mantel.stepDue = false ∧
    (State.countTick stpDue).count = BitVec.ofNat 64 (BitVec.toNat (State.reg stpDue (rg Fam.mantelSteplo)) + 2 ^ 32 * BitVec.toNat (State.reg stpDue (rg Fam.mantelStephi))) ∧
    (State.countTick stpDue).mantel.pulses = [] ∧
    State.countTick State.reset = { State.reset with count := State.reset.count + 1 } ∧
    (State.countTick (State.setF follower (rg Fam.mantelSync) F.mantelSync_ERR 9) = (fun e u => have x := rg Fam.mantelSync; have u := State.setF u x F.mantelSync_ERR (Int.toNat (e % 65536)); let inside := Int.natAbs e ≤ State.getF (State.setF follower (rg Fam.mantelSync) F.mantelSync_ERR 9) (rg Fam.mantelSynccfg) F.mantelSynccfg_ALIMIT; if inside ∧ State.flag (State.setF follower (rg Fam.mantelSync) F.mantelSync_ERR 9) x F.mantelSync_ALIGNED = false then State.setF (State.setF u x F.mantelSync_ALIGNED 1) x F.mantelSync_ALGN 1 else if ¬inside ∧ State.flag (State.setF follower (rg Fam.mantelSync) F.mantelSync_ERR 9) x F.mantelSync_ALIGNED = true then State.setF (State.setF u x F.mantelSync_ALIGNED 0) x F.mantelSync_LOST 1 else u) (BitVec.toInt (BitVec.ofNat 16 (State.getF (State.setF follower (rg Fam.mantelSync) F.mantelSync_ERR 9) (rg Fam.mantelSync) F.mantelSync_ERR)) - 16) (putMantel (State.setF follower (rg Fam.mantelSync) F.mantelSync_ERR 9) fun m => { m with slewAt := (State.setF follower (rg Fam.mantelSync) F.mantelSync_ERR 9).ns })) ∧
    (State.countTick (State.setF follower (rg Fam.mantelSync) F.mantelSync_ERR 65527) = { ((fun e u => have x := rg Fam.mantelSync; have u := State.setF u x F.mantelSync_ERR (Int.toNat (e % 65536)); let inside := Int.natAbs e ≤ State.getF (State.setF follower (rg Fam.mantelSync) F.mantelSync_ERR 65527) (rg Fam.mantelSynccfg) F.mantelSynccfg_ALIMIT; if inside ∧ State.flag (State.setF follower (rg Fam.mantelSync) F.mantelSync_ERR 65527) x F.mantelSync_ALIGNED = false then State.setF (State.setF u x F.mantelSync_ALIGNED 1) x F.mantelSync_ALGN 1 else if ¬inside ∧ State.flag (State.setF follower (rg Fam.mantelSync) F.mantelSync_ERR 65527) x F.mantelSync_ALIGNED = true then State.setF (State.setF u x F.mantelSync_ALIGNED 0) x F.mantelSync_LOST 1 else u) (BitVec.toInt (BitVec.ofNat 16 (State.getF (State.setF follower (rg Fam.mantelSync) F.mantelSync_ERR 65527) (rg Fam.mantelSync) F.mantelSync_ERR)) + 16) (putMantel (State.setF follower (rg Fam.mantelSync) F.mantelSync_ERR 65527) fun m => { m with slewAt := (State.setF follower (rg Fam.mantelSync) F.mantelSync_ERR 65527).ns })) with count := (State.setF follower (rg Fam.mantelSync) F.mantelSync_ERR 65527).count + 2 }) ∧
    State.countTick (State.setF follower (rg Fam.mantelSync) F.mantelSync_ERR 8) = { (State.setF follower (rg Fam.mantelSync) F.mantelSync_ERR 8) with count := (State.setF follower (rg Fam.mantelSync) F.mantelSync_ERR 8).count + 1 } ∧
    Runs (Instr.syncTimeout) follower := fun H =>
  ⟨(H.1 (.seq 0) 8 fireNo (by decide +kernel) (by decide) (by decide)).runs,
    (H.1 (.seq 0) 0x0A State.reset (by decide +kernel) (by decide) (by decide)).runs,
    (H.2.1 stpDue (by decide) (by decide +kernel)).1,
    (H.2.1 stpDue (by decide) (by decide +kernel)).2.1,
    (H.2.1 stpDue (by decide) (by decide +kernel)).2.2.2.2.1,
    H.2.2.1 State.reset (by decide) (by decide +kernel),
    (H.2.2.2.1 (follower.setF (rg .mantelSync) F.mantelSync_ERR 9) (by decide) (by decide +kernel)).1 ⟨(by decide +kernel), (by decide +kernel)⟩ (by decide +kernel),
    (H.2.2.2.1 (follower.setF (rg .mantelSync) F.mantelSync_ERR 0xFFF7) (by decide) (by decide +kernel)).2.1 ⟨(by decide +kernel), (by decide +kernel)⟩ (by decide +kernel),
    (H.2.2.2.1 (follower.setF (rg .mantelSync) F.mantelSync_ERR 8) (by decide) (by decide +kernel)).2.2 (Or.inr ⟨(by decide +kernel), (by decide +kernel)⟩),
    (H.2.2.2.2.1 0 follower (by decide) (by decide)).runs⟩

theorem witness_count_is_stepped_and_read_2 : Sys2Proof.Claims.CountIsSteppedAndRead →
    Runs (Instr.countLowRead (Requester.seq 3) 10) State.reset ∧
    (sparseGet shadowDefault { putMantel State.reset (fun m => { m with shadow := sparseSet shadowDefault m.shadow (16 * reqCode (Requester.seq 3) + 10) (State.pairWords State.reset 10).2 }) with answer := some (Answer.data (BitVec.toNat (State.pairWords State.reset 10).1)) }.mantel.shadow (16 * reqCode (Requester.seq 3) + 10) = (State.pairWords State.reset 10).2) := fun H =>
  ⟨((H.2.2.2.2.2 (.seq 3) 10 State.reset (by decide) (by decide)).1).runs,
    (H.2.2.2.2.2 (.seq 3) 10 State.reset (by decide) (by decide)).2⟩

theorem witness_entries_are_armed_and_disarmed : Sys2Proof.Claims.EntriesAreArmedAndDisarmed →
    Runs (Instr.arm Requester.host 255 13) (hostUp arm255) ∧
    Runs (Instr.arm (Requester.seq 3) 0 127244) State.reset ∧
    Runs (Instr.arm (Requester.seq 3) 0 12) State.reset ∧
    Runs (Instr.arm (Requester.seq 3) 0 12) latePer ∧
    Runs (Instr.arm (Requester.seq 3) 0 12) lateSkip ∧
    Runs (Instr.disarm Requester.host 255 29) (hostUp arm255) ∧
    Runs (Instr.disarm (Requester.seq 0) 0 17) fireEv ∧
    Runs (.gstop .host 0x80) (hostUp manHost) := fun H =>
  ⟨(((H.1 255 .host 0x0D (hostUp arm255) (by decide +kernel) (by decide) (Or.inl (by decide +kernel))).1 (by decide) (by decide) (by decide)).1 (by decide)).runs,
    (((H.1 0 (.seq 3) 0x1F10C State.reset (by decide +kernel) (by decide) (Or.inl (by decide +kernel))).1 (by decide) (by decide) (by decide)).2.1 (by decide +kernel) (by decide +kernel)).runs,
    (((H.1 0 (.seq 3) 0x0C State.reset (by decide +kernel) (by decide) (Or.inl (by decide +kernel))).1 (by decide) (by decide) (by decide)).2.2.1 (by decide +kernel) (by decide +kernel) (by decide +kernel)).runs,
    ((((H.1 0 (.seq 3) 0x0C latePer (by decide +kernel) (by decide) (Or.inl (by decide +kernel))).1 (by decide) (by decide) (by decide)).2.2.2 (by decide +kernel) (by decide +kernel) (by decide)).1 (by decide) (by decide)).runs,
    ((((H.1 0 (.seq 3) 0x0C lateSkip (by decide +kernel) (by decide) (Or.inl (by decide +kernel))).1 (by decide) (by decide) (by decide)).2.2.2 (by decide +kernel) (by decide +kernel) (by decide)).2 (Or.inl (by decide +kernel))).runs,
    (((H.1 255 .host 0x1D (hostUp arm255) (by decide +kernel) (by decide) (Or.inl (by decide +kernel))).2 (by decide)).1 (Or.inl (by decide +kernel))).runs,
    (((H.1 0 (.seq 0) 0x11 fireEv (by decide +kernel) (by decide) (Or.inr (by decide +kernel))).2 (by decide)).2 { armed0 with action := 5 } ⟨rfl, ⟨(by decide +kernel), (fun _ h => nomatch (show (none : Option Nat) = some _ from h))⟩, (by decide +kernel), (fun j hj => (Fin.not_lt_zero j hj).elim), (by decide +kernel)⟩ (by decide) (by decide) rfl).runs,
    Exists.elim (H.2 .host 0x80 (hostUp manHost) (by decide +kernel) (by decide +kernel)) fun _ h => h.1.runs⟩

theorem witness_entries_fire_1 : Sys2Proof.Claims.EntriesFire →
    Runs (Instr.launchFire 0) (fireA (armedBy 0 0)) ∧
    Runs (Instr.launchFire 0) (fireA (armedBy 1 31)) ∧
    Runs (Instr.launchFire 0) (fireA (armedBy 2 327695)) ∧
    Runs (Instr.launchFire 0) (fireA (armedBy 1 30)) ∧
    Runs (Instr.launchFire 0) (fireOwn (armedBy 3 16389)) ∧
    Runs (Instr.launchFire 0) (fireA (armedBy 5 0)) ∧
    Runs (Instr.launchFire 0) (fireOwn (armedBy 6 128)) ∧
    Runs (Instr.launchFire 0) (fireA (armedBy 6 128)) ∧
    Runs (Instr.launchFire 0) (fireOwn (armedBy 7 47)) ∧
    Runs (Instr.launchFire 0) (fireA (armedBy 7 47)) := fun H =>
  ⟨((H.1 0 (armedBy 0 0) (fireA (armedBy 0 0)) (by decide) (by decide) ⟨rfl, ⟨(by decide +kernel), (fun _ h => nomatch (show (none : Option Nat) = some _ from h))⟩, (by decide +kernel), (fun j hj => (Fin.not_lt_zero j hj).elim), (by decide +kernel)⟩ (Or.inl rfl)).1 (by decide)).runs,
    ((H.1 0 (armedBy 1 0x1F) (fireA (armedBy 1 0x1F)) (by decide) (by decide) ⟨rfl, ⟨(by decide +kernel), (fun _ h => nomatch (show (none : Option Nat) = some _ from h))⟩, (by decide +kernel), (fun j hj => (Fin.not_lt_zero j hj).elim), (by decide +kernel)⟩ (Or.inl rfl)).2.1 (by decide) ⟨(by decide +kernel), (by decide +kernel)⟩).runs,
    ((H.1 0 (armedBy 2 0x5000F) (fireA (armedBy 2 0x5000F)) (by decide) (by decide) ⟨rfl, ⟨(by decide +kernel), (fun _ h => nomatch (show (none : Option Nat) = some _ from h))⟩, (by decide +kernel), (fun j hj => (Fin.not_lt_zero j hj).elim), (by decide +kernel)⟩ (Or.inl rfl)).2.2.1 (by decide) ⟨(by decide +kernel), (by decide +kernel)⟩).runs,
    ((H.1 0 (armedBy 1 0x1E) (fireA (armedBy 1 0x1E)) (by decide) (by decide) ⟨rfl, ⟨(by decide +kernel), (fun _ h => nomatch (show (none : Option Nat) = some _ from h))⟩, (by decide +kernel), (fun j hj => (Fin.not_lt_zero j hj).elim), (by decide +kernel)⟩ (Or.inl rfl)).2.2.2.1 (Or.inl (by decide)) (by decide +kernel) (by decide +kernel)).runs,
    ((H.1 0 (armedBy 3 0x4005) (fireOwn (armedBy 3 0x4005)) (by decide) (by decide) ⟨rfl, ⟨(by decide +kernel), (fun _ h => nomatch (show (none : Option Nat) = some _ from h))⟩, (by decide +kernel), (fun j hj => (Fin.not_lt_zero j hj).elim), (by decide +kernel)⟩ (Or.inl rfl)).2.2.2.2.1 5 (by decide) (by decide) (by decide +kernel) (by decide +kernel) (by decide +kernel) (by decide +kernel)).runs,
    ((H.1 0 (armedBy 5 0) (fireA (armedBy 5 0)) (by decide) (by decide) ⟨rfl, ⟨(by decide +kernel), (fun _ h => nomatch (show (none : Option Nat) = some _ from h))⟩, (by decide +kernel), (fun j hj => (Fin.not_lt_zero j hj).elim), (by decide +kernel)⟩ (Or.inl rfl)).2.2.2.2.2.1 (by decide)).runs,
    (((H.1 0 (armedBy 6 0x80) (fireOwn (armedBy 6 0x80)) (by decide) (by decide) ⟨rfl, ⟨(by decide +kernel), (fun _ h => nomatch (show (none : Option Nat) = some _ from h))⟩, (by decide +kernel), (fun j hj => (Fin.not_lt_zero j hj).elim), (by decide +kernel)⟩ (Or.inl rfl)).2.2.2.2.2.2.1 7 (by decide) (by decide) (by decide +kernel)).1 (by decide +kernel)).runs,
    (((H.1 0 (armedBy 6 0x80) (fireA (armedBy 6 0x80)) (by decide) (by decide) ⟨rfl, ⟨(by decide +kernel), (fun _ h => nomatch (show (none : Option Nat) = some _ from h))⟩, (by decide +kernel), (fun j hj => (Fin.not_lt_zero j hj).elim), (by decide +kernel)⟩ (Or.inl rfl)).2.2.2.2.2.2.1 7 (by decide) (by decide) (by decide +kernel)).2 (by decide +kernel)).runs,
    (((H.1 0 (armedBy 7 47) (fireOwn (armedBy 7 47)) (by decide) (by decide) ⟨rfl, ⟨(by decide +kernel), (fun _ h => nomatch (show (none : Option Nat) = some _ from h))⟩, (by decide +kernel), (fun j hj => (Fin.not_lt_zero j hj).elim), (by decide +kernel)⟩ (Or.inl rfl)).2.2.2.2.2.2.2.1 47 (by decide) (by decide) (by decide +kernel)).1 (by decide +kernel)).runs,
    (((H.1 0 (armedBy 7 47) (fireA (armedBy 7 47)) (by decide) (by decide) ⟨rfl, ⟨(by decide +kernel), (fun _ h => nomatch (show (none : Option Nat) = some _ from h))⟩, (by decide +kernel), (fun j hj => (Fin.not_lt_zero j hj).elim), (by decide +kernel)⟩ (Or.inl rfl)).2.2.2.2.2.2.2.1 47 (by decide) (by decide) (by decide +kernel)).2 (by decide +kernel)).runs⟩

theorem witness_entries_fire_2 : Sys2Proof.Claims.EntriesFire →
    Runs (Instr.launchFire 0) (fireA (armedBy 8 4660)) ∧
    Runs (Instr.pulseEnd 15) pulse9 := fun H =>
  ⟨((H.1 0 (armedBy 8 0x1234) (fireA (armedBy 8 0x1234)) (by decide) (by decide) ⟨rfl, ⟨(by decide +kernel), (fun _ h => nomatch (show (none : Option Nat) = some _ from h))⟩, (by decide +kernel), (fun j hj => (Fin.not_lt_zero j hj).elim), (by decide +kernel)⟩ (Or.inl rfl)).2.2.2.2.2.2.2.2 (by decide)).runs,
    (H.2 15 [] [] 0 9 pulse9 (by decide) ⟨rfl, by decide, by decide, Or.inr (fun j hj => (Fin.not_lt_zero j hj).elim)⟩).runs⟩

theorem witness_mantel_claims_follow_the_rule : Sys2Proof.Claims.MantelClaimsFollowTheRule →
    Runs (Instr.mantelClaimWrite Requester.host ⟨256 + 15, by decide⟩ 5) (hostUp State.reset) ∧
    Runs (Instr.mantelClaimWrite Requester.host ⟨256 + 15, by decide⟩ 0) (hostUp manHost) ∧
    Runs (Instr.mantelClaimWrite Requester.host ⟨256 + 0, by decide⟩ 1) (hostUp State.reset) ∧
    Runs (Instr.mantelClaimWrite Requester.host ⟨272 + 7, by decide⟩ 5) (hostUp State.reset) ∧
    Runs (Instr.mantelClaimWrite Requester.host ⟨272 + 7, by decide⟩ 0) (hostUp manHost) ∧
    Runs (Instr.mantelClaimWrite Requester.host ⟨280 + 3, by decide⟩ 0) (hostUp manHost) ∧
    Runs (Instr.mantelClaimWrite Requester.lodge ⟨280 + 3, by decide⟩ 5) State.reset := fun H =>
  ⟨((H.1 15).1 .host 5 (hostUp State.reset) (by decide +kernel) (by decide +kernel)).runs,
    ((H.1 15).2.1 .host 0 (hostUp manHost) (by decide +kernel) (by decide +kernel)).runs,
    ((H.1 0).2.2 .host 1 (hostUp State.reset) (by decide +kernel) (by decide +kernel)).runs,
    ((H.2.1 7).1 .host 5 (hostUp State.reset) (by decide +kernel) (by decide +kernel)).runs,
    ((H.2.1 7).2.1 .host 0 (hostUp manHost) (by decide +kernel) (by decide +kernel)).runs,
    ((H.2.2 3).2.1 .host 0 (hostUp manHost) (by decide +kernel) (by decide +kernel)).runs,
    ((H.2.2 3).2.2 .lodge 5 State.reset (by decide +kernel) (by decide +kernel)).runs⟩

theorem witness_encoders_and_line_clocks : Obligations.EncodersAndLineClocks →
    Runs (Instr.encoderEdge 0 glitch glitch) (State.setF State.reset (rg Fam.encCtl) F.encCtl_FILT 5) ∧
    Runs (Instr.encoderEdge 0 (lv true) (lv true)) State.reset ∧
    Runs (Instr.encoderEdge 0 (lv true) (lv false)) State.reset ∧
    Runs (Instr.encoderEdge 3 (lv true) (lv false)) lcOn ∧
    Runs (Instr.encoderZ 3 (List.replicate 20 true)) State.reset ∧
    Runs (Instr.smoothedLineEvent 3 false) lcSmooth ∧
    Runs (Instr.lineClockStall 3) lcStalled := fun H =>
  ⟨(((H 0).1 glitch glitch true true).1 (State.reset.setF (rg .encCtl 0) F.encCtl_FILT 5) (by decide) (by decide) ⟨(by decide +kernel), (by decide +kernel)⟩).runs,
    (((H 0).1 (lv true) (lv true) true true).2.1 State.reset (by decide) (by decide) (by decide +kernel)).runs,
    (((H 0).1 (lv true) (lv false) true false).2.2.1 State.reset (by decide) (by decide) ⟨(by decide +kernel), (by decide +kernel), (by decide +kernel), (fun _ h => nomatch (show (none : Option Nat) = some _ from h)), (by decide +kernel)⟩).runs,
    (((H 3).1 (lv true) (lv false) true false).2.2.2 lcOn (by decide) (by decide) ⟨(by decide +kernel), (by decide +kernel), (by decide +kernel), (by decide), (fun _ h => nomatch (show (none : Option Nat) = some _ from h)), (by decide +kernel), (by decide +kernel), (by decide +kernel), (by decide +kernel), (by decide), (by decide), (by decide)⟩).runs,
    ((H 3).2.1 (List.replicate 20 true) State.reset (by decide) (by decide) (by decide +kernel)).runs,
    ((H 3).2.2.1 0 false lcSmooth (by decide) (by decide) ⟨(by decide +kernel), (by decide +kernel), (by decide +kernel), rfl, (by decide +kernel), (by decide +kernel), (fun _ h => nomatch (show (none : Option Nat) = some _ from h)), (by decide +kernel)⟩).runs,
    ((H 3).2.2.2 0 lcStalled (by decide) (by decide) (by decide +kernel)).runs⟩

theorem witness_link_ports_change_state : Sys2Proof.Claims.LinkPortsChangeState →
    Runs (Instr.portEnable Requester.host 5 1) (hostUp State.reset) ∧
    Runs (Instr.portEnable Requester.host 5 0) (hostUp (port5 3 3)) ∧
    Runs (Instr.retrain Requester.host 5 9) (hostUp (port5 2 3)) ∧
    (Runs (Instr.trainingRetry 5) ({ (putPort (port5 1 1) 5 fun p => { p with failed := some 7 }) with ns := 1000007 })) ∧
    Runs (Instr.trainingRetry 5) ({ (port5 1 1) with ns := 1100001 }) ∧
    Runs (Instr.trainingRetry 5) ({ (port5 1 1) with ns := 100000 }) ∧
    Runs (Instr.portDown 5) (port5 3 3) ∧
    Runs (Instr.hello (f5 hello5) (BitVec.ofNat 3 0) 9 true true) (port5 1 1) ∧
    Runs (Instr.hello (f5 hello5) (BitVec.ofNat 3 0) 9 true true) (helloed (port5 1 1)) ∧
    Runs (Instr.hello (f5 hello5) (BitVec.ofNat 3 0) 9 true true) (State.setF fab (rg Fam.kpStat 5) F.kpStat_STATE 2) := fun H =>
  ⟨((H 5).1 .host 1 (hostUp State.reset) (by decide +kernel) (by decide +kernel)).runs,
    ((H 5).2.1 .host 0 (hostUp (port5 3 3)) (by decide +kernel) (by decide +kernel)).runs,
    ((H 5).2.2.1 .host 9 (hostUp (port5 2 3)) (by decide +kernel) (by decide +kernel)).runs,
    ((H 5).2.2.2.1 7 { putPort (port5 1 1) 5 (fun p => { p with failed := some 7 }) with ns := 1000007 } (by decide) (by decide +kernel)).runs,
    ((H 5).2.2.2.2.1 { port5 1 1 with ns := 1100001 } (by decide) (by decide +kernel)).runs,
    ((H 5).2.2.2.2.2.1 { port5 1 1 with ns := 100000 } (by decide) (by decide +kernel)).runs,
    ((H 5).2.2.2.2.2.2.1 (port5 3 3) (by decide) (by decide +kernel)).runs,
    (((H 5).2.2.2.2.2.2.2 0 9 true true).1 (f5 hello5) h5 (port5 1 1) (by decide) (by decide +kernel) (by decide +kernel)).runs,
    (((H 5).2.2.2.2.2.2.2 0 9 true true).2.1 (f5 hello5) h5 (helloed (port5 1 1)) (by decide) (by decide +kernel) (by decide +kernel)).runs,
    (((H 5).2.2.2.2.2.2.2 0 9 true true).2.2 (f5 hello5) h5 (fab.setF (rg .kpStat 5) F.kpStat_STATE 2) (by decide) (by decide +kernel) (by decide +kernel)).runs⟩

theorem witness_link_measures_and_aligns : Sys2Proof.Claims.LinkMeasuresAndAligns →
    Runs (Instr.dlygo Requester.host 5 5) (hostUp (port5 2 1)) ∧
    Runs (.dlyreq (f5 .dlyreq)) (port5 1 1) ∧
    Runs (Instr.dlyrsp (f5 (LinkBody.dlyrsp 74565)) 74565 15) fabMeas ∧
    Runs (.syncFrame sync5 5 15 3) fabUp ∧
    Runs (Instr.syncSend) fabDown := fun H =>
  ⟨(H.1 5 .host 5 (hostUp (port5 2 1)) (by decide +kernel) (by decide +kernel)).runs,
    Exists.elim (H.2.1 (f5 .dlyreq) h5 (port5 1 1) (by decide) (by decide +kernel)) fun _ h => h.runs,
    (H.2.2.1 0x12345 15 (f5 (.dlyrsp 0x12345)) h5 fabMeas (by decide) (by decide +kernel) (by decide +kernel)).runs,
    Exists.elim (H.2.2.2.1 5 15 3 sync5 h5 fabUp (by decide) (by decide +kernel) (by decide +kernel) (by decide +kernel) (by decide +kernel)) fun _ h => Exists.elim h fun _ h => h.1.runs,
    (H.2.2.2.2 fabDown (by decide) (by decide +kernel)).runs⟩

theorem witness_link_frames_are_replayed_1 : Obligations.LinkFramesAreReplayed →
    Runs (Instr.dlyreq f5bad) fab ∧
    Runs (Instr.dlyreq (f5seq 9 0 false)) fab ∧
    Runs (Instr.dlyreq (f5seq 9 3 true)) (sent5 7) ∧
    Runs (Instr.nak 5 (idleOf 2 false true (Vector.replicate 5 0))) (sent5 6) ∧
    Runs (Instr.nak 5 (idleOf 3 true true (Vector.replicate 5 0))) (sent5 7) ∧
    Runs (Instr.nak 5 (idleOf 2 false true (Vector.replicate 5 0))) (sent5 7) ∧
    Runs (Instr.idleBlock 5 1 { } (idleOf 3 true false (Vector.replicate 5 255))) (sent5 7) ∧
    Runs (Instr.idleBlock 5 1 { headers := 64 } (idleOf 3 false false (Vector.replicate 5 0))) (port5 1 1) ∧
    Runs (Instr.idleBlock 5 1 { skew := some 4 } (idleOf 3 false false (Vector.replicate 5 0))) (trained true true) ∧
    Runs (Instr.replayTimeout 5) (sent5 6) := fun H =>
  ⟨((H.1 f5bad).1 fab (by decide) (by decide +kernel)).runs,
    ((H.1 (f5seq 9 0 false)).2.1 9 h5 fab (by decide) (by decide +kernel)).runs,
    ((H.1 (f5seq 9 3 true)).2.2 9 3 h5 [] (3, ⟨{}, .dlyreq⟩, 0) [] (sent5 7) (by decide) ⟨(by decide +kernel), (by decide +kernel), (by decide +kernel), rfl, (by decide +kernel), (by decide +kernel)⟩).runs,
    (((H.2 5).1 2).1 (sent5 6) (by decide) (by decide +kernel)).runs,
    (((H.2 5).1 3).2.1 [] (3, ⟨{}, .dlyreq⟩, 0) [] (sent5 7) (by decide) ⟨(by decide +kernel), rfl, (by decide +kernel), (by decide +kernel)⟩).runs,
    (((H.2 5).1 2).2.2.1 (sent5 7) (by decide) (by decide +kernel)).runs,
    (((H.2 5).1 3).2.2.2.1 (Vector.replicate 5 255) 1 [] (3, ⟨{}, .dlyreq⟩, 0) [] (sent5 7) (by decide) ⟨(by decide +kernel), rfl, (by decide +kernel), (by decide +kernel)⟩).runs,
    (((H.2 5).1 3).2.2.2.2.1 1 64 (by decide) (port5 1 1) (by decide) (by decide +kernel)).runs,
    (((H.2 5).1 3).2.2.2.2.2 1 4 (trained true true) (by decide) (by decide +kernel)).runs,
    ((H.2 5).2.1 (3, ⟨{}, .dlyreq⟩, 0) [] (sent5 6) (by decide) ⟨rfl, (by decide +kernel), (by decide +kernel)⟩).runs⟩

theorem witness_link_frames_are_replayed_2 : Obligations.LinkFramesAreReplayed → Runs (Instr.pErrClr Requester.host 5 2147483648) (hostUp State.reset) := fun H =>
  ((H.2 5).2.2 .host 0x80000000 (hostUp State.reset) (by decide +kernel) (by decide +kernel)).runs

theorem witness_bulk_requests_are_served : Sys2Proof.Claims.BulkRequestsAreServed →
    Runs (Instr.bulkRead (f5 (LinkBody.bulk 0 4095 256 0 0 0)) 4095 255 0) fab ∧
    Runs (Instr.bulkRead (f5 (LinkBody.bulk 0 4095 256 0 268697344 0)) 4095 255 268697344) fab ∧
    Runs (Instr.bulkWrite (f5 (LinkBody.bulk 1 0 1 0 0 7)) 0 0 0 7 []) fab ∧
    Runs (Instr.bulkWrite (f5 (LinkBody.bulk 1 0 1 0 536870912 7)) 0 0 536870912 7 []) fab ∧
    Runs (Instr.attest (f5 (LinkBody.bulk 4 0 64 0 0 5)) 0 5) fab ∧
    Runs (Instr.attest (f5 (LinkBody.bulk 4 0 64 0 0 5)) 0 5) attested := fun H =>
  ⟨(((H 4095 5 (f5 (.bulk 0 4095 256 0 0 0)) h5 (.bulk 0 4095 256 0 0 0) fab (by decide) (by decide +kernel) (by decide +kernel) (by decide +kernel)).1 255 0).1 rfl |>.1 (by decide +kernel)).runs,
    (((H 4095 5 (f5 (.bulk 0 4095 256 0 0x1003FF00 0)) h5 (.bulk 0 4095 256 0 0x1003FF00 0) fab (by decide) (by decide +kernel) (by decide +kernel) (by decide +kernel)).1 255 0x1003FF00).1 rfl |>.2 (Or.inl (by decide +kernel)) (by decide +kernel) (by decide +kernel) rfl).runs,
    (((H 0 5 (f5 (.bulk 1 0 1 0 0 7)) h5 (.bulk 1 0 1 0 0 7) fab (by decide) (by decide +kernel) (by decide +kernel) (by decide +kernel)).1 0 0).2 7 rfl |>.1 (by decide +kernel)).runs,
    (((H 0 5 (f5 (.bulk 1 0 1 0 0x20000000 7)) h5 (.bulk 1 0 1 0 0x20000000 7) fab (by decide) (by decide +kernel) (by decide +kernel) (by decide +kernel)).1 0 0x20000000).2 7 rfl |>.2 (Or.inr (by decide +kernel)) (by decide +kernel) (by decide +kernel) (by decide +kernel) rfl).runs,
    (((H 0 5 (f5 (.bulk 4 0 64 0 0 5)) h5 (.bulk 4 0 64 0 0 5) fab (by decide) (by decide +kernel) (by decide +kernel) (by decide +kernel)).2 5 rfl).1 (fun _ h => absurd h List.not_mem_nil)).runs,
    (((H 0 5 (f5 (.bulk 4 0 64 0 0 5)) h5 (.bulk 4 0 64 0 0 5) attested (by decide) (by decide +kernel) (by decide +kernel) (by decide +kernel)).2 5 rfl).2 0 {} 0 0 (List.mem_singleton.2 rfl) (by decide +kernel)).runs⟩

theorem witness_link_requests_end_1 : Sys2Proof.Claims.LinkRequestsEnd →
    Runs (Instr.rdrsp (f5 (LinkBody.bulk 2 4095 4 0 2147483648 67305985)) 4095 0 67305985) waitLoad ∧
    Runs (Instr.wrrsp (f5 (LinkBody.bulk 3 4095 4 0 2147483648 0)) 4095 0) (wait9 (ReqWho.store 0)) ∧
    Runs (.wrrsp (f5 (.bulk 3 4095 4 1 0x80000000 0)) 4095 1) (wait9 (.store 0)) ∧
    Runs (Instr.wrrsp (f5 (LinkBody.bulk 3 4095 4 2 2147483648 0)) 4095 2) (wait9 (ReqWho.store 0)) ∧
    Runs (.attrsp (f5 (.bulk 5 4095 4 1 0x80000000 0)) 4095 1 0x80000000 0) attBusy ∧
    Runs (Instr.attrsp (f5 (LinkBody.bulk 5 4095 4 0 0 67305985)) 4095 0 0 67305985) (attQ 8) ∧
    Runs (Instr.attrsp (f5 (LinkBody.bulk 5 4095 4 0 0 67305985)) 4095 0 0 67305985) (attQ 4) ∧
    Runs (Instr.wrrsp (f5 (LinkBody.bulk 3 0 4 0 2147483648 0)) 0 0) fab ∧
    Runs (.bulkTimeout 4095) (wait9 (.store 0)) ∧
    Runs (.attestTimeout 4095) attBusy := fun H =>
  ⟨(((H.1 (f5 (.bulk 2 4095 4 0 0x80000000 0x04030201)) h5 4095 0 0x80000000 2 0x04030201 [] [] (lnkReq (.load 0)) 0 waitLoad (by decide) (by decide +kernel) (by decide +kernel)).1 ⟨rfl, (by decide +kernel), (by decide +kernel), (by decide +kernel)⟩).1 lnkLoad rfl rfl rfl rfl (by decide) (by decide) (by decide) (by decide)).runs,
    ((((H.1 (f5 (.bulk 3 4095 4 0 0x80000000 0)) h5 4095 0 0x80000000 3 0 [] [] (lnkReq (.store 0)) 0 (wait9 (.store 0)) (by decide) (by decide +kernel) (by decide +kernel)).1 ⟨rfl, (by decide +kernel), (by decide +kernel), (by decide +kernel)⟩).2.1 rfl rfl).1 rfl).runs,
    Exists.elim ((((H.1 (f5 (.bulk 3 4095 4 1 0x80000000 0)) h5 4095 1 0x80000000 3 0 [] [] (lnkReq (.store 0)) 0 (wait9 (.store 0)) (by decide) (by decide +kernel) (by decide +kernel)).1 ⟨rfl, (by decide +kernel), (by decide +kernel), (by decide +kernel)⟩).2.1 rfl rfl).2 rfl (by decide +kernel)) fun _ h => h.2.runs,
    (((H.1 (f5 (.bulk 3 4095 4 2 0x80000000 0)) h5 4095 2 0x80000000 3 0 [] [] (lnkReq (.store 0)) 0 (wait9 (.store 0)) (by decide) (by decide +kernel) (by decide +kernel)).1 ⟨rfl, (by decide +kernel), (by decide +kernel), (by decide +kernel)⟩).2.2.1 rfl rfl).runs,
    Exists.elim (((H.1 (f5 (.bulk 5 4095 4 1 0x80000000 0)) h5 4095 1 0x80000000 5 0 [] [] (lnkReq .attest) 0 attBusy (by decide) (by decide +kernel) (by decide +kernel)).1 ⟨rfl, (by decide +kernel), (by decide +kernel), (by decide +kernel)⟩).2.2.2.1 rfl rfl rfl (by decide +kernel)) fun _ h => h.2.runs,
    ((((H.1 (f5 (.bulk 5 4095 4 0 0 0x04030201)) h5 4095 0 0 5 0x04030201 [] [] (lnkReq .attest) 0 (attQ 8) (by decide) (by decide +kernel) (by decide +kernel)).1 ⟨rfl, (by decide +kernel), (by decide +kernel), (by decide +kernel)⟩).2.2.2.2 (attOf 8) rfl rfl rfl rfl (by decide +kernel) (by decide +kernel) rfl rfl).1 (by decide +kernel)).runs,
    ((((H.1 (f5 (.bulk 5 4095 4 0 0 0x04030201)) h5 4095 0 0 5 0x04030201 [] [] (lnkReq .attest) 0 (attQ 4) (by decide) (by decide +kernel) (by decide +kernel)).1 ⟨rfl, (by decide +kernel), (by decide +kernel), (by decide +kernel)⟩).2.2.2.2 (attOf 4) rfl rfl rfl rfl (by decide +kernel) (by decide +kernel) rfl rfl).2 (by decide +kernel)).runs,
    ((H.1 (f5 (.bulk 3 0 4 0 0x80000000 0)) h5 0 0 0x80000000 3 0 [] [] (lnkReq (.store 0)) 0 fab (by decide) (by decide +kernel) (by decide +kernel)).2 rfl (by decide +kernel) (by decide +kernel)).runs,
    Exists.elim ((H.2.1 4095 [] [] (lnkReq (.store 0)) 0 (wait9 (.store 0)) (by decide) ⟨rfl, (by decide +kernel), (by decide +kernel), (by decide +kernel)⟩).1 0 rfl rfl (by decide +kernel) (by decide +kernel)) fun _ h => h.2.runs,
    Exists.elim ((H.2.1 4095 [] [] (lnkReq .attest) 0 attBusy (by decide) ⟨rfl, (by decide +kernel), (by decide +kernel), (by decide +kernel)⟩).2.1 rfl rfl (by decide +kernel) (by decide +kernel)) fun _ h => h.2.runs⟩

theorem witness_link_requests_end_2 : Sys2Proof.Claims.LinkRequestsEnd →
    Runs (Instr.notReadyReissue 4095) waitAgain ∧
    Runs (.managementAccess (.seq 3) 1) mgReady := fun H =>
  ⟨((H.2.1 4095 [] [] againReq 0 waitAgain (by decide) ⟨rfl, (by decide +kernel), (by decide +kernel), (by decide +kernel)⟩).2.2 5 { dst := 9, src := 7, hops := 1 } 0 rfl rfl rfl rfl).runs,
    Exists.elim (H.2.2 (.seq 3) 1 mgReady 5 0 (by decide +kernel) (by decide) (by decide +kernel) (by decide +kernel) (by decide +kernel) (by decide +kernel) (by decide +kernel) (by decide +kernel) (by decide +kernel)) fun _ h => h.1.runs⟩

theorem witness_link_events_are_forwarded : Sys2Proof.Claims.LinkEventsAreForwarded →
    Runs (Instr.userEvent (slotOf 5 (ev5 0))) fabUp ∧
    Runs (Instr.userEvent (slotOf 5 (ev5 0))) evOpen ∧
    Runs (Instr.userEvent (slotOf 5 (ev5 0))) evFull ∧
    Runs (Instr.userEvent ev5bad) fab ∧
    Runs (Instr.distress ev5bad) fab ∧
    (exec (Instr.distress (slotOf 5 (ev5 1))) fabUp = Host.Outcome.next (State.event fabUp fun s => State.eventIn s (slotOf 5 (ev5 1)))) ∧
    State.eventIn fabUp (slotOf 5 (ev5 1)) = { (forwarded fabUp 5 (ev5 1)) with lodgeQ := fabUp.lodgeQ ++ [5] } ∧
    (State.eventIn evOpen (slotOf 5 (ev5 1)) = { (State.setF (putLink (forwarded evOpen 5 (ev5 1)) fun l => { l with evq := l.evq ++ [ev5 1] }) (rg Fam.kpStat 5) F.kpStat_EVQ 1) with lodgeQ := evOpen.lodgeQ ++ [5] }) ∧
    Runs (Instr.eventQueuePop Requester.host) (hostUp evFull) ∧
    Runs (Instr.evstatClr Requester.host 16384) (hostUp evFull) := fun H =>
  ⟨((H.1 5 (ev5 0) fabUp (by decide) (by decide +kernel) (by decide +kernel) (by decide +kernel) (by decide +kernel) (by decide +kernel)).1 (by decide +kernel)).runs,
    ((H.1 5 (ev5 0) evOpen (by decide) (by decide +kernel) (by decide +kernel) (by decide +kernel) (by decide +kernel) (by decide +kernel)).2.1 (by decide +kernel) (by decide +kernel)).runs,
    ((H.1 5 (ev5 0) evFull (by decide) (by decide +kernel) (by decide +kernel) (by decide +kernel) (by decide +kernel) (by decide +kernel)).2.2 (by decide +kernel) (by decide +kernel)).runs,
    ((H.2.1 ev5bad fab (by decide) (by decide +kernel) (by decide +kernel)).1).runs,
    ((H.2.1 ev5bad fab (by decide) (by decide +kernel) (by decide +kernel)).2).runs,
    (H.2.2.1 5 (ev5 1) fabUp (by decide +kernel) (by decide +kernel) (by decide +kernel) (by decide +kernel)).1,
    (H.2.2.1 5 (ev5 1) fabUp (by decide +kernel) (by decide +kernel) (by decide +kernel) (by decide +kernel)).2.1 (by decide +kernel),
    (H.2.2.1 5 (ev5 1) evOpen (by decide +kernel) (by decide +kernel) (by decide +kernel) (by decide +kernel)).2.2 (by decide +kernel) (by decide +kernel),
    (H.2.2.2.1 .host 0 (List.replicate 15 0) (hostUp evFull) (by decide) (by decide) rfl).runs,
    (H.2.2.2.2 .host 0x4000 (hostUp evFull) (by decide +kernel) (by decide +kernel)).runs⟩

theorem witness_system_chimney_rounds : Sys2Proof.Claims.SystemChimneyRounds →
    Runs (Instr.schimIn Requester.host 4026531840) (hostUp fabUp) ∧
    Runs (Instr.schimUp (slotOf 5 (ev5 2))) (State.setF fab (rg Fam.linkTree) F.linkTree_DOWN 32) ∧
    Runs (Instr.schimUp (slotOf 5 (ev5 2))) (roundOf 48 0) ∧
    Runs (Instr.schimUp (slotOf 5 (ev5 2))) (roundOf 32 0) ∧
    Runs (Instr.schimUp (slotOf 5 (ev5 2))) (roundOf 32 15) ∧
    Runs (Instr.schimUp (slotOf 5 (ev5 2))) round2 ∧
    Runs (Instr.schimDown (slotOf 5 (ev5 3))) round1 ∧
    Runs (Instr.schimDown (slotOf 5 (ev5 3))) fabUp ∧
    Runs (Instr.schimTimeout) round1 := fun H =>
  ⟨(H.1 .host 0xF0000000 5 (hostUp fabUp) (by decide +kernel) rfl (by decide +kernel) (by decide +kernel) (by decide +kernel)).runs,
    ((H.2.1 5 (ev5 2)).1 (fab.setF (rg .linkTree) F.linkTree_DOWN 32) (by decide) (by decide +kernel)).runs,
    ((H.2.1 5 (ev5 2)).2.1.1 4 (roundOf 48 0) (by decide) (by decide +kernel)).runs,
    ((H.2.1 5 (ev5 2)).2.1.2.1 0 (roundOf 32 0) (by decide) (by decide +kernel)).runs,
    ((H.2.1 5 (ev5 2)).2.1.2.2 (roundOf 32 15) (by decide) (by decide +kernel)).runs,
    ((H.2.1 5 (ev5 2)).2.2.1 round2 (by decide) (by decide +kernel)).runs,
    ((H.2.1 5 (ev5 3)).2.2.2.1 round1 (by decide) (by decide +kernel)).runs,
    ((H.2.1 5 (ev5 3)).2.2.2.2 fabUp (by decide) (by decide +kernel)).runs,
    (H.2.2 0 round1 (by decide) (by decide +kernel)).runs⟩

theorem witness_seams_and_remote_windows_1 : Obligations.SeamsAndRemoteWindows →
    Runs (Instr.seamEngineClaim Requester.host 2045) (hostUp State.reset) ∧
    Runs (Instr.seamEngineClaim Requester.host 2040) (hostUp seamHost) ∧
    Runs (Instr.seamEngineClaim Requester.host 2041) (hostUp State.reset) ∧
    Runs (Instr.remoteWindowClaim Requester.host 15 1048573) (hostUp seamHost) ∧
    Runs (Instr.remoteWindowClaim Requester.host 15 0) (hostUp seamHost) ∧
    Runs (Instr.remoteWindowClaim Requester.host 0 1) (hostUp seamHost) ∧
    Runs (Instr.seamExchange Requester.host 4093) (hostUp seamBusy) ∧
    Runs (Instr.seamExchange Requester.host 4093) (hostUp seamHost) ∧
    Runs (.seamExchange (.seq 0) 0xFA9) seamSend ∧
    Runs (Instr.seamExchangeDone) seamBusy := fun H =>
  ⟨(H.1 .host 0x7FD (hostUp State.reset) (by decide +kernel) (by decide +kernel)).runs,
    (H.2.1 .host 0x7F8 (hostUp seamHost) (by decide +kernel) (by decide +kernel)).runs,
    (H.2.2.1 .host 0x7F9 (hostUp State.reset) (by decide +kernel) (by decide +kernel)).runs,
    ((H.2.2.2.1 15).1 .host 0xFFFFD (hostUp seamHost) (by decide +kernel) (by decide +kernel)).runs,
    ((H.2.2.2.1 15).2.1 .host 0 (hostUp seamHost) (by decide +kernel) (by decide +kernel)).runs,
    ((H.2.2.2.1 0).2.2 .host 1 (hostUp seamHost) (by decide +kernel) (by decide +kernel)).runs,
    (H.2.2.2.2.1 .host 0xFFD (hostUp seamBusy) (by decide +kernel) (by decide +kernel)).runs,
    (H.2.2.2.2.2.1 .host 0xFFD (hostUp seamHost) (by decide +kernel) (by decide +kernel)).runs,
    Exists.elim (H.2.2.2.2.2.2.1 (.seq 0) 0xFA9 false 5 seamSend (by decide +kernel) (by decide +kernel) (by decide +kernel) (by decide +kernel) (by decide +kernel) (by decide +kernel) (by decide +kernel) (by decide +kernel) (by decide +kernel) (by decide) (by decide +kernel) (by decide +kernel) (by decide +kernel) (by decide +kernel)) fun _ h => h.2.2.runs,
    (H.2.2.2.2.2.2.2.1 seamBusy (by decide) (by decide +kernel)).runs⟩

theorem witness_seams_and_remote_windows_2 : Obligations.SeamsAndRemoteWindows →
    Runs (Instr.seamFrame (f5h h5else (LinkBody.seam 0 false [0])) 0 false [0] 0) seamHost ∧
    Runs (Instr.seamFrame (f5 (LinkBody.seam 4063 true [18446744073709551615])) 4063 true [18446744073709551615] 4294967294) seamWest := fun H =>
  ⟨((H.2.2.2.2.2.2.2.2 0 false 0 0).1 (f5h h5else (.seam 0 false [0])) h5else seamHost (by decide) (by decide +kernel) (by decide +kernel)).runs,
    ((H.2.2.2.2.2.2.2.2 4063 false 0xFFFFFFFFFFFFFFFF 0xFFFFFFFE).2 (f5 (.seam 4063 true [0xFFFFFFFFFFFFFFFF])) h5 seamWest (by decide) (by decide +kernel) (by decide +kernel)).runs⟩

theorem witness_pcie_configuration : Sys2Proof.Claims.PcieConfiguration →
    Runs (Instr.pcieConfigRequest (CfgReq.read 0) false) State.reset ∧
    Runs (Instr.pcieConfigRequest (CfgReq.read 1023) true) State.reset ∧
    (∃ x, Answers (.pcieConfigRequest (.write 36 15 0xC0000000) true) State.reset (answers x (.data 0)) ∧ x.msixEn = true) ∧
    (∃ x, Answers (.pcieConfigRequest (.write 17 1 3) true) State.reset (answers x (.data 0)) ∧ x.flag (rg .pcieLink) F.pcieLink_D3 = true) ∧
    State.cfgRead pcieUp 11 = State.reg pcieUp (rg Fam.pcieSubsys) ∧
    Runs (Instr.hotReset) pcieUp ∧
    State.bme (cfgCleared pcieUp) = false ∧
    Runs (Instr.pcieLinkStateChange (some 3) 2 true false) State.reset ∧
    Runs (Instr.pcieLinkStateChange none 0 true false) linkUp := fun H =>
  ⟨(H.1 (.read 0) State.reset (by decide) (by decide +kernel)).runs,
    ((H.2.1 true State.reset (by decide) (Or.inr (Or.inl rfl))).1 1023).runs,
    Exists.elim ((H.2.1 true State.reset (by decide) (Or.inr (Or.inl rfl))).2 36 15 0xC0000000) fun x h => ⟨x, h.1, (h.2.2.2.2.1 rfl (by decide)).1.trans (by decide)⟩,
    Exists.elim ((H.2.1 true State.reset (by decide) (Or.inr (Or.inl rfl))).2 17 1 3) fun x h => ⟨x, h.1, (h.2.2.2.2.2.1 rfl (by decide)).2 (by decide)⟩,
    (H.2.2.1 pcieUp).2.2,
    (H.2.2.2.1 pcieUp (by decide) (by decide +kernel)).runs,
    (H.2.2.2.2.1 pcieUp).1,
    (H.2.2.2.2.2 (some 3) 2 true false State.reset (by decide) (by decide +kernel)).runs,
    (H.2.2.2.2.2 none 0 true false linkUp (by decide) (by decide +kernel)).runs⟩

theorem witness_pcie_inbound_requests_1 : Sys2Proof.Claims.PcieInboundRequests →
    Runs (.pcieInboundRead 1 0 4) inD3 ∧
    Runs (Instr.pcieInboundRead 1 262143 1) (hostUp State.reset) ∧
    Runs (Instr.pcieInboundRead 2 0 4096) (hostUp State.reset) ∧
    Runs (.pcieInboundRead 1 0x3FFFF 2) (hostUp State.reset) ∧
    Runs (.pcieInboundRead 0 2 4) (hostUp State.reset) ∧
    Runs (Instr.pcieInboundRead 0 8388648 4) (hostUp State.reset) ∧
    Runs (.pcieInboundRead 0 0x800028 8) (hostUp State.reset) ∧
    Runs (.pcieInboundRead 0 0xEFFFFC 4) (hostUp State.reset) ∧
    Runs (Instr.pcieInboundRead 0 15729660 4) (hostUp State.reset) ∧
    Runs (Instr.pcieInboundRead 0 15729656 8) (hostUp State.reset) := fun H =>
  ⟨Exists.elim ((H.1 1 0 4 inD3 (by decide)).1 (by decide +kernel)) fun _ h => h.2.runs,
    ((H.1 1 0x3FFFF 1 (hostUp State.reset) (by decide)).2.1 (by decide +kernel) 0x1003FFFF (by decide +kernel)).runs,
    ((H.1 2 0 4096 (hostUp State.reset) (by decide)).2.1 (by decide +kernel) 0x20000000 (by decide +kernel)).runs,
    Exists.elim ((H.1 1 0x3FFFF 2 (hostUp State.reset) (by decide)).2.2.1 (by decide +kernel) (by decide) (by decide)) fun _ h => h.2.runs,
    Exists.elim ((H.1 0 2 4 (hostUp State.reset) (by decide)).2.2.2.1 (by decide +kernel) (by decide) (by decide) (by decide) (by decide +kernel)) fun _ h => h.2.runs,
    ((H.1 0 0x800028 4 (hostUp State.reset) (by decide)).2.2.2.2.1 0 (by decide +kernel) (by decide) (by decide) (by decide) rfl).runs,
    Exists.elim ((H.1 0 0x800028 8 (hostUp State.reset) (by decide)).2.2.2.2.2.1 (by decide +kernel) (by decide) (by decide) (Or.inl (by decide))) fun _ h => h.2.runs,
    Exists.elim ((H.1 0 0xEFFFFC 4 (hostUp State.reset) (by decide)).2.2.2.2.2.1 (by decide +kernel) (by decide) (by decide) (Or.inr (by decide))) fun _ h => h.2.runs,
    ((H.1 0 0xF003FC 4 (hostUp State.reset) (by decide)).2.2.2.2.2.2.1 255 (by decide +kernel) (by decide) (by decide) (by decide)).runs,
    ((H.1 0 0xF003F8 8 (hostUp State.reset) (by decide)).2.2.2.2.2.2.2.1 127 (by decide +kernel) (by decide) (by decide) (by decide)).runs⟩

theorem witness_pcie_inbound_requests_2 : Sys2Proof.Claims.PcieInboundRequests →
    Runs (Instr.pcieInboundRead 0 15732740 4) (hostUp State.reset) ∧
    Runs (Instr.pcieInboundRead 0 15732736 8) (hostUp State.reset) ∧
    Runs (.pcieInboundWrite 0 0 [] []) inD3 ∧
    Runs (.pcieInboundWrite 2 0 (List.replicate 129 0) []) (hostUp State.reset) ∧
    Runs (Instr.pcieInboundWrite 1 262143 [7] []) (hostUp State.reset) ∧
    Runs (Instr.pcieInboundWrite 1 262143 [7] [5]) (hostUp lockedOut) ∧
    Runs (.pcieInboundWrite 0 2 [0, 0, 0, 0] []) (hostUp State.reset) ∧
    Runs (.pcieInboundWrite 0 0x800028 [1, 2] []) (hostUp State.reset) ∧
    Runs (.pcieInboundWrite 0 0xE00000 [1, 2, 3, 4] []) (hostUp State.reset) ∧
    Runs (Instr.pcieInboundWrite 0 8388648 [255, 0, 0, 0] []) (hostUp State.reset) := fun H =>
  ⟨((H.1 0 0xF01004 4 (hostUp State.reset) (by decide)).2.2.2.2.2.2.2.2.1 1 (by decide +kernel) (by decide) (by decide) (by decide)).runs,
    ((H.1 0 0xF01000 8 (hostUp State.reset) (by decide)).2.2.2.2.2.2.2.2.2 (by decide +kernel) (by decide) (by decide) (by decide)).runs,
    Exists.elim ((H.2 0 0 [] [] inD3 (by decide)).1 (by decide +kernel)) fun _ h => h.2.runs,
    Exists.elim ((H.2 2 0 (List.replicate 129 0) [] (hostUp State.reset) (by decide)).2.1 (by decide +kernel) (by decide +kernel)) fun _ h => h.2.runs,
    ((((H.2 1 0x3FFFF [7] [] (hostUp State.reset) (by decide)).2.2 (by decide +kernel) (by decide +kernel)).1 0x1003FFFF (by decide +kernel)).1 (by decide +kernel) rfl).runs,
    ((((H.2 1 0x3FFFF [7] [5] (hostUp lockedOut) (by decide)).2.2 (by decide +kernel) (by decide +kernel)).1 0x1003FFFF (by decide +kernel)).2 (by decide +kernel)).runs,
    Exists.elim (((H.2 0 2 [0, 0, 0, 0] [] (hostUp State.reset) (by decide)).2.2 (by decide +kernel) (by decide +kernel)).2.1 (by decide) (by decide) (by decide) (by decide +kernel)) fun _ h => h.2.runs,
    Exists.elim (((H.2 0 0x800028 [1, 2] [] (hostUp State.reset) (by decide)).2.2 (by decide +kernel) (by decide +kernel)).2.2.1 (by decide) (by decide) (Or.inl (by decide))) fun _ h => h.2.runs,
    Exists.elim (((H.2 0 0xE00000 [1, 2, 3, 4] [] (hostUp State.reset) (by decide)).2.2 (by decide +kernel) (by decide +kernel)).2.2.1 (by decide) (by decide) (Or.inr (by decide))) fun _ h => h.2.runs,
    (((H.2 0 0x800028 [255, 0, 0, 0] [] (hostUp State.reset) (by decide)).2.2 (by decide +kernel) (by decide +kernel)).2.2.2.1 ((hostUp State.reset).setReg (rg .pcieHdb) 0xFF) (by decide) (by decide) (by decide) (by decide +kernel) rfl (by decide +kernel)).runs⟩

theorem witness_pcie_inbound_requests_3 : Sys2Proof.Claims.PcieInboundRequests →
    Runs (Instr.pcieInboundWrite 0 15729660 [255, 0, 0, 0] []) (hostUp State.reset) ∧
    Runs (Instr.pcieInboundWrite 0 15729656 [255, 1, 2, 3, 4, 5, 6, 7] []) (hostUp State.reset) ∧
    Runs (Instr.pcieInboundWrite 0 15732736 [255, 0, 0, 0] []) (hostUp State.reset) := fun H =>
  ⟨(((H.2 0 0xF003FC [255, 0, 0, 0] [] (hostUp State.reset) (by decide)).2.2 (by decide +kernel) (by decide +kernel)).2.2.2.2.1 255 (by decide) (by decide) (by decide)).runs,
    (((H.2 0 0xF003F8 [255, 1, 2, 3, 4, 5, 6, 7] [] (hostUp State.reset) (by decide)).2.2 (by decide +kernel) (by decide +kernel)).2.2.2.2.2.1 127 (by decide) (by decide) (by decide)).runs,
    (((H.2 0 0xF01000 [255, 0, 0, 0] [] (hostUp State.reset) (by decide)).2.2 (by decide +kernel) (by decide +kernel)).2.2.2.2.2.2 (by decide) (Or.inl (by decide)) (by decide)).runs⟩

theorem witness_pcie_outbound_requests_end : Sys2Proof.Claims.PcieOutboundRequestsEnd →
    Runs (Instr.pcieCompletion 0 CplStatus.ok [1, 2, 3, 4]) outLoad ∧
    Runs (.pcieCompletion 0 .abort []) outDma ∧
    Runs (.pcieCompletion 0 .poisoned []) outDma ∧
    Runs (.pcieOutboundTimeout 0) outDma ∧
    Runs (.pcieCompletion 4095 .ok []) State.reset := fun H =>
  ⟨(((H 0 [] [] (outReq (.load 0)) outLoad (by decide)).1 ⟨rfl, (by decide +kernel), (by decide +kernel), (by decide +kernel)⟩).1 0 [1, 2, 3, 4] lnkLoad rfl rfl (by decide) (by decide) (by decide) (by decide)).runs,
    Exists.elim ((((H 0 [] [] (outReq (.dma 47)) outDma (by decide)).1 ⟨rfl, (by decide +kernel), (by decide +kernel), (by decide +kernel)⟩).2 47 [] rfl rfl (by decide +kernel)).1 .abort (Or.inr rfl)) fun _ h => h.2.runs,
    Exists.elim ((((H 0 [] [] (outReq (.dma 47)) outDma (by decide)).1 ⟨rfl, (by decide +kernel), (by decide +kernel), (by decide +kernel)⟩).2 47 [] rfl rfl (by decide +kernel)).2.1) fun _ h => Exists.elim h fun _ h => h.2.2.runs,
    Exists.elim ((((H 0 [] [] (outReq (.dma 47)) outDma (by decide)).1 ⟨rfl, (by decide +kernel), (by decide +kernel), (by decide +kernel)⟩).2 47 [] rfl rfl (by decide +kernel)).2.2 0 rfl (by decide +kernel)) fun _ h => Exists.elim h fun _ h => h.2.2.runs,
    Exists.elim ((H 4095 [] [] (outReq (.dma 47)) State.reset (by decide)).2 .ok [] (by decide +kernel) (by decide +kernel)) fun _ h => h.2.runs⟩

theorem witness_host_mailboxes : Sys2Proof.Claims.HostMailboxes →
    Runs (Instr.hdbSet (Requester.seq 3) 4294967295) State.reset ∧
    Runs (Instr.take Requester.host 2) (hostUp State.reset) ∧
    Runs (Instr.pcieAttctlGo Requester.host 1) (hostUp State.reset) ∧
    Runs (Instr.pcieAttctlGo Requester.host 1) (hostUp quoting) := fun H =>
  ⟨(H.1 (.seq 3) 0xFFFFFFFF State.reset (by decide +kernel) trivial).runs,
    (H.2.1 .host 2 (hostUp State.reset) (by decide +kernel) (by decide)).runs,
    (H.2.2.1 .host 1 (hostUp State.reset) (by decide +kernel) (by decide +kernel)).runs,
    (H.2.2.2 .host 1 (hostUp quoting) (by decide +kernel) (by decide +kernel)).runs⟩

theorem witness_sources_are_claimed_and_completed : Obligations.SourcesAreClaimedAndCompleted →
    Runs (Instr.claim (Requester.seq 0) 0) vIrq ∧
    Runs (Instr.claim (Requester.seq 3) 3) State.reset ∧
    Runs (Instr.claim Requester.host 0) (hostUp State.reset) ∧
    Runs (Instr.complete (Requester.seq 0) 0 712) served ∧
    Runs (Instr.complete (Requester.seq 3) 3 1023) dbErrd ∧
    Runs (.complete (.seq 3) 3 1023) State.reset := fun H =>
  ⟨((H.1 0 vIrq (by decide)).1 712 0 (by decide +kernel) (fun src l h => Or.inr ⟨by have e := only712 src h.1 h.2.1; subst e; exact h.2.2.2.1.symm.trans (by decide +kernel), (only712 src h.1 h.2.1).ge⟩)).runs,
    ((H.1 3 State.reset (by decide)).2 (fun src _ h => absurd h.2.1 (by rw [none_routed src h.1]; decide))).runs,
    (H.2.1 .host 0 (hostUp State.reset) (by decide) (by decide) (by decide)).runs,
    ((H.2.2 0).1 [] [] (.seq 0) 712 served (by decide +kernel) (by decide +kernel)).runs,
    ((H.2.2 3).2.1 (.seq 3) 1023 dbErrd (by decide +kernel) (by decide +kernel)).runs,
    Exists.elim ((H.2.2 3).2.2 (.seq 3) 1023 State.reset (by decide +kernel) rfl (by decide +kernel) (by decide +kernel)) fun _ h => h.1.runs⟩

theorem witness_lodge_causes_act : Obligations.LodgeCausesAct →
    Runs (.lodgeCmd .host 31) (hostUp State.reset) ∧
    Runs (.distress (slotOf 5 (ev5 1))) fab ∧
    Runs (.distress (slotOf 5 (ev5 1))) fabUp ∧
    Runs .powerFailing State.reset ∧
    Runs (Instr.powerFailing) (State.setF State.reset (rg Fam.lodgeStat) F.lodgeStat_HOLDUP 1) ∧
    Runs .hearthPllLost State.reset ∧
    Runs (.thermalTrip 460) State.reset ∧
    Runs (.watchdogExpire 3) wdOn := fun H =>
  ⟨Exists.elim (H.1 .host 31 (hostUp State.reset) (by decide) (by decide +kernel) (by decide +kernel)) fun _ h => h.1.runs,
    Exists.elim (H.2.1 5 (ev5 1) fab (by decide) (by decide +kernel) (by decide +kernel)) fun _ h => h.1.runs,
    Exists.elim (H.2.2.1 5 (ev5 1) fabUp (by decide) (by decide +kernel) (by decide +kernel)) fun _ h => h.1.runs,
    Exists.elim (H.2.2.2.1 State.reset (by decide) (by decide +kernel) (by decide +kernel)) fun _ h => h.1.runs,
    (H.2.2.2.2.1 (State.reset.setF (rg .lodgeStat) F.lodgeStat_HOLDUP 1) (by decide) (by decide +kernel)).runs,
    Exists.elim (H.2.2.2.2.2.1 State.reset (by decide) (by decide +kernel) (by decide +kernel)) fun _ h => h.1.runs,
    Exists.elim (H.2.2.2.2.2.2.1 460 State.reset (by decide) (by decide +kernel) (by decide +kernel)) fun _ h => h.1.runs,
    Exists.elim (H.2.2.2.2.2.2.2 3 wdOn (by decide) (by decide +kernel) (by decide +kernel)) fun _ h => h.1.runs⟩

theorem witness_lodge_records_and_releases_1 : Obligations.LodgeRecordsAndReleases →
    Runs (Instr.holdupNHigh) locked ∧
    Runs (Instr.hearthPllRelock) lostLock ∧
    Runs (Instr.thermalWarn 459) State.reset ∧
    Runs (Instr.release (Requester.seq 0) 4) State.reset ∧
    Runs (Instr.release (Requester.seq 0) 4) tooHot ∧
    Runs (Instr.frel (Requester.seq 0) 8) lostLock ∧
    Runs .faultRecord (recs 63 1) ∧
    Runs .faultRecord (recs 62 0) ∧
    Runs .faultRecord (recs 63 0) ∧
    List.length (State.recBytes State.reset rec2) = 64 := fun H =>
  ⟨(H.1 locked (by decide) (by decide +kernel)).runs,
    (H.2.1 lostLock (by decide) trivial).runs,
    (H.2.2.1 459 State.reset (by decide) (by decide +kernel)).runs,
    (H.2.2.2.1 (.seq 0) 4 State.reset (by decide +kernel) (by decide +kernel)).runs,
    (H.2.2.2.2.1 (.seq 0) 4 tooHot (by decide +kernel) (by decide +kernel)).runs,
    (H.2.2.2.2.2.1 (.seq 0) 8 lostLock (by decide +kernel) (by decide +kernel)).runs,
    Exists.elim ((H.2.2.2.2.2.2.1 rec2 [] (recs 63 1) (by decide) rfl).1 (by decide +kernel)) fun _ h => h.1.runs,
    Exists.elim ((H.2.2.2.2.2.2.1 rec2 [] (recs 62 0) (by decide) rfl).2 (by decide +kernel)) fun _ h => Exists.elim h fun _ h => Exists.elim h fun _ h => (h.1 (by decide +kernel)).runs,
    Exists.elim ((H.2.2.2.2.2.2.1 rec2 [] (recs 63 0) (by decide) rfl).2 (by decide +kernel)) fun _ h => Exists.elim h fun _ h => Exists.elim h fun _ h => Exists.elim (h.2 (by decide +kernel)) fun _ h => h.1.runs,
    (H.2.2.2.2.2.2.2.1 rec2 State.reset).1⟩

theorem witness_lodge_records_and_releases_2 : Obligations.LodgeRecordsAndReleases →
    Runs (Instr.watchdogKick (Requester.seq 3) 3 23130) wdOn ∧
    Runs (Instr.watchdogKick Requester.host 3 23130) (hostUp wdOn) ∧
    Runs (Instr.watchdogWarn 3) wdWarn := fun H =>
  ⟨((H.2.2.2.2.2.2.2.2 3).1 (.seq 3) 0x5A5A wdOn (by decide +kernel) (by decide +kernel)).runs,
    ((H.2.2.2.2.2.2.2.2 3).2.1 .host 0x5A5A (hostUp wdOn) (by decide +kernel) (by decide +kernel)).runs,
    ((H.2.2.2.2.2.2.2.2 3).2.2 wdWarn (by decide) (by decide +kernel)).runs⟩

theorem witness_power_states_change : Obligations.PowerStatesChange →
    Runs (Instr.sscApply) State.reset ∧
    Runs (Instr.idleRequest (Requester.seq 3) 1) State.reset ∧
    Runs (Instr.idleRequest (Requester.seq 3) 0) idleNow ∧
    Runs (Instr.idleEnter) idlePend ∧
    Runs (.deepEnter (.seq 0) 2) State.reset ∧
    Runs .deepWake deepNow ∧
    Runs (Instr.wingPowerWrite (Requester.seq 0) 255) wingOff7 ∧
    Runs (.wingPowerWrite (.seq 0) 0x7F) State.reset ∧
    Runs (Instr.wingPowerWrite (Requester.seq 0) 254) wing0H1 := fun H =>
  ⟨(H.1 State.reset (by decide) trivial).runs,
    (H.2.1 (.seq 3) 1 State.reset (by decide +kernel) (by decide +kernel)).runs,
    (H.2.2.1 (.seq 3) 0 idleNow (by decide +kernel) (by decide +kernel)).runs,
    (H.2.2.2.1 idlePend (by decide) (by decide +kernel) (by decide +kernel)).runs,
    Exists.elim (H.2.2.2.2.1 (.seq 0) 2 State.reset (by decide +kernel) rfl (by decide +kernel) (by decide +kernel) rfl) fun _ h => h.1.runs,
    Exists.elim (H.2.2.2.2.2.1 deepNow (by decide) (by decide +kernel) (by decide +kernel) (by decide +kernel) (by decide +kernel)) fun _ h => h.1.runs,
    (((H.2.2.2.2.2.2 0 7 0xFF wingOff7 (by decide +kernel) (by decide +kernel) (by decide +kernel) (by decide +kernel)).1 (by decide +kernel) (by decide +kernel)).1 (by decide +kernel)).runs,
    Exists.elim (((H.2.2.2.2.2.2 0 7 0x7F State.reset (by decide +kernel) (by decide +kernel) (by decide +kernel) (by decide +kernel)).1 (by decide +kernel) (by decide +kernel)).2 (by decide +kernel)) fun _ h => h.1.runs,
    ((H.2.2.2.2.2.2 0 0 0xFE wing0H1 (by decide +kernel) (by decide +kernel) (by decide +kernel) (by decide +kernel)).2 (by decide +kernel) (by decide +kernel)).runs⟩

theorem witness_resets_and_their_release : Obligations.ResetsAndTheirRelease →
    Runs .porNLow State.reset ∧
    Runs (Instr.coldPowerUp 4) vioUp ∧
    Runs (Instr.coldPowerUp 7) (State.setF porLow (rg Fam.bankStat) F.bankStat_VLVL 0) ∧
    Runs (.warmReset true) State.reset ∧
    Runs (.warmReset false) wrst9 ∧
    Runs (Instr.resetRelease 7) warmWait ∧
    (Runs (Instr.resetRelease 0) (putPower State.reset fun p => { p with warm := some { lodge := some 9 } })) := fun H =>
  ⟨Exists.elim (H.1 State.reset) fun t h => Exists.elim h fun _ h => ⟨t, h.1⟩,
    ((H.2.1 4 vioUp rfl rfl).1 (by decide +kernel)).runs,
    ((H.2.1 7 (porLow.setF (rg .bankStat 0) F.bankStat_VLVL 0) rfl rfl).2 (by decide +kernel)).runs,
    Exists.elim (H.2.2.1 State.reset (by decide) (by decide +kernel) (by decide +kernel)).1 fun _ h => h.1.runs,
    Exists.elim ((H.2.2.1 wrst9 (by decide) (by decide +kernel) (by decide +kernel)).2 9 rfl) fun _ h => h.1.runs,
    (H.2.2.2 7 { pin := true } warmWait (by decide) (by decide +kernel)).runs,
    (H.2.2.2 0 { lodge := some 9 } (putPower State.reset fun p => { p with warm := some { lodge := some 9 } }) (by decide) (by decide +kernel)).runs⟩

theorem witness_boot_rom_steps : Sys2Proof.Claims.BootRomSteps →
    (bootSel 1).bootStep = bootAt (bootF (bootF (bootSel 1) F.asBootStat_SOURCE 1) F.asBootStat_PHASE 2) .push ∧
    (bootSel 0).bootStep.lockout = true ∧
    (bootRec 0).bootStep = bootRec 0 ∧
    (bootRec 1).bootStep.assay.boot.stage = .check ∧
    (bootBad 3).bootStep.assay.boot.stage = .push ∧
    (bootBad 0).bootStep.assay.boot.stage = .recovery ∧
    bootEnd.bootStep.assay.boot.stage = .off := fun H =>
  ⟨(H.1 (bootSel 1) rfl).1 (by decide +kernel),
    (congrArg State.lockout ((H.1 (bootSel 0) rfl).2 (by decide +kernel) (by decide +kernel))).trans (by decide +kernel),
    (H.2.1 (bootRec 0) rfl).1 (by decide +kernel),
    (congrArg (fun x : State => x.assay.boot.stage) ((H.2.1 (bootRec 1) rfl).2 (by decide +kernel))).trans rfl,
    (congrArg (fun x : State => x.assay.boot.stage) ((H.2.2.1 (bootBad 3) rfl rfl (by decide +kernel)).1 (by decide +kernel))).trans rfl,
    (congrArg (fun x : State => x.assay.boot.stage) ((H.2.2.1 (bootBad 0) rfl rfl (by decide +kernel)).2 (by decide +kernel))).trans rfl,
    (H.2.2.2 bootEnd rfl (by decide +kernel)).2.2.2.2.2.2.2.2.2.2.2.2.1⟩

theorem witness_boot_push_and_otp_1 : Sys2Proof.Claims.BootPushAndOtp →
    Runs (Instr.bootPush (Requester.seq 0) 1536) State.reset ∧
    Runs (Instr.bootPush (Requester.seq 0) 1536) lockedOut ∧
    Runs (Instr.sysSeqrel (Requester.seq 0) 14) State.reset ∧
    Runs (Instr.sysSeqrel Requester.host 14) (hostUp State.reset) ∧
    Runs (Instr.advance (Requester.seq 3) 16393) State.reset ∧
    Runs (Instr.advance (Requester.seq 3) 16393) otpBusy ∧
    Runs (Instr.revoke (Requester.seq 3) 266) State.reset ∧
    Runs (Instr.revoke (Requester.seq 3) 266) otpBusy ∧
    Runs (Instr.program (Requester.seq 3) 32523) State.reset ∧
    Runs (Instr.program (Requester.seq 3) 32523) otpBusy := fun H =>
  ⟨(H.1 (.seq 0) 0x0600 State.reset (by decide +kernel) (by decide +kernel)).runs,
    (H.2.1 (.seq 0) 0x0600 lockedOut (by decide +kernel) (by decide +kernel)).runs,
    (H.2.2.1 14 State.reset (by decide +kernel)).runs,
    (H.2.2.2.1 .host 14 (hostUp State.reset) (by decide +kernel) (by decide)).runs,
    (H.2.2.2.2.1.1 (.seq 3) 0x4009 State.reset (by decide +kernel) (by decide +kernel)).runs,
    (H.2.2.2.2.1.2 (.seq 3) 0x4009 otpBusy (by decide +kernel) (by decide +kernel)).runs,
    (H.2.2.2.2.2.1.1 (.seq 3) 0x10A State.reset (by decide +kernel) (by decide +kernel)).runs,
    (H.2.2.2.2.2.1.2 (.seq 3) 0x10A otpBusy (by decide +kernel) (by decide +kernel)).runs,
    (H.2.2.2.2.2.2.1.1 (.seq 3) 0x7F0B State.reset (by decide +kernel) (by decide +kernel)).runs,
    (H.2.2.2.2.2.2.1.2 (.seq 3) 0x7F0B otpBusy (by decide +kernel) (by decide +kernel)).runs⟩

theorem witness_boot_push_and_otp_2 : Sys2Proof.Claims.BootPushAndOtp →
    Runs (Instr.otpDone true) (otpRun 1 65) ∧
    Runs (Instr.otpDone true) (State.setF (otpRun 1 64) (rg Fam.asBootInfo) F.asBootInfo_SVN 63) ∧
    Runs (Instr.otpDone true) (otpRun 1 64) ∧
    Runs (Instr.otpDone true) (otpRun 2 0) ∧
    Runs (Instr.otpDone true) (otpRun 2 3) ∧
    Runs (Instr.otpDone true) otpSeal ∧
    (∃ t, exec (.otpDone false) (otpRun 1 64) = .next t ∧ (otpRun 1 64).rollback ≤ t.rollback) ∧
    Runs (Instr.otpDone true) (otpRun 3 127) := fun H =>
  ⟨((H.2.2.2.2.2.2.2.1 true 1 65 5 (otpRun 1 65) (by decide) (by decide) rfl).1 rfl (by decide)).runs,
    ((H.2.2.2.2.2.2.2.1 true 1 64 5 ((otpRun 1 64).setF (rg .asBootInfo) F.asBootInfo_SVN 63) (by decide +kernel) (by decide +kernel) rfl).2.1 rfl (by decide) (by decide +kernel)).runs,
    ((H.2.2.2.2.2.2.2.1 true 1 64 5 (otpRun 1 64) (by decide) (by decide) rfl).2.2.1 rfl (by decide) (by decide +kernel) (by decide +kernel)).runs,
    ((H.2.2.2.2.2.2.2.1 true 2 0 5 (otpRun 2 0) (by decide) (by decide) rfl).2.2.2.1 rfl (by decide) (by decide +kernel)).runs,
    ((H.2.2.2.2.2.2.2.1 true 2 3 5 (otpRun 2 3) (by decide) (by decide) rfl).2.2.2.2.1 rfl (by decide) (by decide +kernel) ⟨0, (by decide), (by decide), (by decide +kernel), (by decide +kernel)⟩).runs,
    ((H.2.2.2.2.2.2.2.1 true 3 2 5 otpSeal (by decide) (by decide) rfl).2.2.2.2.2.1 rfl (by decide +kernel)).runs,
    Exists.elim (H.2.2.2.2.2.2.2.2 false 1 64 5 (otpRun 1 64) (by decide +kernel) (by decide +kernel) (by decide +kernel) (by decide +kernel)) fun t h => ⟨t, h.1, h.2.2⟩,
    ((H.2.2.2.2.2.2.2.1 true 3 127 5 (otpRun 3 127) (by decide) (by decide) rfl).2.2.2.2.2.2 rfl (by decide +kernel) (by decide) (by decide) rfl).runs⟩

theorem witness_measurements_quotes_and_flash_1 : Obligations.MeasurementsQuotesAndFlash →
    Runs (Instr.extend (Requester.seq 0) 15) State.reset ∧
    Runs (Instr.extensionEnd) (extRun true) ∧
    Runs .extensionEnd (extRun false) ∧
    Runs (Instr.attCtlGo (Requester.seq 3) 1) State.reset ∧
    Runs (Instr.quoteDone) quoteMis ∧
    Runs (Instr.quoteDone) quoteReq ∧
    Runs (Instr.quoteDone) quoteSeed ∧
    Runs (Instr.bspiTransaction (Requester.seq 0) 2164260867) State.reset ∧
    Runs (Instr.bspiDone [1]) bspiRec ∧
    Runs (Instr.bspiDone [1]) bspiMis := fun H =>
  ⟨(H.1 (.seq 0) 0xF State.reset (by decide +kernel) rfl (by decide +kernel) (by decide +kernel)).runs,
    (H.2.1 7 255 [] (extRun true) (by decide) (by decide) rfl).runs,
    Exists.elim (H.2.2.1 7 255 [] (extRun false) (by decide) (by decide) rfl) fun _ h => h.1.runs,
    (H.2.2.2.1 (.seq 3) 1 State.reset (by decide +kernel) (by decide +kernel)).runs,
    ((H.2.2.2.2.1 [] quoteMis (by decide) (by decide) rfl).1 (Or.inl (by decide +kernel))).runs,
    ((H.2.2.2.2.1 [] quoteReq (by decide) (by decide) rfl).2.1 quoteBytes (by decide +kernel) rfl (by decide +kernel)).runs,
    ((H.2.2.2.2.1 [] quoteSeed (by decide) (by decide) rfl).2.2 quoteBytes 7427 (5, []) (by decide +kernel) rfl (by decide +kernel) (by decide +kernel) (by decide +kernel) rfl rfl rfl).runs,
    (H.2.2.2.2.2.1 (.seq 0) 0x81000003 State.reset (by decide +kernel) (by decide +kernel)).runs,
    ((H.2.2.2.2.2.2 [1] bspiRec (by decide) (by decide +kernel) (by decide +kernel)).1 (by decide +kernel)).runs,
    ((H.2.2.2.2.2.2 [1] bspiMis (by decide) (by decide +kernel) (by decide +kernel)).2.1 (by decide +kernel) (by decide +kernel) (Or.inl (by decide +kernel))).runs⟩

theorem witness_measurements_quotes_and_flash_2 : Obligations.MeasurementsQuotesAndFlash →
    Runs (Instr.bspiDone [1]) bspiRun ∧
    Runs (Instr.bspiDone [1]) bspiWr := fun H =>
  ⟨(((H.2.2.2.2.2.2 [1] bspiRun (by decide) (by decide +kernel) (by decide +kernel)).2.2 (by decide +kernel) (by decide +kernel) (by decide +kernel) (by decide +kernel) (by decide +kernel) rfl rfl).1 (by decide +kernel)).runs,
    (((H.2.2.2.2.2.2 [1] bspiWr (by decide) (by decide +kernel) (by decide +kernel)).2.2 (by decide +kernel) (by decide +kernel) (by decide +kernel) (by decide +kernel) (by decide +kernel) rfl rfl).2 (by decide +kernel)).runs⟩

theorem witness_pins_are_held_and_set : Obligations.PinsAreHeldAndSet →
    Runs (Instr.pinClaim Requester.host 383 5) (hostUp State.reset) ∧
    Runs (Instr.pinClaim (Requester.seq 0) 383 0) pin383 ∧
    Runs (Instr.pinClaim (Requester.seq 1) 383 2) (State.setReg State.reset (rg Fam.gpOwn 383) 24) ∧
    Runs (Instr.pinCtlWrite (Requester.seq 0) 383 1377) pin383 ∧
    Runs (Instr.pinCtlWrite Requester.remote 383 1) (State.setReg pinSafe (rg Fam.gpOwn 383) 24) ∧
    Runs (Instr.bankSupplyChange 11 3) (vioUp') ∧
    Runs (Instr.bankSupplyChange 0 2) State.reset ∧
    Runs (.bankSupplyChange 0 0) vioUp' := fun H =>
  ⟨((H.1 383).1 .host 5 (hostUp State.reset) (by decide +kernel) (by decide +kernel)).runs,
    ((H.1 383).2.1 (.seq 0) 0 pin383 (by decide +kernel) (by decide +kernel)).runs,
    ((H.1 383).2.2.1 (.seq 1) 2 (State.reset.setReg (rg .gpOwn 383) 0x18) (by decide +kernel) (by decide +kernel)).runs,
    ((H.1 383).2.2.2.1 (.seq 0) 0x561 pin383 (by decide +kernel) (by decide +kernel)).runs,
    ((H.1 383).2.2.2.2 .remote 1 (pinSafe.setReg (rg .gpOwn 383) 0x18) (by decide +kernel) (by decide +kernel)).runs,
    ((H.2 11 3 vioUp' (by decide)).1 (by decide +kernel)).runs,
    ((H.2 0 2 State.reset (by decide)).1 (by decide +kernel)).runs,
    Exists.elim ((H.2 0 0 vioUp' (by decide)).2 (by decide +kernel)) fun t h => ⟨t, h.1⟩⟩

theorem witness_step_takes_the_front_command : Obligations.StepTakesTheFrontCommand →
    Sys2Proof.Machine.step { State.reset with pending := [.nop (.seq i0)] } = exec (.nop (.seq i0)) { { State.reset with pending := [.nop (.seq i0)] } with pending := [] } ∧
    Sys2Proof.Machine.step State.reset = .next State.reset.idle ∧
    Sys2Proof.Machine.step porLow = .next porLow ∧
    Runs (.nop (.seq i0)) State.reset := fun H =>
  ⟨H.1 (.nop (.seq i0)) [] { State.reset with pending := [.nop (.seq i0)] } rfl,
    H.2.1 State.reset rfl,
    H.2.2.1 porLow rfl rfl,
    H.2.2.2 (.nop (.seq i0)) State.reset⟩

theorem witness_repeated_addition_runs : Sys2Proof.Claims.RepeatedAdditionRuns →
    Runs (Instr.addi iRep 3 2 7) State.reset ∧
    Runs (Instr.addi iRep 3 2 7) rc5 := fun H =>
  ⟨((H iRep 3 7 State.reset rfl rfl rfl rfl (by decide +kernel)).1 (by decide +kernel)).runs,
    ((H iRep 3 7 rc5 rfl rfl rfl rfl (by decide +kernel)).2 (by decide +kernel)).runs⟩

theorem witness_msix_follows_every_step : Obligations.MsixFollowsEveryStep →
    MsixFollows State.reset.idle ∧
    MessagesSent msxRise msxRise.sync := fun H =>
  ⟨H.2 State.reset State.reset.idle (Or.inr ⟨(by decide +kernel), (by decide +kernel)⟩) rfl,
    H.1 msxRise⟩

theorem witness_memory_stays_canonical : Obligations.MemoryStaysCanonical →
    Memory.wf State.reset.idle.mem = true ∧
    Memory.wf (nxt (step stepWrite)).mem = true := fun H =>
  ⟨H State.reset State.reset.idle rfl rfl,
    H stepWrite _ (by decide) rfl⟩

theorem witness_count_moves_by_time_and_steps : Obligations.CountMovesByTimeAndSteps →
    State.reset.idle.count = State.reset.count + 1 ∧
    ((nxt (step stepWrite)).count = stepWrite.count ∨ ((nxt (step stepWrite)).power.por = true ∧ (nxt (step stepWrite)).count = 0)) ∧
    cntStep.idle.count = stepTarget cntStep ∧
    cntCarry.idle.count = cntCarry.count + 40 ∧
    porLow.idle.count = porLow.count := fun H =>
  ⟨(H State.reset State.reset.idle rfl).2.2.1 rfl rfl |>.2.2.1 rfl rfl (by decide),
    (H stepWrite _ rfl).1 (by decide),
    ((H cntStep cntStep.idle rfl).2.2.1 rfl rfl).2.1 rfl rfl,
    ((H cntCarry cntCarry.idle rfl).2.2.1 rfl rfl).1 rfl,
    (H porLow porLow.idle rfl).2.1 rfl rfl⟩

end Sys2Proof.Tests
end

section
/-! SUPPORT. How a plain scalar instruction ends (R133, R177, R181): the sequencer takes the ALU result and moves past the
instruction, and nothing else changes. -/

namespace Sys2Proof.Machine
open Sys2Proof.Claims

/-- A completed instruction moves its sequencer on (R133); TE is the one it began with. -/
theorem State.complete_modSeq (s : State) (h : Fin 4) (f : Seq → Seq) (n : Nat)
    (hte : bit (f (s.seq h)).flg flgTE = s.flgBit h flgTE) (hpc : (f (s.seq h)).pc = (s.seq h).pc) :
    (s.modSeq h f).complete h (s.flgBit h flgTE) ((s.seq h).pc + BitVec.ofNat 32 n) =
      s.modSeq h fun q => (f q).advance n := by
  simp only [State.complete, State.setFlg, State.modSeq_modSeq]
  split
  all_goals
    refine State.modSeq_congr _ _ _ _ ?_
    simp [Seq.advance, b2n, *]

/-- Issue of a plain instruction whose effect is a change `f` of its own sequencer that leaves pc and TE. -/
theorem State.issue_modSeq (s : State) (iss : Issue) (sh : Shape) (body : State → Body) (f : Seq → Seq)
    (hp : plainIssue iss sh.narrowOk = true) (hu : udDetail iss sh = none) (hl : sh.len ≤ 14)
    (hi : s.issues iss.h (iss.prefixes.length + sh.len) = true)
    (hb : body (s.modSeq iss.h fun q => { q with atomRep := false }) = .done (s.modSeq iss.h f))
    (hte : bit (f (s.seq iss.h)).flg flgTE = s.flgBit iss.h flgTE) (hpc : (f (s.seq iss.h)).pc = (s.seq iss.h).pc) :
    s.issue iss sh body = s.modSeq iss.h fun q => (f q).advance (iss.prefixes.length + sh.len) := by
  rw [State.issue_plain s iss _ sh body hp hu hl hi, hb]
  exact State.complete_modSeq s iss.h f _ hte hpc

/-- A command whose effect on a quiet state is a change of one sequencer that keeps its write buffer and handler word. -/
theorem answers_modSeq (c : Instr) (s t : State) (h : Fin 4) (f : Seq → Seq) (he : exec c s = .next t.settle)
    (ht : t = s.modSeq h f) (hq : s.quiet = true) (hv : (f (s.seq h)).vec = (s.seq h).vec)
    (hw : (f (s.seq h)).wbuf = (s.seq h).wbuf) : Answers c s (s.modSeq h f) := by
  subst ht
  exact ⟨_, he, State.settle_quiet _ ((State.modSeq_quiet s h f hv hw).trans hq)⟩

/-! ### ALU results -/

/-- The ALU result of an instruction leaves TE. -/
theorem bit_aluSeq_flgTE (w : Bool) (d : Fin 16) (x : AluRes) (q : Seq) :
    bit (aluSeq w d x q).flg flgTE = bit q.flg flgTE :=
  AluRes.bit_flg x q.flg flgTE (by decide) (by decide)

/-- Writing an ALU result changes one sequencer. -/
theorem State.putAlu_eq (s : State) (h : Fin 4) (d : Fin 16) (w : Bool) (x : AluRes) :
    s.putAlu h d w x = s.modSeq h (aluSeq w d x) := by
  cases w
  · rfl
  · simp only [State.putAlu, if_true, State.setG, State.modSeq_modSeq]; rfl

/-- A plain instruction that writes the ALU result `x` of the state it issues in. -/
theorem answers_putAlu (c : Instr) (s : State) (iss : Issue) (sh : Shape) (d : Fin 16) (w : Bool) (x : State → AluRes)
    (he : exec c s = .next (s.issue iss sh fun t => .done (t.putAlu iss.h d w (x t))).settle)
    (hx : x (s.modSeq iss.h fun q => { q with atomRep := false }) = x s)
    (hp : plainIssue iss sh.narrowOk = true) (hu : udDetail iss sh = none) (hl : sh.len ≤ 14)
    (hi : s.issues iss.h (iss.prefixes.length + sh.len) = true) :
    Answers c s (s.modSeq iss.h fun q => (aluSeq w d (x s) q).advance (iss.prefixes.length + sh.len)) := by
  refine answers_modSeq c s _ iss.h _ he ?_ ((s.issues_iff _ _).1 hi).1 rfl rfl
  refine State.issue_modSeq s iss sh _ (fun q => aluSeq w d (x s) { q with atomRep := false }) hp hu hl hi ?_
    (bit_aluSeq_flgTE _ _ _ _) rfl
  rw [hx, State.putAlu_eq, State.modSeq_modSeq]

/-- A general register of a changed sequencer. -/
theorem State.gr_modSeq_same (s : State) (h : Fin 4) (f : Seq → Seq) (i : Fin 16) :
    (s.modSeq h f).gr h i = (f (s.seq h)).g[i] := by
  simp [State.gr]

/-- The operation width under the prefixes of an issue (R178). -/
theorem opWidth_hasNarrow (iss : Issue) : opWidth (hasNarrow iss) = specWidth iss := by
  simp [opWidth, hasNarrow, specWidth]

theorem specWidth_cases (iss : Issue) :
    (Prefix.narrow ∈ iss.prefixes ∧ specWidth iss = 16) ∨ (Prefix.narrow ∉ iss.prefixes ∧ specWidth iss = 32) := by
  unfold specWidth
  split <;> simp_all

theorem specWidth_pos (iss : Issue) : 0 < specWidth iss := by
  obtain ⟨_, h⟩ | ⟨_, h⟩ := specWidth_cases iss <;> simp [h]

/-- The model's ALU operation answers `f` on operands of n bits. -/
def AgreesOnOperands (op f : Nat → Nat → Nat → AluRes) : Prop :=
  ∀ n a b, 0 < n → a < 2 ^ n → b < 2 ^ n → op n a b = f n a b

/-- A register-register instruction (R177, R178). -/
theorem registerForm_of_agrees (c : Issue → Fin 16 → Fin 16 → Instr) (w : Bool) (op f : Nat → Nat → Nat → AluRes)
    (he : ∀ iss d b s, exec (c iss d b) s = .next (aluReg iss d b w op s).settle) (hf : AgreesOnOperands op f) :
    RegisterForm c w f := by
  intro iss d b s hp hi
  have key := answers_putAlu (c iss d b) s iss { len := 2, narrowOk := true } d w _ (he iss d b s)
    (by simp only [State.gr_modSeq_same]; rfl) hp (plainIssue_udDetail _ _ hp (by decide) rfl rfl rfl) (by decide) hi
  simp only [opWidth_hasNarrow] at key
  rw [hf _ _ _ (specWidth_pos iss) (Nat.mod_lt _ (Nat.two_pow_pos _)) (Nat.mod_lt _ (Nat.two_pow_pos _))] at key
  exact key

/-- The signed reading of n bits is the signed value of the n-bit word. -/
theorem sext_eq_toInt (n v : Nat) : sext n v = (BitVec.ofNat n v).toInt := by
  simp [sext, BitVec.toInt_eq_msb_cond, BitVec.msb_eq_decide]

/-- The bytes of an immediate whose SZ is not reserved. -/
theorem immBytes_eq (sz : Fin 4) (h : sz.val < 3) : immBytes sz = 2 ^ sz.val := by
  unfold immBytes
  interval_cases sz.val <;> rfl

/-- An immediate is sign-extended to the operation width (R154, R159). -/
theorem immValue_eq (sz : Fin 4) (imm : Word) (n : Nat) (h : sz.val < 3) :
    immValue sz imm n = ((imm.setWidth (8 * 2 ^ sz.val)).signExtend n).toNat := by
  simp [immValue, immBytes_eq sz h, sext_eq_toInt, BitVec.signExtend, BitVec.toNat_ofInt]

/-- A register-immediate instruction (R159, R181). -/
theorem immediateForm_of_agrees (c : Issue → Fin 16 → Fin 4 → Word → Instr) (w : Bool) (op f : Nat → Nat → Nat → AluRes)
    (he : ∀ iss d sz imm s, exec (c iss d sz imm) s = .next (aluImm iss d sz imm w op s).settle)
    (hf : AgreesOnOperands op f) : ImmediateForm c w f := by
  intro iss d sz imm s hp hsz hi
  have hsz3 : sz.val < 3 := by split at hsz <;> omega
  have hlen : immBytes sz ≤ 4 := by
    rw [immBytes_eq sz hsz3]
    interval_cases sz.val <;> decide
  have hresv : (decide (sz.val = 3) || (hasNarrow iss && decide (sz.val = 2))) = false := by
    simp only [hasNarrow, List.contains_eq_mem, Bool.or_eq_false_iff, Bool.and_eq_false_iff, decide_eq_false_iff_not]
    split at hsz
    · omega
    · exact ⟨by omega, .inl ‹_›⟩
  rw [Nat.add_assoc, ← immBytes_eq sz hsz3] at hi
  have key := answers_putAlu (c iss d sz imm) s iss
    { len := 2 + immBytes sz, narrowOk := true, resv := sz.val = 3 || (hasNarrow iss && sz.val = 2) } d w _
    (he iss d sz imm s) (by simp only [State.gr_modSeq_same]; rfl) hp
    (plainIssue_udDetail _ _ hp (by simp only; omega) rfl hresv rfl) (by simp only; omega) hi
  have hop := hf (specWidth iss) ((s.gr iss.h d).toNat % 2 ^ specWidth iss) _ (specWidth_pos iss)
    (Nat.mod_lt _ (Nat.two_pow_pos _)) ((imm.setWidth (8 * 2 ^ sz.val)).signExtend (specWidth iss)).isLt
  simp only [opWidth_hasNarrow, immValue_eq sz imm _ hsz3, hop, immBytes_eq sz hsz3, ← Nat.add_assoc] at key
  exact key

end Sys2Proof.Machine
end

section
/-! SUPPORT. The ALU results of shifts, products and divisions are those of R177, R179 and R180. -/

namespace Sys2Proof.Machine
open Sys2Proof.Claims

/-- Z and N of a result of n bits (R177). -/
theorem flagsZN_eq_specZN (n r : Nat) (hr : r < 2 ^ n) : flagsZN n r = specZN n r := by
  have hN : r.testBit (n - 1) = decide (2 ^ (n - 1) ≤ r) := by
    have h := BitVec.getLsbD_last (BitVec.ofNat n r)
    rwa [BitVec.getLsbD, BitVec.toNat_ofNat, Nat.mod_eq_of_lt hr] at h
  simp [flagsZN, specZN, hN]

/-- The n-bit number of an integer is below 2^n. -/
theorem toBits_lt (n : Nat) (v : Int) : toBits n v < 2 ^ n := by
  have h0 := Int.emod_nonneg v (b := (2 ^ n : Int)) (by positivity)
  have h1 := Int.emod_lt_of_pos v (b := (2 ^ n : Int)) (by positivity)
  exact (Int.toNat_lt h0).2 (by exact_mod_cast h1)

/-! ### Shifts (R179) -/

/-- A shift by a count below the width answers `f`. -/
def ShiftAgrees (op : ShiftOp) (f : Nat → Nat → Nat → AluRes) : Prop :=
  ∀ n a c, a < 2 ^ n → c < n → aluShift op n a c = f n a c

theorem shl_agrees : ShiftAgrees .shl specShl := by
  intro n a c _ _
  simp only [aluShift, specShl, specShift, flagsZN_eq_specZN n _ (Nat.mod_lt _ (Nat.two_pow_pos n))]

theorem shr_agrees : ShiftAgrees .shr specShr := by
  intro n a c ha _
  simp only [aluShift, specShr, specShift, flagsZN_eq_specZN n _ (Nat.lt_of_le_of_lt (Nat.div_le_self _ _) ha)]

/-- An arithmetic shift divides the signed number and rounds down. -/
theorem sext_div_two_pow (n a c : Nat) :
    (sext n a / (2 ^ c : Int) % (2 ^ n : Int)).toNat = ((BitVec.ofNat n a).sshiftRight c).toNat := by
  simp [BitVec.sshiftRight, BitVec.toNat_ofInt, sext_eq_toInt, Int.shiftRight_eq_div_pow]

theorem sar_agrees : ShiftAgrees .sar specSar := by
  intro n a c _ _
  simp only [aluShift, specSar, specShift, sext_div_two_pow, flagsZN_eq_specZN n _ (BitVec.isLt _)]

/-- A rotation by less than the width puts the low c bits above the others. -/
theorem rotateRight_eq (n a c : Nat) (ha : a < 2 ^ n) (hc : c < n) :
    (a / 2 ^ c + a * 2 ^ (n - c)) % 2 ^ n = ((BitVec.ofNat n a).rotateRight c).toNat := by
  have hn : 2 ^ n = 2 ^ (n - c) * 2 ^ c := by rw [← Nat.pow_add, Nat.sub_add_cancel hc.le]
  have hlow : a / 2 ^ c < 2 ^ (n - c) := Nat.div_lt_of_lt_mul (by rwa [Nat.mul_comm, ← hn])
  have hhigh : a * 2 ^ (n - c) % 2 ^ n = 2 ^ (n - c) * (a % 2 ^ c) := by
    rw [hn, Nat.mul_comm a, Nat.mul_mod_mul_left]
  have hsum : 2 ^ (n - c) * (a % 2 ^ c) + a / 2 ^ c < 2 ^ n := by
    have h := Nat.mul_le_mul_left (2 ^ (n - c)) (Nat.succ_le_of_lt (Nat.mod_lt a (Nat.two_pow_pos c)))
    rw [Nat.mul_succ, ← hn] at h
    omega
  calc (a / 2 ^ c + a * 2 ^ (n - c)) % 2 ^ n
      = (2 ^ (n - c) * (a % 2 ^ c) + a / 2 ^ c) % 2 ^ n := by rw [Nat.add_comm, ← Nat.mod_add_mod, hhigh]
    _ = 2 ^ (n - c) * (a % 2 ^ c) ||| a / 2 ^ c := by
      rw [Nat.mod_eq_of_lt hsum, Nat.two_pow_add_eq_or_of_lt hlow]
    _ = ((BitVec.ofNat n a).rotateRight c).toNat := by
      rw [BitVec.toNat_rotateRight, BitVec.toNat_ofNat, Nat.mod_eq_of_lt ha, Nat.mod_eq_of_lt hc,
        Nat.shiftRight_eq_div_pow, Nat.shiftLeft_eq, hhigh, Nat.or_comm]

theorem ror_agrees : ShiftAgrees .ror specRor := by
  intro n a c ha hc
  simp only [aluShift, specRor, specShift, rotateRight_eq n a c ha hc, flagsZN_eq_specZN n _ (BitVec.isLt _)]

/-- A shift whose count is Gb modulo the width, from the shift by a count below the width. -/
theorem shiftBy_agrees (op : ShiftOp) (f : Nat → Nat → Nat → AluRes) (hf : ShiftAgrees op f) :
    AgreesOnOperands (shiftBy op) fun n a b => f n a (b % n) :=
  fun n a b hn ha _ => hf n a (b % n) ha (Nat.mod_lt b hn)

/-- A shift by an immediate count below the width (R159, R181). -/
theorem shiftForm_of_agrees (c : Issue → Fin 16 → Fin 4 → Word → Instr) (op : ShiftOp) (f : Nat → Nat → Nat → AluRes)
    (he : ∀ iss d imm s, exec (c iss d 0 imm) s = .next (shiftImm iss d 0 imm op s).settle)
    (hf : ShiftAgrees op f) : ShiftForm c f := by
  intro iss d imm s hp hk hi
  have hlen : 2 + immBytes 0 ≤ 14 := by decide
  have hresv : (decide ((0 : Fin 4).val ≠ 0) || decide (32 ≤ imm.toNat % 256) ||
      (hasNarrow iss && decide (16 ≤ imm.toNat % 256))) = false := by
    obtain ⟨hn, hw⟩ | ⟨hn, hw⟩ := specWidth_cases iss <;> simp [hasNarrow, hn] <;> omega
  have key := answers_putAlu (c iss d 0 imm) s iss
    { len := 2 + immBytes 0, narrowOk := true,
      resv := (0 : Fin 4).val ≠ 0 || decide (32 ≤ imm.toNat % 256) ||
        (hasNarrow iss && decide (16 ≤ imm.toNat % 256)) }
    d true _ (he iss d imm s) (by simp only [State.gr_modSeq_same]; rfl) hp
    (plainIssue_udDetail _ _ hp hlen rfl hresv rfl) hlen hi
  simp only [opWidth_hasNarrow, Nat.mod_eq_of_lt hk] at key
  rw [hf _ _ _ (Nat.mod_lt _ (Nat.two_pow_pos _)) hk] at key
  exact key

/-! ### Products (R177, R178) -/

theorem aluMulLow_agrees : AgreesOnOperands aluMulLow fun n a b => specZN n (a * b % 2 ^ n) :=
  fun n _ _ _ _ _ => flagsZN_eq_specZN n _ (Nat.mod_lt _ (Nat.two_pow_pos n))

theorem aluMulHighU_agrees : AgreesOnOperands aluMulHighU fun n a b => specZN n (a * b / 2 ^ n) :=
  fun n _ _ _ ha hb => flagsZN_eq_specZN n _ (Nat.div_lt_of_lt_mul (Nat.mul_lt_mul'' ha hb))

theorem sext_eq_specSigned (n a : Nat) : sext n a = specSigned n a := sext_eq_toInt n a

theorem aluMulHighS_agrees : AgreesOnOperands aluMulHighS fun n a b =>
    specZN n ((specSigned n a * specSigned n b / (2 ^ n : Int)) % (2 ^ n : Int)).toNat := by
  intro n a b _ _ _
  rw [aluMulHighS, sext_eq_specSigned, sext_eq_specSigned]
  exact flagsZN_eq_specZN n _ (toBits_lt n _)

/-! ### Divisions (R180) -/

/-- A special result of a division. -/
theorem specDiv_some (n r : Nat) (v : Int) (hr : r < 2 ^ n) :
    specDiv n (some r) v = { flagsZN n r with v := some true } := by
  rw [specDiv, flagsZN_eq_specZN n r hr]

/-- A quotient or remainder outside the special cases. -/
theorem specDiv_none (n : Nat) (v : Int) : specDiv n none v = { flagsZN n (toBits n v) with v := some false } := by
  rw [flagsZN_eq_specZN n _ (toBits_lt n v)]
  rfl

theorem toBits_natCast (n r : Nat) (hr : r < 2 ^ n) : toBits n (r : Int) = r := by
  rw [toBits, show (r : Int) % (2 ^ n : Int) = ((r % 2 ^ n : Nat) : Int) by push_cast; rfl, Int.toNat_natCast,
    Nat.mod_eq_of_lt hr]

theorem aluDivU_agrees : AgreesOnOperands aluDivU fun n a b =>
    specDiv n (if b = 0 then some (2 ^ n - 1) else none) ((a / b : Nat) : Int) := by
  intro n a b _ ha _
  simp only [aluDivU]
  split
  · exact (specDiv_some n _ _ (Nat.sub_one_lt (Nat.two_pow_pos n).ne')).symm
  · rw [specDiv_none, toBits_natCast n _ (Nat.lt_of_le_of_lt (Nat.div_le_self a b) ha)]

theorem aluRemU_agrees : AgreesOnOperands aluRemU fun n a b =>
    specDiv n (if b = 0 then some a else none) ((a % b : Nat) : Int) := by
  intro n a b _ ha _
  simp only [aluRemU]
  split
  · exact (specDiv_some n a _ ha).symm
  · rw [specDiv_none, toBits_natCast n _ (Nat.lt_of_le_of_lt (Nat.mod_le a b) ha)]

/-- The one signed quotient that does not fit: the most negative number by -1. -/
theorem signedOverflow_iff (n a b : Nat) (hn : 0 < n) (ha : a < 2 ^ n) (hb : b < 2 ^ n) :
    (sext n a = -(2 ^ (n - 1) : Int) ∧ sext n b = -1) ↔ (a = 2 ^ (n - 1) ∧ b = 2 ^ n - 1) := by
  have hk := Nat.two_pow_pos (n - 1)
  have hpow : 2 ^ n = 2 * 2 ^ (n - 1) := (mul_pow_sub_one hn.ne' 2).symm
  have hpow' : (2 ^ n : Int) = 2 * 2 ^ (n - 1) := (mul_pow_sub_one hn.ne' 2).symm
  have hcast : ((2 ^ (n - 1) : Nat) : Int) = 2 ^ (n - 1) := by push_cast; rfl
  simp only [sext, Nat.mod_eq_of_lt ha, Nat.mod_eq_of_lt hb]
  split <;> split <;> omega

/-- Signed division and remainder share their special cases; `z` answers a divisor of 0, `o` the overflow. -/
theorem specDiv_signed (n a b z o o' : Nat) (v : Int) (hn : 0 < n) (ha : a < 2 ^ n) (hb : b < 2 ^ n)
    (hz : z < 2 ^ n) (ho : o < 2 ^ n) (hoo : a = 2 ^ (n - 1) → o' = o) :
    (if b = 0 then { flagsZN n z with v := some true }
      else if sext n a = -(2 ^ (n - 1) : Int) ∧ sext n b = -1 then { flagsZN n o' with v := some true }
      else { flagsZN n (toBits n v) with v := some false }) = specDiv n (specSpecial n a b z o) v := by
  simp only [signedOverflow_iff n a b hn ha hb, specSpecial]
  split
  · exact (specDiv_some n z v hz).symm
  · split
    · rw [specDiv_some n o v ho, hoo (And.left ‹_›)]
    · exact (specDiv_none n v).symm

theorem aluDivS_agrees : AgreesOnOperands aluDivS fun n a b =>
    specDiv n (specSpecial n a b (2 ^ n - 1) (2 ^ (n - 1))) ((specSigned n a).tdiv (specSigned n b)) := by
  intro n a b hn ha hb
  simp only [← sext_eq_specSigned]
  exact specDiv_signed n a b _ _ a _ hn ha hb (Nat.sub_one_lt (Nat.two_pow_pos n).ne')
    (Nat.pow_lt_pow_right Nat.one_lt_two (Nat.sub_one_lt hn.ne')) id

theorem aluRemS_agrees : AgreesOnOperands aluRemS fun n a b =>
    specDiv n (specSpecial n a b a 0) ((specSigned n a).tmod (specSigned n b)) := by
  intro n a b hn ha hb
  simp only [← sext_eq_specSigned]
  exact specDiv_signed n a b a 0 0 _ hn ha hb ha (Nat.two_pow_pos n) fun _ => rfl

end Sys2Proof.Machine
end

section
/-! CERTIFICATES. Shifts, multiplications and divisions (R177 to R181). -/

namespace Sys2Proof.Proofs
open Sys2Proof.Machine Sys2Proof.Claims

/-- Settles O2: every form issues as a plain ALU instruction, and each shift agrees with R179 for a count below the width. -/
theorem scalarShifts : Obligations.ScalarShifts :=
  ⟨⟨registerForm_of_agrees _ _ _ _ (fun _ _ _ _ => rfl) (shiftBy_agrees .shl _ shl_agrees),
    registerForm_of_agrees _ _ _ _ (fun _ _ _ _ => rfl) (shiftBy_agrees .shr _ shr_agrees),
    registerForm_of_agrees _ _ _ _ (fun _ _ _ _ => rfl) (shiftBy_agrees .sar _ sar_agrees),
    registerForm_of_agrees _ _ _ _ (fun _ _ _ _ => rfl) (shiftBy_agrees .ror _ ror_agrees)⟩,
    shiftForm_of_agrees _ .shl _ (fun _ _ _ _ => rfl) shl_agrees,
    shiftForm_of_agrees _ .shr _ (fun _ _ _ _ => rfl) shr_agrees,
    shiftForm_of_agrees _ .sar _ (fun _ _ _ _ => rfl) sar_agrees,
    shiftForm_of_agrees _ .ror _ (fun _ _ _ _ => rfl) ror_agrees⟩

/-- Settles O3: every form issues as a plain ALU instruction, and each operation agrees with R177 and R180. -/
theorem scalarMultiplyDivide : Obligations.ScalarMultiplyDivide :=
  ⟨registerForm_of_agrees _ _ _ _ (fun _ _ _ _ => rfl) aluMulLow_agrees,
    immediateForm_of_agrees _ _ _ _ (fun _ _ _ _ _ => rfl) aluMulLow_agrees,
    registerForm_of_agrees _ _ _ _ (fun _ _ _ _ => rfl) aluMulHighU_agrees,
    registerForm_of_agrees _ _ _ _ (fun _ _ _ _ => rfl) aluMulHighS_agrees,
    registerForm_of_agrees _ _ _ _ (fun _ _ _ _ => rfl) aluDivU_agrees,
    registerForm_of_agrees _ _ _ _ (fun _ _ _ _ => rfl) aluRemU_agrees,
    registerForm_of_agrees _ _ _ _ (fun _ _ _ _ => rfl) aluDivS_agrees,
    registerForm_of_agrees _ _ _ _ (fun _ _ _ _ => rfl) aluRemS_agrees⟩

end Sys2Proof.Proofs
end

section
/-! SUPPORT. A register write that its block takes, and the registers of the SYS block (R9 to R12, R144, R198, R199). -/

namespace Sys2Proof.Machine
open Sys2Proof.Claims

theorem State.takes_iff (s : State) (r : Requester) (x : Reg) (v : Word) : s.takes r x v = true ↔
    (s.power.por = false ∧ s.quiet = true) ∧ s.reaches r = true ∧ s.annexHolds r x = false ∧ s.regReserved r x v = false := by
  simp [State.takes, State.calm, and_assoc]

/-- A command that writes the register `x` and leaves the device quiet. -/
theorem writeForm_of_access (c : Requester → Word → Instr) (x : Reg) (p : Requester → Word → State → Prop)
    (f : Requester → Word → State → State) (he : ∀ r v s, exec (c r v) s = .next (s.access r x.off v))
    (hx : regAt x.off = some x) (hf : ∀ r v s, p r v s → s.regEffect r x v = f r v s)
    (hq : ∀ r v s, s.quiet = true → (f r v s).quiet = true) : WriteForm c x p f := by
  intro r v s ht hp
  obtain ⟨⟨hpor, hquiet⟩, hr, hh, hres⟩ := (s.takes_iff r x v).1 ht
  have hput : s.regPut r x v = f r v s := by
    rw [State.regPut, hres]
    exact hf r v s hp
  refine ⟨_, he r v s, ?_⟩
  rw [← hput]
  exact s.access_after r x v hpor hr hx hh (by rw [hput]; exact hq r v s hquiet)

/-- A write of the SYS block. -/
theorem State.regEffect_sys (s : State) (r : Requester) (x : Reg) (v : Word) (h : x.off / 0x100000 = 0) :
    s.regEffect r x v = s.sysWrite r x v := by
  simp only [State.regEffect, h]

/-- A read of a register of the SYS block that is no Chimney result and no half of a pair changes nothing. -/
theorem State.regGet_sys (s : State) (r : Requester) (x : Reg) (h : x.off / 0x100000 = 0) (hp : pairOf x = none)
    (ho : ∀ k, s.ownResult k x = false) : s.regGet r x = (s, s.sysRead x) := by
  have hw : s.awaitCaptures r x = s := by
    unfold State.awaitCaptures
    split
    · simp [ho]
    · rfl
  simp only [State.regGet, hw, hp, h]

/-- The registers through which the event latches of a sequencer are read (R198, R199). -/
def IsEventLatch (f : Fam) : Prop := f = .sysSeqEvl ∨ f = .sysSeqEvc

/-- Both lie in the SYS block, each at an offset of its own. -/
theorem eventLatch_off (f : Fam) (hf : IsEventLatch f) (h : Fin 4) :
    (rg f h).off / 0x100000 = 0 ∧ regAt (rg f h).off = some (rg f h) := by
  rcases hf with rfl | rfl <;> revert h <;> decide

/-- A read of either returns the latches and changes nothing. -/
theorem regGet_eventLatch (f : Fam) (hf : IsEventLatch f) (h : Fin 4) (r : Requester) (s : State) :
    s.regGet r (rg f h) = (s, (s.seq h).ev) := by
  rw [State.regGet_sys s r _ (eventLatch_off f hf h).1]
  all_goals rcases hf with rfl | rfl <;> simp [State.sysRead, pairOf, State.ownResult]

/-- A write of either changes the event latches of its sequencer to `g` of them and the word written. -/
theorem writeForm_eventLatch (f : Fam) (hf : IsEventLatch f) (h : Fin 4) (c : Requester → Word → Instr)
    (g : Word → Word → Word) (he : ∀ r v s, exec (c r v) s = .next (s.access r (rg f h).off v))
    (hg : ∀ r v (s : State), s.sysWrite r (rg f h) v = s.modSeq (Fin.ofNat 4 h) fun q => { q with ev := g q.ev v }) :
    WriteForm c (rg f h) (fun _ _ _ => True) fun _ v s => s.modSeq h fun q => { q with ev := g q.ev v } := by
  obtain ⟨hoff, hat⟩ := eventLatch_off f hf h
  refine writeForm_of_access c _ _ _ he hat (fun r v s _ => ?_) fun _ v s hq => ?_
  · rw [State.regEffect_sys s r _ v hoff, hg, Fin.ofNat_val_eq_self]
  · rwa [State.modSeq_quiet s h _ rfl rfl]

/-- The event latches are clear at reset. -/
theorem reset_seq_ev (h : Fin 4) : (State.reset.seq h).ev = 0 := by
  revert h; decide

end Sys2Proof.Machine
end

section
/-! CERTIFICATES. The event latch registers (R198, R199). -/

namespace Sys2Proof.Proofs
open Sys2Proof.Machine Sys2Proof.Claims

/-- Settles O21: a SYS register whose write is an OR into the latches. -/
theorem eventLatchSetRegister : Obligations.EventLatchSetRegister := fun h =>
  ⟨by revert h; decide, reset_seq_ev h, regGet_eventLatch .sysSeqEvl (.inl rfl) h,
    writeForm_eventLatch .sysSeqEvl (.inl rfl) h _ (fun ev v => ev ||| v) (fun _ _ _ => rfl) fun _ _ _ => rfl⟩

/-- Settles O22: a SYS register whose write is an AND NOT into the latches. -/
theorem eventLatchClearRegister : Obligations.EventLatchClearRegister := fun h =>
  ⟨by revert h; decide, reset_seq_ev h, regGet_eventLatch .sysSeqEvc (.inr rfl) h,
    writeForm_eventLatch .sysSeqEvc (.inr rfl) h _ (fun ev v => ev &&& ~~~v) (fun _ _ _ => rfl) fun _ _ _ => rfl⟩

end Sys2Proof.Proofs
end
